-- ==== Sys2Proof/Word.lean ====
section
/-! DEFINITION. Word.lean: the word types of the module (00_scope.md R8, R9, R14) and their plainest arithmetic. -/
namespace Sys2Proof

/-- One byte. -/
abbrev Byte := BitVec 8
/-- A 32-bit word. -/
abbrev W32 := BitVec 32
/-- A 64-bit word: registers, queue entries, blueprint words (R9). -/
abbrev W64 := BitVec 64
/-- A 128-bit instruction word of an instruction list (R9, R262). -/
abbrev W128 := BitVec 128
/-- A SHA-384 digest in its stored octet order, byte 0 in bits 7:0 (R9). -/
abbrev Digest := BitVec 384

end Sys2Proof
end

