-- ==== Sys2Proof/Syntax.lean ====
section
/-! DEFINITION. Syntax.lean: the commands of the module, one constructor per row of the opcode table, and the operand
types they carry. A command carries what the world outside the module decides at that moment (who writes, the word
written, what a detector measured, what a peer sent). -/
namespace Sys2Proof

/-- The units of a tile with an issue queue (Table 8.15). -/
inductive UnitId where
  | fetcher | arrays | vector | jacks | domino
deriving DecidableEq, Repr

/-- One of the two reference inputs (R108). -/
inductive RefId where
  | refA | refB
deriving DecidableEq, Repr

/-- Level of the backup cell (R103). -/
inductive CellLevel where
  | full | charging | low | failed
deriving DecidableEq, Repr

/-- The sequencer context of a tile: the normal run or the filler run (R308). -/
inductive Ctx where
  | normal | filler
deriving DecidableEq, Repr

/-- A unit that fails a test of Table 3.6 (R92). -/
inductive StartUnit where
  /-- a core position: index of unit type 0x1 of Table 14.13; a unit of its datapath -/
  | core (index : Nat)
  /-- a core store: the index of its position -/
  | coreStore (index : Nat)
  /-- a cluster store bank of a cluster (die x 33 + cluster) -/
  | clusterBank (cluster : Nat)
  /-- a row of a stack bank, which a spare row repairs -/
  | row (channel pc bank row : Nat)
  /-- a stack bank, which the spare bank of its pseudo-channel repairs -/
  | bank (channel pc bank : Nat)
  /-- a stack channel that sparing cannot repair: 32 x stack + channel -/
  | channel (index : Nat)
  /-- a Serden lane: 32 x stack + channel -/
  | lane (index : Nat)
  /-- a Jacks engine of a die -/
  | jacks (die : Nat)
  /-- a Domino engine of a die -/
  | domino (die : Nat)
deriving DecidableEq, Repr

/-- A host write of PCIe configuration space or a capability (R146). -/
inductive PcieWrite where
  /-- Resizable BAR: new BAR2 size as log2 bytes -/
  | resizeBar2 (log2 : Nat)
  /-- power state D0 -/
  | powerD0
  /-- power state D3hot -/
  | powerD3hot
  /-- mask or unmask one MSI-X vector -/
  | msixMask (vector : Nat) (mask : Bool)
  /-- IDE link stream set active or inactive -/
  | ide (active : Bool)
  /-- any other register: stored by the PCIe function, no rule of the spec reads it -/
  | other (offset : Nat) (value : W32)
deriving DecidableEq, Repr

/-- An access of a host to partition stack memory, by offset in the window (R142, R147). -/
inductive HostMemOp where
  | read (len : Nat)
  | write (data : List Byte)
deriving DecidableEq, Repr

/-- One request of the SPDM protocol (R579, R580). -/
inductive SpdmReq where
  | getVersion
  | getCapabilities
  | negotiateAlgorithms
  | getDigests
  | getCertificate (slot : Nat)
  | challenge (slot : Nat) (nonce : List W64)
  | getMeasurements (index : Nat) (signed : Bool) (nonce : List W64)
  | keyExchange (slot : Nat) (exchange : List W64)
  | finish
  | heartbeat
  | keyUpdate
  | endSession
  | ideKm (active : Bool)
  | other (code : Nat)
deriving DecidableEq, Repr

/-- A request of the operating-system-free PLDM base type (R570). -/
inductive PldmBase where
  | setTid (tid : Nat) | getTid | getPldmVersion (type : Nat) | getPldmTypes | getPldmCommands (type : Nat)
deriving DecidableEq, Repr

/-- What a message of the fabric manager carries (R44, R458, R459, R465). -/
inductive FmMsg where
  /-- an order word for the slot of 0x40 -/
  | order (word : W64) (last : Bool)
  /-- the next-hop MAC address of a link -/
  | nextHop (link mac : Nat)
  /-- the IP address of a seat -/
  | seatAddress (seat : Nat) (ip : W64)
  /-- the segment size in bytes -/
  | segment (size : Nat)
  /-- the DSCP of a class -/
  | dscp (cls value : Nat)
  /-- priority-based flow control on or off -/
  | pfc (on : Bool)
deriving DecidableEq, Repr

/-- A message of the fabric manager as it comes: its source address, which the answer goes to (R44), and what it carries. -/
structure FmPacket where
  src : Nat
  body : FmMsg
deriving DecidableEq, Repr

/-- The phase that a cluster (die x 33 + cluster) or a Serden engine (66 + stack) has been in over a tick, as the governor measures it
(R558): its job's partition and number, LAYER, op class of the power chapter, the power at share 64/64 and when held in mW, and the
phase's duration in ns. -/
structure PhaseSeen where
  unit : Nat
  part : Nat
  job : Nat
  layer : Nat
  cls : Nat
  fullMw : Nat
  heldMw : Nat
  ns : Nat
deriving DecidableEq, Repr

/-- What a peer declares at the start of a run: the two first words of a channel entry (R306), or for a group the digest of its seat
list and OP, ALGO and count of each descriptor on it (R483). `seat` is the peer's. -/
inductive Declared where
  /-- a remote channel -/
  | channel (seat : Nat) (c0 c1 : W64)
  /-- a group -/
  | group (seat group : Nat) (digest : Digest) (descs : List (Nat × Nat × Nat))
deriving DecidableEq, Repr

/-- What a REPORT agent message relays (R44, R457). -/
inductive Relay where
  /-- a report of a module without an Ethernet-mode link, for the fabric manager -/
  | up (kind : Nat) (words : List W64)
  /-- a message of the fabric manager for this module, with its source address -/
  | down (src : Nat) (message : FmMsg)
deriving DecidableEq, Repr

/-- What a targeted self-test tests (Table 14.5). Cores are core indices (die x 528 + cluster x 16 + position), clusters die x 33 + cluster,
channels 32 x stack + channel. -/
inductive TestUnit where
  /-- a MAC array of a core -/
  | array (core i : Nat)
  /-- the epilogue unit of a core -/
  | epilogue (core : Nat)
  /-- the fetcher of a core -/
  | fetcher (core : Nat)
  /-- the sequencer of a core -/
  | sequencer (core : Nat)
  /-- the vector unit of a core -/
  | vector (core : Nat)
  /-- a whole core -/
  | core (core : Nat)
  /-- a bank of a core store -/
  | coreBank (core bank : Nat)
  /-- a bank of a cluster store -/
  | clusterBank (cluster bank : Nat)
  /-- a row of a stack channel -/
  | row (channel pc bank row : Nat)
  /-- the banks of a stack channel that reported errors -/
  | channel (channel : Nat)
  /-- a Serden lane -/
  | lane (channel : Nat)
  /-- a lane of a link -/
  | linkLane (link lane : Nat)
  /-- the Jacks engine of a die -/
  | jacks (die : Nat)
  /-- the Domino engine of a die -/
  | domino (die : Nat)
  /-- a bridge between the dies: its errors are corrected by CRC and retry; no test is given for it -/
  | bridge
deriving DecidableEq, Repr

/-- A class of Table 14.3. -/
inductive ErrClass where
  /-- repaired before any unit used it -/
  | corrected
  /-- found before the result left its unit, or, on a link lane, corrected codewords above LANE_FEC_LIMIT; `committed` is true when part of the effect of the oldest instruction of the unit has been
  accepted already: an add-write, part of DST, a first packet -/
  | detected (committed : Bool)
  /-- data cannot be recovered: address, or instruction index -/
  | lost (place : Nat)
  /-- a stack line is uncorrectable: its number -/
  | poisoned (line : Nat)
deriving DecidableEq, Repr

/-- What a patrol scrub finds of a line (R325 to R327). -/
inductive Scrubbed where
  | clean
  | corrected
  | uncorrectable
deriving DecidableEq, Repr

/-- The commands of the module, one constructor per row of spec/opcode_table.json. -/
inductive Instr where
  /-- FEED_APPLIED (R603): A 54 V feed is applied; soft start limits inrush, and on the first feed the management
  address straps are sampled. -/
  | feedApplied (feed mv straps : Nat)
  /-- PWR_EN_ASSERT (R77): PWR_EN is asserted in standby and the wake sequencer starts a wake attempt at step 1. -/
  | pwrEnAssert (downRunning : Bool)
  /-- PWR_EN_DEASSERT (R83): PWR_EN is deasserted: a wake attempt is aborted, or after PGOOD the module powers down.
  -/
  | pwrEnDeassert
  /-- WAKE_READY_SIGNAL (R77): The ready signal of the current wake step arrives; the sequencer starts the next step,
  or after step 9 asserts PGOOD and releases the security core. -/
  | wakeReadySignal
  /-- WAKE_STEP_TIMEOUT (R78): A wake step's timeout expires without its ready signal; the attempt fails, is recorded
  in WAKE_STATUS and the rails go down. -/
  | wakeStepTimeout (rail : Nat)
  /-- WAKE_RAIL_FAULT (R78): A rail that was already good loses good during the wake sequence, and the attempt fails.
  -/
  | wakeRailFault (rail : Nat)
  /-- WAKE_RETRY_WAIT_END (R78): The 100 ms wait after a failed attempt ends and the next attempt starts at step 1. -/
  | wakeRetryWaitEnd
  /-- RAIL_FAULT_RUNNING (R83): A rail fault after PGOOD powers the module down, records step 0xF cause 0x3 and enters
  SAFE_HOLD. -/
  | railFaultRunning (rail : Nat)
  /-- POWER_LOSS (R85): A feed stays below 38.0 V for 50 µs while PGOOD is asserted; the module powers down, writes
  the Clockwork backup and logs the loss. -/
  | powerLoss (mv0 mv1 mv2 : Nat)
  /-- SUPPLY_SWITCH_TO_CELL (R101): The input falls below 37.0 V and the supply selector switches the always-on domain
  to the backup cell. -/
  | supplySwitchToCell (mv0 mv1 mv2 : Nat)
  /-- SUPPLY_QUALIFY_END (R101): The input has stayed at or above 39.0 V for 10 ms and the selector returns to the
  standby converter. -/
  | supplyQualifyEnd
  /-- SUPPLY_SWITCH_DONE (R101): A selector switch completes, and any input change during it restarts qualification.
  -/
  | supplySwitchDone
  /-- BACKUP_CELL_LEVEL_CHANGE (R103): The backup cell becomes full, charging, low or failed, and firmware raises a
  backup-cell event on low or failed. -/
  | backupCellLevelChange (level : CellLevel)
  /-- THERMAL_TRIP (R565): A sensor reaches its trip temperature; THERMTRIP_N and FAULT_N assert and the module powers
  down. -/
  | thermalTrip (sensor : Nat)
  /-- THERMTRIP_RELEASE (R609): THERMTRIP_N releases once the trip power-down has ended and PWR_EN reads deasserted.
  -/
  | thermtripRelease
  /-- ORDER_MODULE_RESET (R624): A MODULE_RESET order is checked and resolved in its slate, completes DONE at once and
  schedules the reset 5 ms later. -/
  | orderModuleReset (mid : Nat) (word : W64) (last : Bool)
  /-- MODULE_RESET_DELAY_END (R186): The 5 ms after a winning MODULE_RESET expire and the module reset begins. -/
  | moduleResetDelayEnd
  /-- BOOT_ROM (R87): The security core runs its ROM steps: fuses, activation header, firmware read and check,
  blueprint read and validation, lock and release of the puppeteer cores. -/
  | bootRom
  /-- STARTUP_SELF_TEST (R92): Firmware starts, moves to BOOT_OP and tests every enabled unit before any partition
  becomes ready. -/
  | startupSelfTest (failing : List StartUnit)
  /-- PARTITION_READY (R96): The tests concerning a partition end; its READY bit sets or the partition fails. -/
  | partitionReady (partition : Nat) (checkPassed : Bool)
  /-- OP_TARGET_REQUEST (R113): Firmware gives the operating-point sequencer a new target, which replaces any earlier
  target. -/
  | opTargetRequest (index pause : Nat)
  /-- OP_RAMP_REACHED (R111): Both core rails report the new voltage of an operating-point step. -/
  | opRampReached (pause : Nat)
  /-- OP_SETTLE_END (R111): The 10 µs settle after an upward ramp ends and the core divider changes. -/
  | opSettleEnd (pause : Nat)
  /-- OP_RAMP_TIMEOUT (R114): A voltage ramp misses twice its nominal time; the rails return and an operating-point-
  fail event is raised. -/
  | opRampTimeout
  /-- REF_LOSS_OF_SIGNAL (R115): A reference shows no edge for 32 ns and is disqualified, starting a switch or the
  clock-loss wait. -/
  | refLossOfSignal (ref : RefId)
  /-- REF_WINDOW_END (R115): A 1 ms frequency window ends; a reference is qualified after ten good windows or
  disqualified if out of range. -/
  | refWindowEnd (inRangeA inRangeB : Bool)
  /-- REFA_DWELL_END (R117): REFA has been qualified for 100 ms while on REFB and the switch back to REFA starts. -/
  | refaDwellEnd
  /-- REFERENCE_SWITCH_END (R118): A reference switch completes, the reference state is updated and a reference-switch
  event is raised. -/
  | referenceSwitchEnd
  /-- SYNC_INTERVAL_TIMER (R131): A sync interval expires and the module starts one Clockwork exchange with its
  reference. -/
  | syncIntervalTimer (t1 : W64) (refs : List Nat)
  /-- SYNC_LOSS_TIMEOUT (R126): Four sync intervals pass without a valid exchange and a LOCKED counter enters
  COASTING. -/
  | syncLossTimeout
  /-- COASTING_LIMIT_TIMEOUT (R126): A module stays unsynchronised or COASTING for 64 intervals and raises clockwork-
  unsynchronised. -/
  | coastingLimitTimeout
  /-- SYNCIN_EDGE (R133): A SYNCIN rising edge is taken as a whole second by the system reference. -/
  | syncinEdge (at8 : W64)
  /-- SYNCIN_ABSENT_TIMEOUT (R133): No SYNCIN edge arrives within 1.1 s. -/
  | syncinAbsentTimeout
  /-- ORDER_CLOCK_RESYNC (R134): A CLOCK_RESYNC order sends the counter to ACQUIRING and clears the filter. -/
  | orderClockResync (mid : Nat) (word : W64) (last : Bool)
  /-- CURTAIN_COUNT_REACHED (R136): The Clockwork counter reaches a curtain count and tiles waiting on it start. -/
  | curtainCountReached (count : W64)
  /-- PERST_N_ASSERT (R150): PERST_N of a port asserts and the port resets, deleting its queue pairs and jobs. -/
  | perstNAssert (port : Nat)
  /-- PERST_N_RELEASE (R86): PERST_N releases and link training on the port begins once the security core runs. -/
  | perstNRelease (port : Nat)
  /-- D3HOT_ENTRY (R150): A port enters D3hot and is reset once. -/
  | d3hotEntry (port : Nat)
  /-- PCIE_CONFIG_WRITE (R146): The host writes PCIe configuration space or capabilities as the specification lays
  down. -/
  | pcieConfigWrite (port : Nat) (w : PcieWrite)
  /-- HOST_LINK_UP (R144): A host port link trains; PORT_INFO updates and waiting posted writes are sent. -/
  | hostLinkUp (port rate width : Nat) (flit cxl : Bool)
  /-- HOST_LINK_DOWN (R622): A host port link goes down and posted writes wait on the module. -/
  | hostLinkDown (port : Nat)
  /-- REGISTER_WRITE (R11): A BAR0 write to a register without its own row; RSVD, reserved encodings, bad sizes and
  4-byte writes to 64-bit registers are handled. -/
  | registerWrite (port offset size : Nat) (value : W64)
  /-- LOW_HALF_READ (R12): A 4-byte read of a 64-bit register's low half latches the high half, and on RCLR clears the
  register. -/
  | lowHalfRead (port offset : Nat)
  /-- BAR2_ACCESS (R142): A host reads or writes partition stack memory through BAR2 or CXL.mem, with poison or
  Unsupported Request as applicable. -/
  | bar2Access (port : Nat) (cxl : Bool) (offset : Nat) (op : HostMemOp)
  /-- MB_SEND (R158): The sender writes MB_SEND to post a message, or the send is refused and REFUSED increments. -/
  | mbSend (mid channel length : Nat)
  /-- MB_DATA_WRITE (R158): A write to MB_DATA is taken only from the sender while FULL is 0. -/
  | mbDataWrite (mid channel offset : Nat) (data : List Byte)
  /-- MB_TAKE (R159): The receiver reads MB_TAKE, which returns FULL and LENGTH and clears the message. -/
  | mbTake (mid channel : Nat)
  /-- HOST_CONTROL_MALFORMED (R164): A host control message too short or of unknown type is discarded or answered
  BAD_TYPE. -/
  | hostControlMalformed (channel : Nat)
  /-- QP_CREATE (R165): Firmware checks and creates a queue pair. -/
  | qpCreate (channel : Nat)
  /-- QP_DELETE (R166): Firmware stops fetching from a queue pair and ends its fetched commands. -/
  | qpDelete (channel : Nat)
  /-- QP_DELETE_DRAINED (R166): Every command of a deleted queue pair has ended and firmware replies. -/
  | qpDeleteDrained (port qp : Nat)
  /-- EVENT_RING_SET (R623): A host takes or restarts the partition's event ring. -/
  | eventRingSet (channel : Nat)
  /-- EVENT_RING_RELEASE (R623): The owner gives up the event ring. -/
  | eventRingRelease (channel : Nat)
  /-- BAR2_WINDOW (R623): The BAR2 window offset changes after earlier BAR2 accesses complete. -/
  | bar2Window (channel : Nat)
  /-- SPILL_AREA (R322): A host sets its partition's host spill area. -/
  | spillArea (channel : Nat)
  /-- SQ_TAIL (R168): A submission doorbell write makes entries visible, or is an overrun that stops fetching. -/
  | sqTail (port qp value : Nat)
  /-- CQ_HEAD (R168): A completion doorbell write frees completion-queue space, or is an overrun. -/
  | cqHead (port qp value : Nat)
  /-- SUBMISSION_FETCH (R178): The module fetches a submission entry into a free slot by weighted round robin. -/
  | submissionFetch (port qp : Nat) (entry : List W64)
  /-- SUBMISSION_FETCH_FAILED (R625): A submission entry's DMA read fails; fetching stops and queue-fetch-failed is
  raised. -/
  | submissionFetchFailed (port qp : Nat)
  /-- LOAD_JOB (R305): The job package is copied in and checked, completing SUCCESS or with the status of the failing
  stage. -/
  | loadJob (port qp seq : Nat) (package : List W64) (failed : Bool)
  /-- START_JOB (R306): A run is requested and waits until no running normal run holds its tiles. -/
  | startJob (port qp seq : Nat)
  /-- ABORT_JOB (R309): A run is stopped and its START_JOB completes ABORTED. -/
  | abortJob (port qp seq : Nat)
  /-- UNLOAD_JOB (R170): A job's resources are freed, or JOB_RUNNING if it runs. -/
  | unloadJob (port qp seq : Nat)
  /-- COPY_IN (R626): Host memory is copied into partition stack memory. -/
  | copyIn (port qp seq : Nat) (data : List Byte)
  /-- COPY_OUT (R626): Partition stack memory is copied to host memory. -/
  | copyOut (port qp seq : Nat) (sent : Option Nat)
  /-- NOP (R170): A no-operation command completes at once. -/
  | nop (port qp seq : Nat)
  /-- COMPLETION_WRITE (R179): A completion entry waiting for completion-queue space is written and its slot freed. -/
  | completionWrite (port qp : Nat)
  /-- EVENT_HEAD (R177): The ring owner writes HEAD, or the write is ignored with a host-access-error. -/
  | eventHead (port value : Nat)
  /-- EVENT_BACKLOG_DRAIN (R176): As ring room returns, backlog entries and overflow entries are written in order. -/
  | eventBacklogDrain (partition : Nat)
  /-- QUEUE_SATURATION_TIMEOUT (R180): A queue pair stays saturated or its completion waits for SATURATION_WINDOW_US.
  -/
  | queueSaturationTimeout (port qp : Nat)
  /-- ORDER_POWER_CAP (R52): A POWER_CAP order is bounded, resolved in its slate and applied to the cap in force. -/
  | orderPowerCap (mid : Nat) (word : W64) (last : Bool)
  /-- ORDER_LINK_DISABLE (R473): A LINK_DISABLE order disables a link. -/
  | orderLinkDisable (mid : Nat) (word : W64) (last : Bool)
  /-- ORDER_LINK_ENABLE (R473): A LINK_ENABLE order starts training on a DISABLED or FAILED link. -/
  | orderLinkEnable (mid : Nat) (word : W64) (last : Bool)
  /-- ORDER_PARTITION_RESET (R189): A PARTITION_RESET order starts the partition reset of Table 5.18. -/
  | orderPartitionReset (mid : Nat) (word : W64) (last : Bool)
  /-- PARTITION_RESET_DONE (R189): A partition reset finishes; READY sets, RESET_COUNT increments and the order
  completes DONE. -/
  | partitionResetDone (partition : Nat) (visible : List (Nat × Nat × List W64))
  /-- ARRAY_OPERATION_END (R207): An array operation ends and its accumulator set passes to the epilogue. -/
  | arrayOperationEnd (tile : Nat) (ctx : Ctx) (spun rotation operand drain bank limiter : Nat)
  /-- SPINNER_WINDOW_EXPIRY (R216): SPINNER_WINDOW cycles pass without a real operation and the array stops; `core` is
  the core index of the datapath. -/
  | spinnerWindowExpiry (core array : Nat)
  /-- ARRAY_START_STAGGER (R218): The stagger window passes and the next held array start is granted; the
  cluster is 33 x die + cluster. -/
  | arrayStartStagger (cluster cycles : Nat)
  /-- FILL_DEADLINE_EXPIRY (R212): A row batch's fill deadline expires and it issues as a padded tile. -/
  | fillDeadlineExpiry (tile : Nat) (ctx : Ctx) (stream : Nat)
  /-- BATCH_ROW_ARRIVAL (R211): A row or key arrives at the fill batcher. -/
  | batchRowArrival (tile : Nat) (ctx : Ctx) (unit : UnitId)
  /-- INSTRUCTION_COMPLETE (R286): A unit completes an instruction and posts its string. -/
  | instructionComplete (tile : Nat) (ctx : Ctx) (unit : UnitId)
  /-- COPY (R276): The fetcher copies lines between descriptors. -/
  | copy (tile : Nat) (ctx : Ctx) (waits : List (Nat × Nat))
  /-- MCAST (R223): The fetcher multicasts a block to several cluster stores. -/
  | mcast (tile : Nat) (ctx : Ctx) (waits : List (Nat × Nat))
  /-- GATHER (R277): The fetcher gathers indexed rows into a batch stream, dropping out-of-range indices. -/
  | gather (tile : Nat) (ctx : Ctx) (waits : List (Nat × Nat))
  /-- BATCH_OPEN (R211): A batch stream opens in row or key batching with its fill deadline. -/
  | batchOpen (tile : Nat) (ctx : Ctx) (waits : List (Nat × Nat))
  /-- BATCH_END (R214): The producer marks a batch stream ended. -/
  | batchEnd (tile : Nat) (ctx : Ctx) (waits : List (Nat × Nat))
  /-- ATOMIC (R441): The fetcher issues atomic operations to local or fabric memory. -/
  | atomic (tile : Nat) (ctx : Ctx) (waits : List (Nat × Nat))
  /-- MAC (R274): An array operation computes one output block and its epilogue. -/
  | mac (tile : Nat) (ctx : Ctx) (waits : List (Nat × Nat))
  /-- ELEM (R279): The vector unit applies an element-wise function. -/
  | elem (tile : Nat) (ctx : Ctx) (waits : List (Nat × Nat))
  /-- REDUCE (R279): The vector unit forms row sums or row maxima. -/
  | reduce (tile : Nat) (ctx : Ctx) (waits : List (Nat × Nat))
  /-- CONVERT (R241): The vector unit converts values to the destination format. -/
  | convert (tile : Nat) (ctx : Ctx) (waits : List (Nat × Nat))
  /-- RAND (R279): The vector unit writes uniform draws from the dice stream. -/
  | rand (tile : Nat) (ctx : Ctx) (waits : List (Nat × Nat))
  /-- TOPK (R381): The vector unit selects the top k columns of each row. -/
  | topk (tile : Nat) (ctx : Ctx) (waits : List (Nat × Nat))
  /-- DISPATCH_SEND (R397): The token side counts choices, sends COUNTs, waits for grants and sends rows. -/
  | dispatchSend (tile : Nat) (ctx : Ctx) (waits : List (Nat × Nat))
  /-- DISPATCH_RECEIVE (R400): The expert side acquires the forward use and waits for its slots. -/
  | dispatchReceive (tile : Nat) (ctx : Ctx) (waits : List (Nat × Nat))
  /-- DISPATCH_FEED (R401): Occupied forward slots are fed to a batch stream and the end mark given. -/
  | dispatchFeed (tile : Nat) (ctx : Ctx) (waits : List (Nat × Nat))
  /-- DISPATCH_RELEASE (R389): One release of the forward use is counted. -/
  | dispatchRelease (tile : Nat) (ctx : Ctx) (waits : List (Nat × Nat))
  /-- GROUP_GATHER (R420): An index copy gathers listed group blocks into a compact buffer. -/
  | groupGather (tile : Nat) (ctx : Ctx) (waits : List (Nat × Nat))
  /-- GROUP_SCATTER (R420): An index copy add-writes compact gradient blocks onto listed groups. -/
  | groupScatter (tile : Nat) (ctx : Ctx) (waits : List (Nat × Nat))
  /-- SPARSE_PACK (R421): An index copy packs a dense gradient into the kept 2:4 values by add-writes. -/
  | sparsePack (tile : Nat) (ctx : Ctx) (waits : List (Nat × Nat))
  /-- COMBINE_SEND (R403): The expert side sends output rows of occupied slots to their tokens. -/
  | combineSend (tile : Nat) (ctx : Ctx) (waits : List (Nat × Nat))
  /-- COMBINE_RECEIVE (R403): The token side waits for combine rows and zeroes dropped choices. -/
  | combineReceive (tile : Nat) (ctx : Ctx) (waits : List (Nat × Nat))
  /-- GRAD_TO_EXPERT_SEND (R404): The token side handshakes then sends gate-scaled output gradients. -/
  | gradToExpertSend (tile : Nat) (ctx : Ctx) (waits : List (Nat × Nat))
  /-- GRAD_TO_EXPERT_RECEIVE (R404): The expert side acquires the gradient use and waits for its slots. -/
  | gradToExpertReceive (tile : Nat) (ctx : Ctx) (waits : List (Nat × Nat))
  /-- GRAD_TO_EXPERT_FEED (R402): Gradient slots are fed to a batch stream, as key pairs when KEYS is set. -/
  | gradToExpertFeed (tile : Nat) (ctx : Ctx) (waits : List (Nat × Nat))
  /-- GRAD_TO_EXPERT_RELEASE (R389): One release of the gradient use is counted. -/
  | gradToExpertRelease (tile : Nat) (ctx : Ctx) (waits : List (Nat × Nat))
  /-- GRAD_RETURN_SEND (R405): The expert side returns input-gradient rows to their tokens. -/
  | gradReturnSend (tile : Nat) (ctx : Ctx) (waits : List (Nat × Nat))
  /-- GRAD_RETURN_RECEIVE (R405): The token side waits for returned gradients and zeroes dropped choices. -/
  | gradReturnReceive (tile : Nat) (ctx : Ctx) (waits : List (Nat × Nat))
  /-- REDUCE_DX32 (R490): The Domino engine holds the segments and starts a DX32 reduction. -/
  | reduceDx32 (tile : Nat) (ctx : Ctx) (waits : List (Nat × Nat))
  /-- REDUCE_FP32 (R494): The Domino engine reduces accumulators in canonical-tree FP32 order. -/
  | reduceFp32 (tile : Nat) (ctx : Ctx) (waits : List (Nat × Nat))
  /-- BROADCAST (R498): Bytes from ROOT are copied to every rank. -/
  | broadcast (tile : Nat) (ctx : Ctx) (waits : List (Nat × Nat))
  /-- ALLGATHER (R498): Each rank's bytes land on every rank. -/
  | allgather (tile : Nat) (ctx : Ctx) (waits : List (Nat × Nat))
  /-- PERMUTE (R519): The move list is checked and the first staged round starts. -/
  | permute (tile : Nat) (ctx : Ctx) (waits : List (Nat × Nat))
  /-- NORM (R496): The global gradient norm is computed over the group. -/
  | norm (tile : Nat) (ctx : Ctx) (waits : List (Nat × Nat))
  /-- COUNTS (R497): Local expert counts are summed over the group into the count array. -/
  | counts (tile : Nat) (ctx : Ctx) (waits : List (Nat × Nat))
  /-- VOTE (R501): After the step's exponent passes, the module sends its vote record to its parent. -/
  | vote (tile : Nat) (ctx : Ctx) (waits : List (Nat × Nat))
  /-- CURTAIN (R282): A tile waits on the run's or the next step curtain count. -/
  | curtain (tile : Nat) (ctx : Ctx) (waits : List (Nat × Nat))
  /-- BARRIER (R285): A tile waits until every member has issued as many BARRIERs. -/
  | barrier (tile : Nat) (ctx : Ctx) (waits : List (Nat × Nat))
  /-- SEND (R289): A tile sends lines into the next entry of a tile channel against a credit. -/
  | send (tile : Nat) (ctx : Ctx) (waits : List (Nat × Nat))
  /-- RECV (R289): A tile takes the next channel entry and returns the previous credit. -/
  | recv (tile : Nat) (ctx : Ctx) (waits : List (Nat × Nat))
  /-- FENCE (R285): A tile waits until its earlier fabric writes and atomics are acknowledged. -/
  | fence (tile : Nat) (ctx : Ctx) (waits : List (Nat × Nat))
  /-- WAIT (R271): A sequencer WAIT instruction issues. -/
  | wait (tile : Nat) (ctx : Ctx) (waits : List (Nat × Nat))
  /-- CTRL_NOP (R271): A CTRL NOP instruction issues and completes. -/
  | ctrlNop (tile : Nat) (ctx : Ctx) (waits : List (Nat × Nat))
  /-- LOOP (R283): A loop of COUNT iterations over BODY instructions begins. -/
  | loop (tile : Nat) (ctx : Ctx) (waits : List (Nat × Nat))
  /-- JUMP (R283): Issue continues at TARGET. -/
  | jump (tile : Nat) (ctx : Ctx) (waits : List (Nat × Nat))
  /-- BRANCH (R294): A branch stops issue and drains the tile before reading its condition. -/
  | branch (tile : Nat) (ctx : Ctx) (waits : List (Nat × Nat))
  /-- BRANCH_DRAIN_END (R294): Earlier instructions have completed; the condition is compared and issue resumes after
  restart. -/
  | branchDrainEnd (tile : Nat) (ctx : Ctx) (cycles : Nat)
  /-- SETX (R273): An index register is set. -/
  | setx (tile : Nat) (ctx : Ctx) (waits : List (Nat × Nat))
  /-- ADDX (R273): An index register is incremented modulo 2^32. -/
  | addx (tile : Nat) (ctx : Ctx) (waits : List (Nat × Nat))
  /-- TIME (R297): The Clockwork count is written to the core store. -/
  | time (tile : Nat) (ctx : Ctx) (waits : List (Nat × Nat))
  /-- END (R307): A tile ends once its earlier instructions have completed. -/
  | endList (tile : Nat) (ctx : Ctx) (waits : List (Nat × Nat))
  /-- IFETCH_REFILL_DONE (R287): The instruction buffer refill for a jump target arrives. -/
  | ifetchRefillDone (tile : Nat) (ctx : Ctx) (cycles : Nat)
  /-- RUN_START (R306): A waiting START_JOB sets up tiles and channels, resolves regions and declarations, and waits
  for its curtain. -/
  | runStart (port qp seq : Nat)
  /-- RUN_END (R307): Every tile is ENDED; leftovers are discarded, statistics written and START_JOB completes
  SUCCESS. -/
  | runEnd (partition job : Nat)
  /-- STUCK_RUN_TIMEOUT (R304): No tile issues or completes for STUCK_MS and a stuck-run event is raised. -/
  | stuckRunTimeout (partition job : Nat)
  /-- TILE_SATURATION_TIMEOUT (R303): A tile stays held on a channel, engine or add-write queue for
  SATURATION_WINDOW_US. -/
  | tileSaturationTimeout (tile : Nat) (ctx : Ctx)
  /-- RESERVE (R330): A pool buffer is reserved before a credit is returned, or waits. -/
  | reserve (pool requester : Nat)
  /-- ALLOC (R330): A pool buffer is allocated, at once when CREDITED, or waits. -/
  | alloc (pool requester owner : Nat) (credited : Bool)
  /-- FREE (R336): A pool buffer is returned by its owner, or the free is refused. -/
  | free (pool unit buffer : Nat)
  /-- HANDOFF (R336): A shared buffer's named last owner names a new owner, or is refused. -/
  | handoff (pool unit buffer owner : Nat)
  /-- POOL_WAIT_SERVED (R335): A waiting pool request becomes eligible and is served oldest first. -/
  | poolWaitServed (pool : Nat)
  /-- POOL_SATURATION_TIMEOUT (R335): A pool stays at or above HOLD for SATURATION_WINDOW_US. -/
  | poolSaturationTimeout (pool : Nat)
  /-- BUFFER_AGE_SWEEP (R338): Every second firmware reports buffers held longer than 10 s. -/
  | bufferAgeSweep
  /-- SCRUB_ACCESS (R327): A patrol scrub reads a line in an idle slot and writes back a corrected line. -/
  | scrubAccess (line : Nat) (finding : Scrubbed)
  /-- BANK_SPARE_COPY_DONE (R328): A bank's row-by-row copy to the spare bank completes. -/
  | bankSpareCopyDone (channel pc bank : Nat)
  /-- ADD_WRITE (R344): A Serden lane applies an add-write, or holds it while the segment's accumulator is not OPEN.
  -/
  | addWrite (channel : Nat)
  /-- SEGMENT_UPDATE_DONE (R373): Every lane of a segment has finished; it becomes WRITTEN and flips if FLIP_PENDING.
  -/
  | segmentUpdateDone (partition job segment : Nat) (failed : Option Nat)
  /-- ACC_CLEAR_DONE (R373): A segment's accumulators are all +0; it becomes OPEN and waiting add-writes proceed. -/
  | accClearDone (partition job segment : Nat)
  /-- COMMIT_AT (R376): An engine queues a step outcome to apply at a count. -/
  | commitAt (partition job : Nat) (count : W64) (outcome : Nat)
  /-- START_UPDATE (R376): An engine runs a segment's update from held accumulators. -/
  | startUpdate (partition job segment : Nat)
  /-- REDO (R377): An engine reruns a failed early-mode update from the current slot. -/
  | redo (partition job segment : Nat)
  /-- RESTORE_BEGIN (R376): A segment enters RESTORING for a replica restore. -/
  | restoreBegin (partition job segment : Nat)
  /-- RESTORE_END (R376): A restored segment emits its copy, clears its accumulators and computes its digest. -/
  | restoreEnd (partition job segment : Nat)
  /-- DIGEST (R378): An engine returns the state digest of a segment's slot. -/
  | digest (partition job segment : Nat) (slot : Bool)
  /-- REEMIT (R376): An engine emits the BF16 copy again from the current master. -/
  | reemit (partition job segment : Nat)
  /-- SERDEN_POWER_GATE (R342): An engine's update and schedule units power-gate after 1 ms idle. -/
  | serdenPowerGate (engine : Nat)
  /-- COMMIT_COUNT_REACHED (R506): At COMMIT_COUNT every engine applies the step outcome and the step counter advances
  on COMMIT. -/
  | commitCountReached (partition job : Nat)
  /-- STEP_CURTAIN_RELEASE (R507): Once the outcome is applied and repairs proven, the next step curtain count is
  released. -/
  | stepCurtainRelease (partition job : Nat)
  /-- FRAME_ACQUIRED (R389): A waiting queue use acquires the lowest free frame area. -/
  | frameAcquired (partition job queue : Nat) (grad : Bool) (micro : Nat)
  /-- COUNT (R398): A COUNT message arrives at the expert side. -/
  | count (link : Nat) (h0 h1 : W64) (data : List Byte)
  /-- GRANT (R399): A GRANT arrives and the token side writes route records and sends kept rows. -/
  | grant (link : Nat) (h0 h1 : W64) (data : List Byte)
  /-- DISPATCH_ROW (R400): A dispatched row and its tag are written into its slot. -/
  | dispatchRow (link : Nat) (h0 h1 : W64) (data : List Byte)
  /-- COMBINE_ROW (R403): A combine row is written at the token side. -/
  | combineRow (link : Nat) (h0 h1 : W64) (data : List Byte)
  /-- GRAD_REQUEST (R404): The expert side is asked for gradient readiness. -/
  | gradRequest (link : Nat) (h0 h1 : W64)
  /-- GRAD_READY (R404): The token side sends gradient rows for kept choices. -/
  | gradReady (link : Nat) (h0 h1 : W64)
  /-- GRAD_ROW (R404): A gradient row is written into the gradient area. -/
  | gradRow (link : Nat) (h0 h1 : W64) (data : List Byte)
  /-- RETURN_ROW (R405): A returned input-gradient row is written at the token side. -/
  | returnRow (link : Nat) (h0 h1 : W64) (data : List Byte)
  /-- LINK_TRAIN_STAGE_DONE (R426): A link training stage completes and the next stage or STANDBY follows. -/
  | linkTrainStageDone (link pair : Nat)
  /-- LINK_TRAIN_TIMEOUT (R427): A training stage times out and the attempt fails, or after four attempts the link
  FAILS. -/
  | linkTrainTimeout (link : Nat)
  /-- LINK_TRAIN_RETRY_END (R427): The 10 ms after a failed attempt ends and training restarts at stage 1. -/
  | linkTrainRetryEnd (link : Nat)
  /-- IDENTITY_FLIT (R428): The peer's identity flit is checked against the expected seat and link. -/
  | identityFlit (link seat peer mode : Nat) (narrow forward : Bool) (pair : Nat)
  /-- ETHERNET_LINK_UP (R429): The MAC reports link up and the Ethernet-mode link becomes ACTIVE. -/
  | ethernetLinkUp (link : Nat)
  /-- FLIT_RECEIVE (R431): A flit arrives; acknowledgements and credits are taken and DATA flits accepted or NAKed. -/
  | flitReceive (link : Nat) (words : List W64)
  /-- NAK_REPEAT (R431): The NAK is repeated every 1 µs while a gap lasts. -/
  | nakRepeat (link : Nat)
  /-- READ (R448): A memory READ request is checked at the target and answered. -/
  | read (link : Nat) (h0 h1 : W64)
  /-- WRITE (R449): A memory WRITE is applied and acknowledged. -/
  | write (link : Nat) (h0 h1 : W64) (data : List Byte)
  /-- ATOMIC_PACKET (R441): A fabric atomic is applied at the target lane and acknowledged. -/
  | atomicPacket (link : Nat) (h0 h1 : W64) (count : Nat) (data : List Byte)
  /-- CHAN_WRITE (R449): A tile-channel entry part is written at the consumer and acknowledged. -/
  | chanWrite (link : Nat) (h0 h1 : W64) (data : List Byte)
  /-- READ_DATA (R437): Read data returns to the requester. -/
  | readData (link : Nat) (h0 h1 : W64) (data : List Byte)
  /-- WRITE_ACK (R449): A write acknowledgement returns. -/
  | writeAck (link : Nat) (h0 h1 : W64)
  /-- ATOMIC_ACK (R449): An atomic acknowledgement returns. -/
  | atomicAck (link : Nat) (h0 h1 : W64)
  /-- ATOMIC_DATA (R449): Atomic old values return. -/
  | atomicData (link : Nat) (h0 h1 : W64) (data : List Byte)
  /-- CHAN_ACK (R449): A channel entry part is acknowledged. -/
  | chanAck (link : Nat) (h0 h1 : W64)
  /-- CHAN_CREDIT (R289): A remote channel credit returns to the producer. -/
  | chanCredit (link : Nat) (h0 h1 : W64)
  /-- SYNC_REQ (R131): A reference answers a sync request with SYNC_RESP. -/
  | syncReq (link seat : Nat) (t1 t2 t3 : W64)
  /-- SYNC_RESP (R126): A sync exchange completes and steers the counter and sync state. -/
  | syncResp (link seat : Nat) (t1 t2 t3 t4 : W64)
  /-- HEARTBEAT (R456): A peer heartbeat arrives with its count and reach. -/
  | heartbeat (link seat : Nat) (count reach : W64)
  /-- HEARTBEAT_TIMER (R455): Every 2 ms the fabric agent sends heartbeats. -/
  | heartbeatTimer
  /-- HEARTBEAT_MISS_TIMEOUT (R455): Three heartbeats are missed; the peer is dead and its links go DOWN. -/
  | heartbeatMissTimeout (seat : Nat)
  /-- RESOLVE (R447): A target agent resolves a region key and replies. -/
  | resolve (link member key : Nat)
  /-- RESOLVE_REPLY (R447): A region's base, size and permissions arrive at the requester. -/
  | resolveReply (link member key base size perm : Nat)
  /-- HANDOVER (R469): The sender resends packets after the last delivered SEQ over new routes. -/
  | handover (link seq : Nat)
  /-- SWITCH_PROPOSE (R471): A peer proposes a route switch count. -/
  | switchPropose (link : Nat) (count : W64)
  /-- SWITCH_AGREE (R471): A route switch is agreed and the next table is prepared. -/
  | switchAgree (link : Nat) (count : W64)
  /-- CHANNEL_DECLARE (R306): Remote channel declarations are compared at run start. -/
  | channelDeclare (link : Nat) (declared : Declared)
  /-- ADVICE (R416): Load sums or advice records are exchanged among agents. -/
  | advice (link : Nat) (words : List W64)
  /-- REPORT (R44): A report or fabric-manager message is relayed on VL4. -/
  | report (link : Nat) (message : Relay)
  /-- DEAD_TARGET_CHECK (R453): Every 100 µs outstanding requests are checked against DEAD_TARGET_MS. -/
  | deadTargetCheck
  /-- LANE_LOSS_OF_LOCK (R468): A lane loses signal or lock; the link narrows or fails. -/
  | laneLossOfLock (link lane : Nat)
  /-- ACK_PROGRESS_TIMEOUT (R468): No acknowledgement progress for 10 µs fails the link. -/
  | ackProgressTimeout (link : Nat)
  /-- HANDOVER_TIMEOUT (R469): No HANDOVER arrives in 500 µs and the retry buffer is abandoned. -/
  | handoverTimeout (link : Nat)
  /-- NARROWING_DONE (R470): A narrowed link resumes on its healthy lane pair. -/
  | narrowingDone (link : Nat)
  /-- NARROWING_TIMEOUT (R470): Retraining does not end in 100 µs and the link fails. -/
  | narrowingTimeout (link : Nat)
  /-- ROUTE_SWITCH_COUNT (R471): At the switch count the prepared route table takes effect and links become ACTIVE. -/
  | routeSwitchCount
  /-- SWITCH_REPROPOSE_TIMER (R471): After failed agreement agents propose again every second. -/
  | switchReproposeTimer (link : Nat)
  /-- LINK_SATURATION_TIMEOUT (R438): A virtual lane has waited SATURATION_WINDOW_US and a link-saturation event is
  raised. -/
  | linkSaturationTimeout (link vl : Nat)
  /-- DMT_DATA (R462): A DMT DATA segment is delivered in PSN order. -/
  | dmtData (link : Nat) (d0 d1 h0 h1 : W64) (data : List Byte) (ce : Bool)
  /-- DMT_ACK (R463): A DMT ACK frees segments and may trigger resends. -/
  | dmtAck (link : Nat) (d0 d1 d2 d3 : W64)
  /-- DMT_CNP (R464): A congestion notification lowers the flow's rate. -/
  | dmtCnp (partition seat cls flow : Nat)
  /-- DMT_ACK_TIMER (R462): An unacknowledged DATA packet is acknowledged within 10 µs. -/
  | dmtAckTimer (link seat cls flow : Nat)
  /-- DMT_RTO (R463): A segment unacknowledged for RTO is resent. -/
  | dmtRto (partition seat cls flow : Nat)
  /-- DMT_RATE_RECOVERY (R464): After 50 µs without a CNP the flow rate rises. -/
  | dmtRateRecovery (partition seat cls flow : Nat)
  /-- ETHERNET_CONTROL_FRAME (R458): ARP, neighbour discovery or echo is answered, and other frames are discarded. -/
  | ethernetControlFrame (link kind : Nat)
  /-- COLL_EXPONENT (R491): An exponent message combines by maximum. -/
  | collExponent (link : Nat) (h0 h1 : W64) (data : List Byte)
  /-- COLL_VALUE (R491): A value message combines DX32 words. -/
  | collValue (link : Nat) (h0 h1 : W64) (data : List Byte)
  /-- COLL_PARTIAL (R487): A tree partial combines at its parent. -/
  | collPartial (link : Nat) (h0 h1 : W64) (data : List Byte)
  /-- COLL_DATA (R498): Collective or repair data lands at its destination. -/
  | collData (link : Nat) (h0 h1 : W64) (data : List Byte)
  /-- COLL_VOTE (R502): A child's vote record combines at its parent. -/
  | collVote (link : Nat) (h0 h1 : W64) (data : List Byte)
  /-- COLL_DECISION (R503): A decision arrives and is passed on to children. -/
  | collDecision (link : Nat) (h0 h1 : W64) (data : List Byte)
  /-- COLL_DECISION_ACK (R503): The deputy's acknowledgement makes the decision. -/
  | collDecisionAck (link : Nat) (h0 h1 : W64)
  /-- COLL_QUERY (R504): A rank answers a decision query. -/
  | collQuery (link : Nat) (h0 h1 : W64)
  /-- COLL_DIGEST (R512): A replica's digest is compared to prove a repair. -/
  | collDigest (link : Nat) (h0 h1 : W64) (data : List Byte)
  /-- COLL_DONE (R488): A DONE counts towards reading the atomic scratch shard. -/
  | collDone (link : Nat) (h0 h1 : W64)
  /-- COLL_REQUEST (R510): A replica answers a repair request with its state. -/
  | collRequest (link : Nat) (h0 h1 : W64) (data : List Byte)
  /-- VOTE_TIMEOUT (R502): VOTE_TIMEOUT_US expires; missing subtrees count as missing and the record is sent. -/
  | voteTimeout (partition job : Nat)
  /-- DECISION_QUERY_TIMEOUT (R504): A module without a decision queries rank 0 then rank 1. -/
  | decisionQueryTimeout (partition job : Nat)
  /-- PERMUTE_ROUND_END (R519): Every send of a permute round is accepted and the next round starts. -/
  | permuteRoundEnd (partition job cdesc : Nat)
  /-- ERROR_DETECTED (R529): A unit check fails; the unit holds and its targeted self-test starts. -/
  | errorDetected (unit : TestUnit) (cls : ErrClass) (tile : Nat)
  /-- SELF_TEST_COMPLETE (R531): A targeted self-test ends and the fault is classified transient or lasting. -/
  | selfTestComplete (unit : TestUnit) (passed : Bool)
  /-- SPARE_TAKES_POSITION (R537): After the copy the spare takes the position and held instructions replay. -/
  | spareTakesPosition (position heldUs : Nat) (lost : List Nat) (spareFails : Bool)
  /-- UNIT_RETEST_TIMER (R544): Every 600 s firmware retests units out of service or suspect. -/
  | unitRetestTimer
  /-- UNIT_REJOIN (R544): A passing unit rejoins at its epoch boundary. -/
  | unitRejoin (unit : TestUnit)
  /-- POWER_SAMPLE (R553): A 10 µs power sample drives the peak guard. -/
  | powerSample (watts : Nat)
  /-- GOVERNOR_TICK (R551): Every 1 ms the pacing target is computed and shares set. -/
  | governorTick (fixedMw : Nat) (seen : List PhaseSeen)
  /-- SHARE_WATCHDOG_TIMEOUT (R557): Firmware misses a share write for 10 ms and every share becomes 32/64. -/
  | shareWatchdogTimeout
  /-- OP_DECISION (R560): Every 100 ms the governor moves the operating point by at most one index. -/
  | opDecision (predicted pause : Nat)
  /-- DROOP_DETECT (R561): A cluster rail droops 40 mV and a droop hold is applied. -/
  | droopDetect (cluster belowMv cycles : Nat)
  /-- THERMAL_SENSOR_UPDATE (R562): Sensor readings refresh and thermal and stack states change. -/
  | thermalSensorUpdate (readings : List Nat) (pause : Nat)
  /-- HOT_THROTTLE_TIMER (R562): Every 10 ms in HOT the governor lowers the operating point or shares. -/
  | hotThrottleTimer (pause : Nat)
  /-- I3C_DYNAMIC_ADDRESS (R570): ENTDAA or SETDASA makes the management port an I3C target. -/
  | i3cDynamicAddress (address : Nat)
  /-- SET_ENDPOINT_ID (R570): The bus owner sets the module's MCTP EID. -/
  | setEndpointId (endpoint eid : Nat)
  /-- GET_ENDPOINT_ID (R570): The module returns its EID. -/
  | getEndpointId (endpoint : Nat)
  /-- GET_ENDPOINT_UUID (R570): The module returns its endpoint UUID. -/
  | getEndpointUuid (endpoint : Nat)
  /-- GET_MCTP_VERSION_SUPPORT (R570): The module returns supported MCTP versions. -/
  | getMctpVersionSupport (endpoint type : Nat)
  /-- GET_MESSAGE_TYPE_SUPPORT (R570): The module returns supported message types. -/
  | getMessageTypeSupport (endpoint : Nat)
  /-- PLDM_BASE_DISCOVERY (R570): A PLDM Type 0 discovery request is answered. -/
  | pldmBaseDiscovery (endpoint : Nat) (request : PldmBase)
  /-- GET_SENSOR_READING (R573): A PLDM Type 2 sensor is read. -/
  | getSensorReading (endpoint sensor : Nat) (analogue : Int)
  /-- SET_EVENT_RECEIVER (R575): The management event receiver is set. -/
  | setEventReceiver (endpoint receiver : Nat)
  /-- POLL_FOR_PLATFORM_EVENT_MESSAGE (R575): The receiver takes a queued management event. -/
  | pollForPlatformEventMessage (endpoint : Nat)
  /-- PLATFORM_EVENT_ACK (R575): A sent event is acknowledged and the next one is sent. -/
  | platformEventAck (endpoint : Nat)
  /-- EVENT_RESEND_TIMER (R575): An unacknowledged event message is resent after 100 ms. -/
  | eventResendTimer
  /-- TELEMETRY_REFRESH (R577): Firmware fills the unpublished mirror half and publishes it. -/
  | telemetryRefresh (millivolt milliamp : Int)
  /-- EVENT_LOG_ARCHIVE (R100): Firmware copies new event log entries to flash. -/
  | eventLogArchive
  /-- SPDM_REQUEST (R579): The security core answers an SPDM request. -/
  | spdmRequest (endpoint : Nat) (doe : Bool) (request : SpdmReq)
  /-- QUERY_DEVICE_IDENTIFIERS (R589): The module returns its identifiers. -/
  | queryDeviceIdentifiers (endpoint : Nat)
  /-- GET_FIRMWARE_PARAMETERS (R589): The module returns its component parameters. -/
  | getFirmwareParameters (endpoint : Nat)
  /-- REQUEST_UPDATE (R588): An update session opens or is refused. -/
  | requestUpdate (endpoint : Nat) (fw bp : Bool) (maxTransfer : Nat)
  /-- PASS_COMPONENT_TABLE (R589): Components below their floor are refused. -/
  | passComponentTable (endpoint component stamp : Nat)
  /-- UPDATE_COMPONENT (R589): The target slot is erased and the download starts. -/
  | updateComponent (endpoint component stamp size : Nat)
  /-- FIRMWARE_DATA (R590): Downloaded image data is written to the target slot and hashed. -/
  | firmwareData (endpoint : Nat) (data : List W64)
  /-- IMAGE_VERIFY (R590): The downloaded image is read back and verified. -/
  | imageVerify (endpoint component : Nat)
  /-- ACTIVATE_FIRMWARE (R592): A header naming the trial slots is written and the stage becomes TRIAL. -/
  | activateFirmware (endpoint : Nat)
  /-- GET_STATUS (R589): The update status is returned. -/
  | getStatus (endpoint : Nat)
  /-- CANCEL_UPDATE_COMPONENT (R589): The component update is cancelled. -/
  | cancelUpdateComponent (endpoint : Nat)
  /-- CANCEL_UPDATE (R588): The session is cancelled. -/
  | cancelUpdate (endpoint : Nat)
  /-- UPDATE_INACTIVITY_TIMEOUT (R588): No request for 60 s cancels the session. -/
  | updateInactivityTimeout
  /-- GET_UPDATE_STATE (R584): The journal entry and header copies are returned. -/
  | getUpdateState (endpoint : Nat)
  /-- CONFIRM_UPDATE (R593): A trial is confirmed, floors raised and revocations applied. -/
  | confirmUpdate (endpoint : Nat)
  /-- ROLLBACK_UPDATE (R594): A trial is rolled back and the module is reset. -/
  | rollbackUpdate (endpoint : Nat)
  /-- PROGRAM_KEY_SLOT (R584): A hash is programmed into an unprogrammed owner key slot. -/
  | programKeySlot (endpoint slot : Nat) (hash : Digest)
  /-- REVOKE_KEY_SLOT (R584): An owner key slot's revoke bit is set, or refused. -/
  | revokeKeySlot (endpoint slot : Nat)
  /-- TRIAL_DEADLINE_CHECK (R594): Every second firmware checks the 30 min trial deadline and warns or rolls back. -/
  | trialDeadlineCheck
  /-- BYPASS (R615): The TAP selects the bypass register. -/
  | bypass
  /-- IDCODE (R615): The TAP returns the IDCODE. -/
  | idcode
  /-- SAMPLE_PRELOAD (R615): The TAP samples or preloads boundary cells. -/
  | samplePreload (cells : List Bool)
  /-- EXTEST (R615): Boundary cells drive pins in the shelf state, otherwise it acts as BYPASS. -/
  | extest (cells : List Bool)
  /-- CLAMP (R615): Pins are clamped in the shelf state, otherwise it acts as BYPASS. -/
  | clamp
  /-- HIGHZ (R615): Pins float in the shelf state, otherwise it acts as BYPASS. -/
  | highz
  /-- REGION_RESOLVE_TIMEOUT (R447): No region answers a RESOLVE within 1 ms; the START_JOB completes INVALID_FIELD
  and region-resolve-failed is raised. -/
  | regionResolveTimeout (partition job : Nat)
  /-- FABRIC_MANAGER_MESSAGE (R44): A DMT packet of TYPE 3 AGENT, CLASS 4 and FLOW 0xFF_FFFF from the fabric manager
  arrives; its order enters the 0x40 slot or its settings apply, or it is discarded and counted when 0x40 has no
  entry. -/
  | fabricManagerMessage (link : Nat) (message : FmPacket)
  /-- ETHERNET_LINK_DOWN (R461): The MAC of an ACTIVE Ethernet-mode link reports link down; the link leaves the DMT
  flows, which rebind, and a new attempt is made. -/
  | ethernetLinkDown (link : Nat)
  /-- WAKE_AFTER_POWER_DOWN (R83): 100 ms after the last rail is off, following a power-down during which PWR_EN was
  asserted again, a new wake sequence starts. -/
  | wakeAfterPowerDown
  /-- ORDER_RESERVED_KIND (R184): An order word with a reserved KIND reaches the order arbiter and completes INVALID.
  -/
  | orderReservedKind (mid : Nat) (word : W64) (last : Bool)
  /-- DOE_DISCOVERY (R144): A DOE discovery request on a host port's DOE mailbox is answered. -/
  | doeDiscovery (port index : Nat)
  /-- TRST_N_ASSERT (R605): TRST_N is asserted and the IEEE 1149.1 TAP is reset. -/
  | trstNAssert
  /-- RETENTION_VOLTAGE_DIP (R104): With the input absent, the backup cell runs down and the always-on domain dips
  below 0.58 V, which breaks the retention canary and invalidates the always-on contents. -/
  | retentionVoltageDip (toZero : Bool)
deriving DecidableEq, Repr

end Sys2Proof
end

