-- ==== Sys2Proof/Decode.lean ====
section
/-! DEFINITION. Decode.lean: the commands that words spell. Every row of the opcode table has an empty list of bits: the
commands are writes, timers, signals and messages, none of them spelt by a word of the table. -/
namespace Sys2Proof

/-- The command that a word of `nbits` bits spells by the opcode table's bits: none, since no row of the table has bits. -/
def decodeTableWord (nbits w : Nat) : Option Instr :=
  match nbits, w with
  | _, _ => none

end Sys2Proof
end

