-- ==== Sys2Proof/Config.lean ====
section
/-! DEFINITION. Config.lean: what one module fuses or the spec leaves open, as opaque constants: nothing in Lean can
evaluate them, so a claim holds whatever they are. Named in notes/assumptions. -/
namespace Sys2Proof.Config

/-- SHA-384 of the bytes of 64-bit words, little-endian (R35, R70, R90): FIPS 180, named and not written out by the spec. -/
opaque sha384 : List W64 → Digest

/-- ECDSA P-384 verification of a signature (12 words r, s) by a key (12 words x, y) over a digest (R35, R582). -/
opaque ecdsaVerify : List W64 → Digest → List W64 → Bool

/-- Signatures and key exchange of the security core (R578, R579): an answer to a request, as words. -/
opaque spdmSign : List W64 → List W64

/-- The 384-bit device secret fused at manufacture gives the identity key (R578); certificates chain in the factory area. -/
opaque certChain : List W64

/-- SHA-384 of the boot ROM, fused at manufacture (R90). -/
opaque romDigest : Digest

/-- The module's endpoint UUID (R570) and serial number (R578, R589). -/
opaque endpointUuid : BitVec 128
/-- The module serial number (R589). -/
opaque serialNumber : W64

/-- True on F grade, false on E grade (R1, R6): fused, the same after every reset. -/
opaque gradeF : Bool

/-- Which result within the error bound of Table 6.7 a function of VEC FUNC 0x10 to 0x19 gives (R225, R279): the same bits for the same input
on every module. The arguments are FUNC and the FP32 encoding. -/
opaque vecFn : Nat → Nat → W32

/-- GELU erf form (1), GELU tanh form (2) and SiLU (3) of minus infinity (R224): no result is stated. -/
opaque activation : Nat → Nat → W32

/-- The clip scale of a CLIP_MAX that is a NaN, which R360 does not state, for its encoding and NORM's. -/
opaque clipOfNan : Nat → Nat → W32

/-- The FP32 value that a DX32 element stands for where no rule places its shared exponent byte (R252), for its 32-bit word. -/
opaque dx32Value : Nat → W32

/-- The word that a conversion into DX32 stores, which no rule states (R242), for the FP32 encoding of the value. -/
opaque dx32Word : Nat → W32

/-- Where the 2:4 metadata of an MX operand lies: AUX_OFFSET (R266) names its scale array or its metadata, and no rule says
where the other lies. The offset from the scale array's start, for a scale array of that many bytes. -/
opaque mxMetaOffset : Nat → Nat

/-- The words of the Wilmin factory area of the configuration flash (R27), by flash offset: calibration and start-up self-test patterns,
read-only, whose contents the spec does not give. -/
opaque factoryWord : Nat → W64

/-- Credits of a bridge class (R292) beyond the first: the number is not given. -/
opaque bridgeDepth : Nat → Nat
/-- Credits of a channel queue beyond the first (R293). -/
opaque addQueueDepth : Nat

/-- Bytes that the spec leaves open, by a free value and a place. -/
opaque freeByte : Nat → Nat → Byte

/-- Free values: the n-th value the spec leaves open that the machine meets. -/
opaque freeValue : Nat → W64

end Sys2Proof.Config
end

