-- ==== Sys2Proof/Machine/Bits.lean ====
section
/-! DEFINITION. Machine/Bits.lean: bit fields, byte order (R9), saturating counts and list access. -/
namespace Sys2Proof.Machine

/-- Field [hi:lo] of a natural number, bit 0 least significant (00_scope.md, "Units and numbers"). -/
def bits (w hi lo : Nat) : Nat := (w >>> lo) % 2 ^ (hi + 1 - lo)

/-- Field [hi:lo] of a 64-bit word. -/
def fld (w : W64) (hi lo : Nat) : Nat := bits w.toNat hi lo

/-- Bit `i` of a number as a flag. -/
def bit (w i : Nat) : Bool := w.testBit i

/-- A flag as a number. -/
def b2n (b : Bool) : Nat := if b then 1 else 0

/-- A register made up of fields (value, low bit, width); a value is cut to its width. -/
def packN : List (Nat × Nat × Nat) → Nat
  | [] => 0
  | (v, lo, w) :: r => ((v % 2 ^ w) <<< lo) ||| packN r

/-- A 64-bit register made up of fields (value, low bit, width). -/
def pack (l : List (Nat × Nat × Nat)) : W64 := BitVec.ofNat 64 (packN l)

/-- A saturating increment: counts stop at `m` (R95, R154, R157 and the other saturating counts). -/
def satInc (m n : Nat) : Nat := if n < m then n + 1 else m

/-- A saturating sum. -/
def satAdd (m a b : Nat) : Nat := min m (a + b)

/-- Little-endian bytes of a number (R9): `n` bytes, byte 0 first. -/
def leBytes : Nat → Nat → List Byte
  | 0, _ => []
  | n + 1, v => BitVec.ofNat 8 v :: leBytes n (v / 256)

/-- The number that little-endian bytes spell (R9). -/
def leNat : List Byte → Nat
  | [] => 0
  | b :: r => b.toNat + 256 * leNat r

/-- Bytes gathered into 64-bit words, little-endian; a last partial word is filled with zeros. -/
def toWords (bs : List Byte) : List W64 := go bs.length bs
where
  /-- `fuel` bounds the number of words. -/
  go : Nat → List Byte → List W64
    | _, [] => []
    | 0, _ => []
    | fuel + 1, b => BitVec.ofNat 64 (leNat (b.take 8)) :: go fuel (b.drop 8)

/-- The bytes of 64-bit words, little-endian. -/
def ofWords (ws : List W64) : List Byte := ws.flatMap fun w => leBytes 8 w.toNat

/-- The number of set bits among bits 0 to n - 1. -/
def popcount (w n : Nat) : Nat := ((List.range n).filter fun i => w.testBit i).length

/-- The indices of set bits among bits 0 to n - 1, ascending. -/
def setBits (w n : Nat) : List Nat := (List.range n).filter fun i => w.testBit i

/-- i32 read as an integer. -/
def i32 (w : Nat) : Int := (BitVec.ofNat 32 w).toInt

/-- Whether a list of numbers holds no number twice. -/
def distinct : List Nat → Bool
  | [] => true
  | a :: r => !(r.contains a) && distinct r

/-- Put `a` at place `i`, or leave the list as it is when it has no such place. -/
def setAt {α : Type} (l : List α) (i : Nat) (a : α) : List α := l.set i a

/-- Change the entry at place `i`. -/
def upd {α : Type} (l : List α) (i : Nat) (f : α → α) : List α := l.modify i f

/-- mix of R378, on 64 bits: products wrap. -/
def mix (z : Nat) : Nat :=
  let z := z % 2 ^ 64
  let z := (z ^^^ (z >>> 30)) * 0xbf58476d1ce4e5b9 % 2 ^ 64
  let z := (z ^^^ (z >>> 27)) * 0x94d049bb133111eb % 2 ^ 64
  z ^^^ (z >>> 31)

/-- The value of key `k` in a list of pairs; absent, 0. -/
def lookup0 (k : Nat) (l : List (Nat × Nat)) : Nat := match l.find? fun p => p.1 == k with
  | some p => p.2
  | none => 0

/-- Set key `k` in a list of pairs; 0 takes it out. -/
def assign0 (k v : Nat) (l : List (Nat × Nat)) : List (Nat × Nat) :=
  let r := l.filter fun p => p.1 != k
  if v == 0 then r else (k, v) :: r

end Sys2Proof.Machine
end

