-- ==== Sys2Proof/Machine/Fixed.lean ====
section
/-! DEFINITION. Machine/Fixed.lean: the real functions behind the vector unit and the epilogue (06 R224, R225), computed in fixed point with
far more bits than FP32 has: a value v stands for v / 2^640, and each result is within 2^-600 of the real one. -/
namespace Sys2Proof.Machine

/-- Fraction bits. -/
def fracBits : Nat := 640
/-- 1. -/
def fxOne : Nat := 2 ^ 640
/-- The quotient of two fixed-point values. -/
def fxDiv (a b : Nat) : Nat := (a * fxOne) / b

/-- floor of the square root of `n`, bit by bit from bit k - 1 down; `r` holds the bits found. -/
def isqrt (n : Nat) : Nat → Nat → Nat
  | 0, r => r
  | k + 1, r => let t := r + 2 ^ k; isqrt n k (if t * t ≤ n then t else r)

/-- acc + t z / k + t z^2 / (k (k + 1)) + ...: the series of e^z. -/
def expSum (z : Nat) : Nat → Nat → Nat → Nat → Nat
  | 0, _, _, acc => acc
  | n + 1, k, t, acc => let t := (t * z) >>> fracBits; let t := t / k; expSum z n (k + 1) t (acc + t)

/-- `n` squarings. -/
def fxSquares : Nat → Nat → Nat
  | 0, v => v
  | n + 1, v => fxSquares n ((v * v) >>> fracBits)

/-- e^y for y from 0 up; above 300 as at 300. -/
def fxExp (y : Nat) : Nat := fxSquares 12 (expSum (min y (300 * fxOne) >>> 12) 120 1 fxOne fxOne)

/-- e^y; below -300 as 0. -/
def fxExpInt (y : Int) : Nat :=
  if 0 ≤ y then fxExp y.natAbs else if 300 * fxOne < y.natAbs then 0 else fxDiv fxOne (fxExp y.natAbs)

/-- acc + p / k + p q / (k + 2) + ...: the series of the inverse hyperbolic tangent. -/
def atanhSum (q : Nat) : Nat → Nat → Nat → Nat → Nat
  | 0, _, _, acc => acc
  | n + 1, k, p, acc => atanhSum q n (k + 2) ((p * q) >>> fracBits) (acc + p / k)

/-- ln ((1 + t) / (1 - t)) for t up to 1/3. -/
def fxLnRatio (t : Nat) : Nat := 2 * atanhSum ((t * t) >>> fracBits) 210 1 t 0

/-- ln 2. -/
def lnTwo : Nat := fxLnRatio (fxOne / 3)

/-- ln (m 2^e) for m above 0. -/
def fxLn (m : Nat) (e : Int) : Int :=
  let b := 2 ^ m.log2
  (fxLnRatio (fxDiv (m - b) (m + b)) : Int) + (e + m.log2) * lnTwo

/-- acc ± p / k ∓ p / (n^2 (k + 2)) ...: the series of arctan (1 / n). -/
def atanSum (n : Nat) : Nat → Nat → Nat → Bool → Int → Int
  | 0, _, _, _, acc => acc
  | f + 1, k, p, neg, acc => atanSum n f (k + 2) (p / (n * n)) (!neg) (if neg then acc - (p / k : Nat) else acc + (p / k : Nat))

/-- pi, by Machin's formula. -/
def fxPi : Nat := (16 * atanSum 5 290 1 (fxOne / 5) false 0 - 4 * atanSum 239 90 1 (fxOne / 239) false 0).toNat

/-- The square root of a quotient a / b. -/
def fxRootDiv (a b : Nat) : Nat := isqrt (a * fxOne ^ 2 / b) 700 0

/-- acc + t 2z^2 / k + ...: the series of erf without its factor. -/
def erfSum (zz : Nat) : Nat → Nat → Nat → Nat → Nat
  | 0, _, _, acc => acc
  | n + 1, k, t, acc => let t := ((t * zz) >>> (fracBits - 1)) / k; erfSum zz n (k + 2) t (acc + t)

/-- erf z for z from 0 up: (2 / sqrt pi) e^(-z^2) (z + 2 z^3 / 3 + 4 z^5 / 15 + ...); from 16 on just below 1. -/
def fxErf (z : Nat) : Nat :=
  if 16 * fxOne ≤ z then fxOne - 1
  else
    let zz := (z * z) >>> fracBits
    fxDiv ((erfSum zz 1000 3 z z * fxRootDiv (4 * fxOne) fxPi) >>> fracBits) (fxExp zz)

/-- 1 / (1 + e^-y). -/
def fxSigmoid (y : Int) : Nat :=
  if 300 * fxOne < y.natAbs then (if y < 0 then 0 else fxOne - 1)
  else
    let q := fxExpInt y
    fxDiv q (fxOne + q)

/-- tanh z for z from 0 up. -/
def fxTanh (z : Nat) : Nat :=
  if 150 * fxOne ≤ z then fxOne - 1
  else
    let q := fxExp (2 * z)
    fxDiv (q - fxOne) (q + fxOne)

/-- The factor of x in an activation of x (R224): 1 the GELU with erf, (1 + erf (x / sqrt 2)) / 2; 2 the GELU with tanh,
(1 + tanh (sqrt (2 / pi) (x + 0.044715 x^3))) / 2; else SiLU, 1 / (1 + e^-x). PRESUMED: the spec names these functions and leaves their
formulas to general knowledge (log 61). -/
def actFactor (kind : Nat) (x : Int) : Nat :=
  let z := x.natAbs
  match kind with
  | 1 =>
    let q := fxErf ((z * fxRootDiv fxOne (2 * fxOne)) >>> fracBits)
    if x < 0 then (fxOne - q) / 2 else (fxOne + q) / 2
  | 2 =>
    if 64 * fxOne ≤ z then (if x < 0 then 0 else fxOne - 1)
    else
      let u := z + z * z * z / fxOne ^ 2 * 44715 / 1000000
      let v : Int := ((2 * u * fxRootDiv (2 * fxOne) fxPi) >>> fracBits : Nat)
      fxSigmoid (if x < 0 then -v else v)
  | _ => fxSigmoid x

end Sys2Proof.Machine
end

