-- ==== Sys2Proof/Machine/Formats.lean ====
section
/-! DEFINITION. Machine/Formats.lean: number formats, exact arithmetic with one rounding, conversion, and the dice stream
(07_number_formats.md). -/
namespace Sys2Proof.Machine

/-- A value before rounding: NaN, an infinity, or (-1)^neg * mag * 2^exp exactly. -/
inductive Val where
  | nan
  | inf (neg : Bool)
  | fin (neg : Bool) (mag : Nat) (exp : Int)
deriving DecidableEq, Repr

/-- A floating-point layout of Table 7.4: exponent bits, mantissa bits, bias, whether the all-ones exponent holds infinity
and NaN, the encoding of the largest finite magnitude, and the canonical NaN (R232, R234). -/
structure Layout where
  ebits : Nat
  mbits : Nat
  bias : Nat
  ieee : Bool
  maxCode : Nat
  nan : Nat
deriving DecidableEq, Repr

/-- FP32 (Table 7.4). -/
def lF32 : Layout := ⟨8, 23, 127, true, 0x7F7FFFFF, 0x7FC00000⟩
/-- BF16. -/
def lBf16 : Layout := ⟨8, 7, 127, true, 0x7F7F, 0x7FC0⟩
/-- FP16. -/
def lF16 : Layout := ⟨5, 10, 15, true, 0x7BFF, 0x7E00⟩
/-- FP8 E4M3: NaN is 0x7F and 0xFF only, and no infinity. -/
def lE4m3 : Layout := ⟨4, 3, 7, false, 0x7E, 0x7F⟩
/-- FP8 E5M2. -/
def lE5m2 : Layout := ⟨5, 2, 15, true, 0x7B, 0x7E⟩
/-- MX element E3M2. -/
def lE3m2 : Layout := ⟨3, 2, 3, false, 0x1F, 0⟩
/-- MX element E2M3. -/
def lE2m3 : Layout := ⟨2, 3, 1, false, 0x1F, 0⟩
/-- MX element E2M1. -/
def lE2m1 : Layout := ⟨2, 1, 1, false, 0x7, 0⟩

/-- The layout of a floating-point format code of Table 7.1; for an MX code, of its element. -/
def layoutOf : Nat → Option Layout
  | 0x0 => some lF32
  | 0x1 => some lBf16
  | 0x2 => some lF16
  | 0x3 => some lE4m3
  | 0x4 => some lE5m2
  | 0x5 => some lE4m3
  | 0x6 => some lE5m2
  | 0x7 => some lE3m2
  | 0x8 => some lE2m3
  | 0x9 => some lE2m1
  | _ => none

/-- Bits of one element of a format code (Table 7.1). -/
def elemBits : Nat → Nat
  | 0x0 => 32
  | 0x1 => 16
  | 0x2 => 16
  | 0x7 => 6
  | 0x8 => 6
  | 0x9 => 4
  | 0xB => 32
  | 0xC => 32
  | _ => 8

/-- An MX format: a scale byte for each 32 elements (Table 7.1). -/
def isMx (f : Nat) : Bool := 5 ≤ f && f ≤ 9

/-- The group of Table 7.2: 0 FP32, 1 16-bit, 2 8-bit, 3 MX 8-bit, 4 MX narrow, 5 integer. -/
def fmtGroup : Nat → Option Nat
  | 0x0 => some 0
  | 0x1 => some 1
  | 0x2 => some 1
  | 0x3 => some 2
  | 0x4 => some 2
  | 0x5 => some 3
  | 0x6 => some 3
  | 0x7 => some 4
  | 0x8 => some 4
  | 0x9 => some 4
  | 0xA => some 5
  | _ => none

/-- The packing p of a group (Table 7.2); FP32 takes one k a step. -/
def packing : Nat → Nat
  | 2 => 2
  | 3 => 2
  | 4 => 4
  | 5 => 2
  | _ => 1

/-- The K granule of Table 6.3; with a 2:4 structured B operand of any format 4, else 32 for the MX formats. -/
def kGranule (group : Nat) (sparse : Bool) : Nat :=
  if sparse then 4 else if group == 3 || group == 4 then 32 else if group == 2 || group == 5 then 2 else 1

/-- The value of an encoding (R232): subnormals as Table 7.4 gives them (R233), every NaN encoding a NaN (R234). -/
def Layout.decode (l : Layout) (w : Nat) : Val :=
  let m := w % 2 ^ l.mbits
  let e := (w >>> l.mbits) % 2 ^ l.ebits
  let neg := w.testBit (l.ebits + l.mbits)
  if l.ieee && e == 2 ^ l.ebits - 1 then (if m == 0 then .inf neg else .nan)
  else if l.nan != 0 && w % 2 ^ (l.ebits + l.mbits) == l.nan then .nan
  else if e == 0 then .fin neg m (1 - l.bias - l.mbits)
  else .fin neg (2 ^ l.mbits + m) ((e : Int) - l.bias - l.mbits)

/-- Two's complement of `n` bits. -/
def signed (n w : Nat) : Int := if w.testBit (n - 1) then (w % 2 ^ n : Nat) - (2 ^ n : Nat) else (w % 2 ^ n : Nat)

/-- An integer as a value; zero is +0 (R242). -/
def Val.ofInt (i : Int) : Val := .fin (i < 0) i.natAbs 0

/-- The value of an element without its shared scale: floating point by its layout, INT8 and INT32 as integers; of a DX32
element, whose exponent byte no rule places, a value left open. -/
def decodeElem (f w : Nat) : Val :=
  match layoutOf f with
  | some l => l.decode w
  | none => if f == 0xC then lF32.decode (Config.dx32Value w).toNat else if f == 0xA then Val.ofInt (signed 8 w) else Val.ofInt (signed 32 w)

/-- Exact product (R204, R235): zero times infinity is NaN. -/
def Val.mul : Val → Val → Val
  | .nan, _ => .nan
  | _, .nan => .nan
  | .inf a, .inf b => .inf (a != b)
  | .inf a, .fin b m _ => if m == 0 then .nan else .inf (a != b)
  | .fin b m _, .inf a => if m == 0 then .nan else .inf (a != b)
  | .fin a m e, .fin b n f => .fin (a != b) (m * n) (e + f)

/-- Exact multiplication by 2^k. -/
def Val.scale (k : Int) : Val → Val
  | .fin s m e => .fin s m (e + k)
  | v => v

/-- The opposite value. -/
def Val.neg : Val → Val
  | .nan => .nan
  | .inf a => .inf (!a)
  | .fin a m e => .fin (!a) m e

/-- Whether a value is zero. -/
def Val.isZero : Val → Bool
  | .fin _ m _ => m == 0
  | _ => false

/-- Whether a value is infinite or a NaN. -/
def Val.nonfinite : Val → Bool
  | .fin .. => false
  | _ => true

/-- Signed magnitude at exponent `e`, which is not above the value's own. -/
def Val.at (e : Int) : Val → Int
  | .fin s m f => let v : Int := (m * 2 ^ (f - e).toNat : Nat); if s then -v else v
  | _ => 0

/-- Exact sum of two values (R204, R235): infinity minus infinity is NaN; a zero sum is +0 unless both addends are -0. -/
def Val.add : Val → Val → Val
  | .nan, _ => .nan
  | _, .nan => .nan
  | .inf a, .inf b => if a == b then .inf a else .nan
  | .inf a, .fin .. => .inf a
  | .fin .., .inf a => .inf a
  | .fin a m e, .fin b n f =>
    let lo := min e f
    let t := (Val.fin a m e).at lo + (Val.fin b n f).at lo
    if t == 0 then .fin (a && b) 0 lo else .fin (t < 0) t.natAbs lo

/-- Exact sum of the products of a step (R236): for no addend at all +0. -/
def Val.sum : List Val → Val
  | [] => .fin false 0 0
  | [v] => v
  | v :: r => v.add (Val.sum r)

/-- Compare by value: `a` below `b`, infinities ordered, zeros equal; false with a NaN. -/
def Val.lt : Val → Val → Bool
  | .nan, _ => false
  | _, .nan => false
  | .inf a, .inf b => a && !b
  | .inf a, .fin .. => a
  | .fin .., .inf b => !b
  | .fin a m e, .fin b n f => let lo := min e f; (Val.fin a m e).at lo < (Val.fin b n f).at lo

/-- The number of places below `d` that a magnitude fills: floor(log2 (mag * 2^exp)), for mag above 0. -/
def floorLog2 (mag : Nat) (exp : Int) : Int := (Nat.log2 mag : Int) + exp

/-- Choose lo or hi of R242 for the magnitude mag * 2^exp on the grid of multiples of 2^q: the multiple chosen.
`round`: 0 RNE, 1 RTZ, 2 SR with the 16-bit draw `u`. -/
def roundGrid (mag : Nat) (exp q : Int) (round u : Nat) : Nat :=
  if q ≤ exp then mag * 2 ^ (exp - q).toNat
  else
    let d := 2 ^ (q - exp).toNat
    let lo := mag / d
    let r := mag % d
    if r == 0 then lo
    else match round with
    | 1 => lo
    | 2 => if u < r * 65536 / d then lo + 1 else lo
    | _ => if 2 * r < d then lo else if d < 2 * r then lo + 1 else lo + lo % 2

/-- The encoding of the magnitude that R242 chooses in a layout whose exponent range has no upper limit; the same code order
as magnitude order. -/
def Layout.roundCode (l : Layout) (mag : Nat) (exp : Int) (round u : Nat) : Nat :=
  if mag == 0 then 0
  else
    let qmin : Int := 1 - l.bias - l.mbits
    let q := max qmin (floorLog2 mag exp - l.mbits)
    (q - qmin).toNat * 2 ^ l.mbits + roundGrid mag exp q round u

/-- The sign bit of a layout. -/
def Layout.sign (l : Layout) (neg : Bool) : Nat := if neg then 2 ^ (l.ebits + l.mbits) else 0

/-- The infinity of a layout. -/
def Layout.infinity (l : Layout) (neg : Bool) : Nat := l.sign neg + (2 ^ l.ebits - 1) * 2 ^ l.mbits

/-- One rounding to nearest even into FP32 (R204, R235): overflow gives the infinity of its sign. -/
def toF32 : Val → Nat
  | .nan => lF32.nan
  | .inf s => lF32.infinity s
  | .fin s m e =>
    let c := lF32.roundCode m e 0 0
    if lF32.maxCode < c then lF32.infinity s else lF32.sign s + c

/-- An FP32 encoding as a value. -/
def ofF32 (w : Nat) : Val := lF32.decode w

/-- An FP32 value as a unit writes it: every NaN canonical (R234). -/
def canonF32 (w : Nat) : Nat := match ofF32 w with
  | .nan => lF32.nan
  | _ => w

/-- FP32 arithmetic (R235). -/
def f32Add (a b : Nat) : Nat := toF32 ((ofF32 a).add (ofF32 b))
/-- Difference. -/
def f32Sub (a b : Nat) : Nat := toF32 ((ofF32 a).add (ofF32 b).neg)
/-- Product. -/
def f32Mul (a b : Nat) : Nat := toF32 ((ofF32 a).mul (ofF32 b))
/-- Multiply-add with one rounding (Table 6.7). -/
def f32Fma (a b c : Nat) : Nat := toF32 (((ofF32 a).mul (ofF32 b)).add (ofF32 c))

/-- The sign of a value, for ordering -0 below +0. -/
def Val.isNeg : Val → Bool
  | .fin s _ _ => s
  | .inf s => s
  | .nan => false

/-- `a` orders below `b`, with -0 below +0 (R235). -/
def Val.below (a b : Val) : Bool := a.lt b || (a.isZero && b.isZero && a.isNeg && !b.isNeg)

/-- min (R235): a NaN operand gives the canonical NaN; -0 orders below +0. -/
def f32Min (a b : Nat) : Nat :=
  match ofF32 a, ofF32 b with
  | .nan, _ => lF32.nan
  | _, .nan => lF32.nan
  | x, y => if y.below x then b else a

/-- max (R235). -/
def f32Max (a b : Nat) : Nat :=
  match ofF32 a, ofF32 b with
  | .nan, _ => lF32.nan
  | _, .nan => lF32.nan
  | x, y => if x.below y then b else a

/-- Compare (Table 8.12): 1.0 where a is below b, otherwise +0; with a NaN operand the canonical NaN (R235). -/
def f32Lt (a b : Nat) : Nat :=
  match ofF32 a, ofF32 b with
  | .nan, _ => lF32.nan
  | _, .nan => lF32.nan
  | x, y => if x.lt y then 0x3F800000 else 0

/-- What a conversion gives: the encoding, and whether it counts in CONV_SAT or in NAN_TO_INT (R243). -/
structure Conv where
  code : Nat
  sat : Bool := false
  nanInt : Bool := false
deriving DecidableEq, Repr

/-- A bounded integer conversion (R242, R243): INT8 and INT32. -/
def convInt (n round u : Nat) : Val → Conv
  | .nan => { code := 0, nanInt := true }
  | .inf s => { code := if s then 2 ^ (n - 1) else 2 ^ (n - 1) - 1, sat := true }
  | .fin s m e =>
    let r := roundGrid m e 0 round u
    if s then
      if 2 ^ (n - 1) < r then { code := 2 ^ (n - 1), sat := true } else { code := (2 ^ n - r) % 2 ^ n }
    else if 2 ^ (n - 1) - 1 < r then { code := 2 ^ (n - 1) - 1, sat := true } else { code := r }

/-- Conversion of a value into a format code (R242, R243); an MX code converts an element, saturating. `u` is the dice draw
of R245. A conversion into DX32 stores a word left open. -/
def convert (f round u : Nat) (sat : Bool) (v : Val) : Conv :=
  match layoutOf f with
  | none => if f == 0xC then { code := (Config.dx32Word (toF32 v)).toNat } else if f == 0xA then convInt 8 round u v else convInt 32 round u v
  | some l =>
    match v with
    | .nan => { code := l.nan }
    | .inf s =>
      if l.ieee && !isMx f then { code := l.infinity s }
      else if sat || isMx f then { code := l.sign s + l.maxCode, sat := true }
      else { code := l.nan }
    | .fin s m e =>
      let round := if f == 0 then 0 else round    -- R244: conversions into FP32 round to nearest even
      let c := l.roundCode m e round u
      if c ≤ l.maxCode then { code := l.sign s + c }
      else if isMx f || sat || round == 1 then { code := l.sign s + l.maxCode, sat := true }
      else if l.ieee then { code := l.infinity s }
      else { code := l.nan, sat := true }

/-- emax of an MX element format (Table 7.6). -/
def emaxOf : Nat → Int
  | 0x5 => 8
  | 0x6 => 15
  | 0x7 => 4
  | _ => 2

/-- The larger of two magnitudes of finite values. -/
def maxMag (a b : Val) : Val :=
  match a, b with
  | .fin _ m e, .fin _ n f => if (Val.fin false m e).lt (.fin false n f) then .fin false n f else .fin false m e
  | x, _ => x

/-- Conversion of one block to an MX format (R241): the scale byte, the elements, and the conversions that saturated.
`us` gives the draw of each element. -/
def mxConvert (f round : Nat) (vs : List Val) (us : List Nat) : Nat × List Conv :=
  if vs.any Val.nonfinite then (0xFF, vs.map fun _ => { code := 0 })
  else
    let x : Nat := match vs.foldl maxMag (.fin false 0 0) with
      | .fin _ m e => if m == 0 then 0 else min 254 (floorLog2 m e - emaxOf f + 127).toNat
      | _ => 0
    let z := vs.all Val.isZero
    (x, vs.mapIdx fun i v => convert f round (us.getD i 0) true (if z then v else v.scale (127 - (x : Int))))

/-- An element of an MX block as a value (R238): 2^(X - 127) times it, a NaN when X is 0xFF. -/
def mxValue (x : Nat) (v : Val) : Val := if x == 0xFF then .nan else v.scale ((x : Int) - 127)

/-- a_hi of R247: the upper 16 bits of the FP32 encoding. -/
def f32Hi (w : Nat) : Val := lBf16.decode (w >>> 16)

/-- a_lo of R247: a - a_hi rounded to nearest even as BF16. -/
def f32Lo (w : Nat) : Val := lBf16.decode (convert 0x1 0 0 false ((ofF32 w).add (f32Hi w).neg)).code

/-- The step sum of one k of an FP32 operation (R247): three products summed exactly, or the IEEE product when an operand is
infinite or a NaN. -/
def threePass (a b : Nat) : Val :=
  if (ofF32 a).nonfinite || (ofF32 b).nonfinite then (ofF32 a).mul (ofF32 b)
  else Val.sum [(f32Hi a).mul (f32Hi b), (f32Hi a).mul (f32Lo b), (f32Lo a).mul (f32Hi b)]

/-- The i32 accumulation of R237: saturating. -/
def satI32 (v : Int) : Int := max (-2147483648) (min 2147483647 v)

/-- A participant's exponent byte for a block of FP32 encodings (R252). -/
def dxExponent (ws : List Nat) : Nat :=
  if ws.any fun w => (ofF32 w).nonfinite then 0xFF
  else ws.foldl (fun m w => max m (bits w 30 23)) 0

/-- E_s (R252). -/
def dxScale (e : Nat) : Nat := max e 1

/-- Encode an FP32 value as a DX32 word for the scale E_s (R252). -/
def dxEncode (es w : Nat) : Int :=
  match ofF32 w with
  | .fin s m e => let q : Int := (roundGrid m (e + 144 - es) 0 0 0 : Nat); if s then -q else q
  | _ => 0

/-- Decode an exact sum of DX32 words to FP32 (R252). -/
def dxDecode (es : Nat) (sum : Int) : Nat := toF32 ((Val.ofInt sum).scale ((es : Int) - 144))

/-- rotr of R255. -/
def rotr32 (v n : Nat) : Nat := ((v >>> n) ||| (v <<< (32 - n))) % 2 ^ 32
/-- rotl of R255. -/
def rotl32 (v n : Nat) : Nat := ((v <<< n) ||| (v >>> (32 - n))) % 2 ^ 32

/-- rc[] of R255: (r + 1) * 0x9E37_79B9 modulo 2^32. -/
def diceRc (r : Nat) : Nat := (r + 1) * 0x9E3779B9 % 2 ^ 32

/-- Eight rounds of R255 from round r on. -/
def diceRounds (k0 k1 : Nat) : Nat → Nat → Nat → Nat → Nat × Nat
  | 0, _, x, y => (x, y)
  | n + 1, r, x, y =>
    let rk := (if r % 2 == 0 then k0 else k1) ^^^ diceRc r
    let x := ((rotr32 x 8 + y) % 2 ^ 32) ^^^ rk
    let y := rotl32 y 12 ^^^ x
    diceRounds k0 k1 n (r + 1) x y

/-- The fields of a draw but its group (Table 7.10). -/
structure DiceKey where
  seed : W64
  step : W64
  purpose : Nat
  site : Nat
  layer : Nat
  tile : Nat
deriving DecidableEq, Repr

/-- The dice block of R255. -/
def dice (k : DiceKey) (group : Nat) : Nat :=
  let k0 := fld k.seed 31 0
  let k1 := fld k.seed 63 32 ^^^ fld k.step 31 0
  let y := (k.purpose % 4) <<< 30 ||| (k.site % 1024) <<< 20 ||| (k.layer % 1024) <<< 10 ||| k.tile % 1024
  let (x, y) := diceRounds k0 k1 8 0 (group % 2 ^ 32) y
  y <<< 32 ||| x

/-- The draw of an element (R256): 16 bits of the block of its group. -/
def draw (k : DiceKey) (e : Nat) : Nat := (dice k (e % 2 ^ 32 / 4) >>> (16 * (e % 4))) % 2 ^ 16

/-- The element index of R257. -/
def elemIndex (base r stride c : Nat) : Nat := (base + r * stride + c) % 2 ^ 32

/-- Dropout of one FP32 value (R258, R259): +0 below the threshold, else the value times SCALE. -/
def dropout (threshold scale u w : Nat) : Nat := if u < threshold then 0 else f32Mul w scale

/-- Equal as finite values. -/
def Val.eqv (a b : Val) : Bool := !a.nonfinite && !b.nonfinite && !a.lt b && !b.lt a

/-- An FP32 result within 1 ulp (Table 6.7) of an exact positive value: `lo` is the encoding at or below it. An inexact value
has two such neighbours, an exact one three; `pick` chooses. -/
def nearUlp (lo : Nat) (exact : Bool) (pick : Nat) : Nat := if exact then lo + pick % 3 - 1 else lo + pick % 2

/-- 1 / (m * 2^e) within 1 ulp (Table 6.7); above the FP32 range an infinity. -/
def recipF32 (m : Nat) (e : Int) (pick : Nat) : Nat :=
  let n := 64 + m.log2
  let lo := lF32.roundCode (2 ^ n / m) (-e - n) 1 0
  if lF32.maxCode < lo then lF32.infinity false
  else nearUlp lo (((lF32.decode lo).mul (.fin false m e)).eqv (.fin false 1 0)) pick

/-- sqrt (m * 2^e) within 1 ulp (Table 6.7). -/
def sqrtF32 (m : Nat) (e : Int) (pick : Nat) : Nat :=
  let (m', e') := if e % 2 == 0 then (m, e) else (2 * m, e - 1)
  let lo := lF32.roundCode (isqrt (m' * 2 ^ 64) 64 0) (e' / 2 - 32) 1 0
  let v := lF32.decode lo
  nearUlp lo ((v.mul v).eqv (.fin false m e)) pick

/-- 1 / sqrt (m * 2^e) within 1 ulp (Table 6.7). -/
def rsqrtF32 (m : Nat) (e : Int) (pick : Nat) : Nat :=
  let (m', e') := if e % 2 == 0 then (m, e) else (2 * m, e - 1)
  let lo := lF32.roundCode (isqrt (2 ^ 128 / m') 65 0) (-(e' / 2) - 64) 1 0
  let v := lF32.decode lo
  nearUlp lo (((v.mul v).mul (.fin false m e)).eqv (.fin false 1 0)) pick

/-- An FP32 result within 2 ulp (Table 6.7) of a fixed-point magnitude, which `exact` says it is exactly: `pick` chooses among the four
encodings around an inexact value, and the five around an exact one. -/
def nearTwoUlp (v : Nat) (exact : Bool) (pick : Nat) : Nat :=
  let lo := lF32.roundCode v (-fracBits) 1 0
  min (lF32.infinity false) (if lF32.maxCode < lo then lo else if exact then lo + pick % 5 - 2 else lo + pick % 4 - 1)

/-- A signed fixed-point value within 2 ulp; zero is +0. -/
def nearTwoInt (v : Int) (exact : Bool) (pick : Nat) : Nat :=
  if v == 0 then 0 else lF32.sign (v < 0) + nearTwoUlp v.natAbs exact pick

/-- 2^x within 2 ulp; of an integer x it is exact. -/
def expTwo (x : Int) (pick : Nat) : Nat :=
  let k := x / fxOne
  if x % fxOne == 0 && k.natAbs < 300 then nearTwoUlp (if k < 0 then fxOne / 2 ^ k.natAbs else fxOne * 2 ^ k.natAbs) true pick
  else nearTwoUlp (fxExpInt (x * lnTwo / fxOne)) false pick

/-- log2 (m * 2^e) within 2 ulp; of a power of two it is exact. -/
def logTwo (m : Nat) (e : Int) (pick : Nat) : Nat :=
  if m == 2 ^ m.log2 then nearTwoInt ((e + m.log2) * fxOne) true pick else nearTwoInt (fxLn m e * fxOne / lnTwo) false pick

/-- Whether a function of a negative number is invalid (R235): the logarithms, rsqrt and sqrt. -/
def invalidBelowZero (f : Nat) : Bool := f == 0x12 || f == 0x13 || f == 0x15 || f == 0x16

/-- A vector function of an infinity of sign `s`: its limit there (R235, IEEE 754). -/
def vecOfInf (f : Nat) (s : Bool) (pick : Nat) : Nat :=
  if s && invalidBelowZero f then lF32.nan
  else match f with
  | 0x14 => lF32.sign s
  | 0x15 => 0
  | 0x17 => lF32.sign s + nearTwoUlp fxOne true pick
  | 0x18 => lF32.sign s + nearTwoUlp fxOne true pick
  | 0x19 => if s then 0 else nearTwoUlp fxOne true pick
  | _ => if s then 0 else lF32.infinity false

/-- A vector function of a zero of sign `s` (R235, IEEE 754). -/
def vecOfZero (f : Nat) (s : Bool) (pick : Nat) : Nat := match f with
  | 0x10 => nearTwoUlp fxOne true pick
  | 0x11 => nearTwoUlp fxOne true pick
  | 0x12 => lF32.infinity true
  | 0x13 => lF32.infinity true
  | 0x14 => lF32.infinity s
  | 0x15 => lF32.infinity s
  | 0x19 => nearTwoUlp (fxOne / 2) true pick
  | _ => lF32.sign s

/-- A finite value in fixed point. -/
def toFixed (s : Bool) (m : Nat) (e : Int) : Int := if s then -(m * 2 ^ (e + fracBits).toNat : Nat) else (m * 2 ^ (e + fracBits).toNat : Nat)

/-- The functions 0x10 to 0x19 of Table 8.12 on an FP32 encoding: exp, exp2, log, log2, reciprocal, rsqrt, sqrt, tanh, erf, sigmoid. R235
settles NaNs, zeros, infinities and negative operands; Table 6.7 bounds the rest, and within its bound Config.vecFn chooses. -/
def vecFunction (f w : Nat) : Nat :=
  let pick := (Config.vecFn f w).toNat
  match ofF32 w with
  | .nan => lF32.nan
  | .inf s => vecOfInf f s pick
  | .fin s m e =>
    if m == 0 then vecOfZero f s pick
    else if s && invalidBelowZero f then lF32.nan
    else
      let x := toFixed s m e
      match f with
      | 0x10 => nearTwoUlp (fxExpInt x) false pick
      | 0x11 => expTwo x pick
      | 0x12 => nearTwoInt (fxLn m e) false pick
      | 0x13 => logTwo m e pick
      | 0x14 => lF32.sign s + recipF32 m e pick
      | 0x15 => rsqrtF32 m e pick
      | 0x16 => sqrtF32 m e pick
      | 0x17 => lF32.sign s + nearTwoUlp (fxTanh x.natAbs) false pick
      | 0x18 => lF32.sign s + nearTwoUlp (fxErf x.natAbs) false pick
      | _ => nearTwoUlp (fxSigmoid x) false pick

/-- The exact value of an activation before the stage's one rounding (R224): x times its factor. At minus infinity the spec states no
result: a free value. -/
def actExact (kind w : Nat) : Val := match ofF32 w with
  | .nan => .nan
  | .inf false => .inf false
  | .inf true => ofF32 (Config.activation kind w).toNat
  | .fin s m e => .fin s (m * actFactor kind (toFixed s m e)) (e - fracBits)

/-- Row sum or row maximum (Table 6.7, R225): lane l of 64 takes elements l, l + 64, ... in order, then a tree of adjacent
pairs over the lanes that hold an element. DEDUCED: the tree joins adjacent lanes. -/
def treeFold (f : Nat → Nat → Nat) : Nat → List Nat → Nat
  | _, [] => 0
  | _, [a] => a
  | 0, a :: _ => a
  | fuel + 1, l => treeFold f fuel (pairs l)
where
  /-- One level of the tree. -/
  pairs : List Nat → List Nat
    | a :: b :: r => f a b :: pairs r
    | l => l

/-- The lanes of a row. -/
def rowLanes (f : Nat → Nat → Nat) (vs : List Nat) : List Nat :=
  (List.range (min 64 vs.length)).map fun l =>
    (List.range (vs.length / 64)).foldl (fun a i =>
      match vs[64 * (i + 1) + l]? with
      | some v => f a v
      | none => a) (vs.getD l 0)

/-- Row reduction of FP32 encodings: FUNC 0x00 sum, 0x01 maximum (Table 8.12). -/
def rowReduce (func : Nat) (vs : List Nat) : Nat :=
  let f := if func == 0 then f32Add else f32Max
  treeFold f 7 (rowLanes f vs)

end Sys2Proof.Machine
end

