-- ==== Sys2Proof/Machine/CollTypes.lean ====
section
/-! DEFINITION. Machine/CollTypes.lean: what the Domino engines and the fabric agent hold for a job's collectives and step commit
(13_collectives_and_step_commit.md) as plain data. Groups and descriptors themselves stay in section 0x09 of the package. -/
namespace Sys2Proof.Machine

/-- One chunk of one pass of a reduction (R484 to R491): pass 0 carries exponent bytes, pass 1 words. -/
structure CUnit where
  pass : Nat
  chunk : Nat
  own : Option (List Nat) := none          -- this rank's contribution, once formed
  prev : Option (List Nat) := none         -- RING: the predecessor's running partial
  parts : List (Nat × List Nat) := []      -- TREE: partials by child rank
  sent : Bool := false                     -- this rank's partial has left
  result : Option (List Nat) := none
  landed : Bool := false
deriving DecidableEq, Repr

/-- A piece of a PERMUTE that has arrived before its round (R519): round, address, bytes. -/
structure CPiece where
  round : Nat
  addr : Nat
  data : List Byte
deriving DecidableEq, Repr

/-- A COLL request that an engine holds (R478). -/
structure CRun where
  id : Nat                                 -- the id of the port queue's entry
  tile : Nat
  cdesc : Nat
  started : Bool := false                  -- among the 8 descriptors in progress
  units : List CUnit := []
  arrived : List (Nat × Nat) := []         -- BROADCAST, ALLGATHER: (rank of the data, chunk)
  issued : List Nat := []                  -- ATOMIC: chunks whose atomics have been sent
  waiting : Nat := 0                       -- ATOMIC: requests not answered
  doneSent : Bool := false
  dones : List Nat := []                   -- ATOMIC: ranks whose DONE has come
  round : Nat := 0                         -- PERMUTE
  pieces : List CPiece := []
  landed : Nat := 0                        -- PERMUTE: pieces written
  since : W64 := 0
deriving DecidableEq, Repr

/-- A collective message that came before its descriptor started here. -/
structure CMsg where
  h0 : W64
  h1 : W64
  data : List Byte
deriving DecidableEq, Repr

/-- A vote record in fields (Table 13.6): both bytes as flags. -/
structure VoteRec where
  nonfinite : Bool := false
  health : Bool := false
  missing : Nat := 0
deriving DecidableEq, Repr

/-- A decision (Table 13.6): COMMIT_COUNT 0 marks one that is not made yet. -/
structure Decision where
  step : W64
  round : Nat
  outcome : Nat
  missing : Nat
  count : W64
deriving DecidableEq, Repr

/-- The vote of a round on this module (R501 to R504). -/
structure VoteRun where
  round : Nat := 0
  own : Option VoteRec := none
  kids : List (Nat × VoteRec) := []
  timedOut : Bool := false                 -- VOTE_TIMEOUT_US has passed since the first record of the round
  sent : Bool := false
  contributed : Option W64 := none         -- count at which the module contributed
  queried : Nat := 0                       -- ranks asked: 0, then 1
  since : Option W64 := none               -- count at which rank 1 was asked
  combined : Option VoteRec := none        -- a complete record that waits for a LOCKED counter
  proposed : Option Decision := none       -- a decision that waits for its acknowledgement
deriving DecidableEq, Repr

/-- A repair or a proof in progress (R510, R512): kind 0 copies the accumulators, 1 restores the current slot, 2 proves a digest. -/
structure Repair where
  seg : Nat
  kind : Nat
  k : Nat := 1                             -- the replica asked is rank (own + k) mod P
  fails : Nat := 0                         -- digests that differed
  got : List Nat := []                     -- chunks that have arrived
  asked : Bool := false
  first : Nat := 0                         -- seat of the first replica that differed
  since : W64 := 0
deriving DecidableEq, Repr

/-- A request of another rank that waits (R510): what it asked for, the segment, its rank and descriptor. -/
structure Ask where
  kind : Nat
  seg : Nat
  rank : Nat
  cdesc : Nat
deriving DecidableEq, Repr

/-- A decision that has been applied and whose commit record and release wait (R507, R508). -/
structure Applied where
  decision : Decision
  at' : W64
  late : Bool
deriving DecidableEq, Repr

/-- What the engines and the agent hold for a job. -/
structure CollRun where
  nextId : Nat := 1
  runs : List CRun := []
  early : List CMsg := []
  landed : List Nat := []                  -- segments whose reduction of the step has landed
  nonfinite : Bool := false                -- the step non-finite flag (R499)
  addSeen : List Nat := []                 -- tiles whose NONFINITE_ADDWRITE an earlier step has counted
  nfSeen : List Nat := []                  -- tiles whose NONFINITE_SEEN an earlier step has counted
  vote : VoteRun := {}
  decided : List Decision := []            -- the last 16 (R503)
  queries : List Nat := []                 -- ranks that asked for a decision not yet held
  decision : Option Decision := none       -- received, to be applied at its count
  applied : Option Applied := none
  index : Nat := 0                         -- decisions applied since LOAD_JOB
  lateRaised : Bool := false
  repairs : List Repair := []
  proven : List (Nat × W64) := []          -- (segment, digest) proven last
  redone : List Nat := []                  -- segments redone or restored since the last commit record
  asks : List Ask := []
  retry : Bool := false                    -- SKIP_RETRY applied; the next round waits for repairs
  startWait : Bool := false                -- the run waits for repairs before its curtain count (R513, R514)
  abandoned : Bool := false                -- an ABANDON was applied (R511)
deriving DecidableEq, Repr

end Sys2Proof.Machine
end

