-- ==== Sys2Proof/Machine/RouteTypes.lean ====
section
/-! DEFINITION. Machine/RouteTypes.lean: what a Jacks engine holds for a job (11_expert_routing.md) as plain data. The maps,
queue entries and Jacks descriptors themselves stay in section 0x08 of the package. -/
namespace Sys2Proof.Machine

/-- A ROUTE request that the engine holds (R291, R394), oldest first. -/
structure RReq where
  id : Nat               -- the id of the port queue's entry
  tile : Nat
  word : W128
  row : Nat              -- ROW with the index register added
  admitted : Bool := false   -- has its slot and its map bits (R395), or its use exists (R389)
  waited : Nat := 0       -- 1 waits for a slot, 2 for map bits (R395), counted once in SLOT_WAITS
  fed : Nat := 0         -- slots of a FEED handed on
  since : W64 := 0       -- count of its issue, or of the last message of its layer and micro-batch
deriving DecidableEq, Repr

/-- A use of a queue (R388, R389): a micro-batch in one direction. -/
structure QUse where
  queue : Nat
  grad : Bool
  micro : Nat
  since : W64            -- Clockwork count at which it first asked for an area
  die : Nat              -- engine whose map bits it takes
  req : Nat := 0         -- the request that opened it (R395)
  step : W64 := 0        -- the step counter when it was opened
  frame : Option Nat := none
  used : Option Nat := none
  arrived : Nat := 0     -- arrival map: bit of each slot whose row has arrived
  releases : Nat := 0
  freed : Bool := false
deriving DecidableEq, Repr

/-- A token-side use (R395): one micro-batch of one layer, in its slot of the token-side arrays. -/
structure TUse where
  desc : Nat             -- the KIND 0 descriptor
  micro : Nat
  die : Nat
  fwdMap : Bool := false     -- holds its forward map bits
  gradMap : Bool := false    -- holds its gradient map bits
  covered : List (Nat × Nat) := []     -- (ROW, ROWS) of DISPATCH SENDs
  choices : List Nat := []             -- expert of each choice (r K + j), or 512 for one that is dropped already
  counted : Option W64 := none         -- count at which the count phase ended
  grants : List (Nat × List (Nat × Nat)) := []   -- by member: (start, grant) of each of its experts
  gradCovered : List (Nat × Nat) := []
  asked : List Nat := []               -- members asked by GRAD_REQUEST
  ready : List Nat := []               -- members that answered GRAD_READY
  combine : Nat := 0                   -- arrival map of combine rows
  ret : Nat := 0                       -- arrival map of return rows
  combineDone : List (Nat × Nat) := [] -- completed COMBINE RECEIVEs
  retDone : List (Nat × Nat) := []
deriving DecidableEq, Repr

/-- A COUNT that waits for the others (R398). -/
structure CountMsg where
  layer : Nat
  micro : Nat
  src : Nat
  counts : List Nat
deriving DecidableEq, Repr

/-- The queue record (Table 11.9). -/
structure QueueRec where
  routed : Nat := 0
  accepted : Nat := 0
  dropped : Nat := 0
  empty : Nat := 0
  peak : Nat := 0
  uses : Nat := 0
  waitUs : Nat := 0
  dropUses : Nat := 0
deriving DecidableEq, Repr

/-- The token-side record (Table 11.10). -/
structure TokenRec where
  sent : Nat := 0
  dropped : Nat := 0
  bad : Nat := 0
  waitUs : Nat := 0
  zeroed : Nat := 0
  slotWaits : Nat := 0
deriving DecidableEq, Repr

/-- The record of an index copy (Table 11.14, STATS). -/
structure CopyRec where
  used : Nat := 0
  dropped : Nat := 0
deriving DecidableEq, Repr

/-- What the engines hold of a run. -/
structure RouteRun where
  nextId : Nat := 1
  reqs : List RReq := []
  quses : List QUse := []
  tuses : List TUse := []
  counts : List CountMsg := []
  gradReqs : List (Nat × Nat × Nat) := []    -- (layer, micro, member)
  qrecs : List (Nat × QueueRec) := []
  trecs : List (Nat × TokenRec) := []
  crecs : List (Nat × CopyRec) := []
  lateRaised : Bool := false
  badRaised : Bool := false
  overflowRaised : List Nat := []            -- queues
deriving DecidableEq, Repr

/-- Loads for rebalancing advice (R416), by map: ROUTED of each local queue since the sums restarted, steps summed, and the sums
that other members have sent (member, sum of each of its experts). -/
structure Advice where
  map : Nat
  sums : List (Nat × Nat) := []      -- (queue, rows routed in committed steps)
  stepSums : List (Nat × Nat) := []  -- (queue, rows routed since the last commit)
  steps : Nat := 0
  received : List (Nat × List Nat) := []
deriving DecidableEq, Repr

end Sys2Proof.Machine
end

