-- ==== Sys2Proof/Machine/JobTypes.lean ====
section
/-! DEFINITION. Machine/JobTypes.lean: jobs, tiles, batches, channels, pools, Serden segments and device memory as plain
data (06, 08, 09, 10). -/
namespace Sys2Proof.Machine

/-- A descriptor (Table 8.4). -/
structure Desc where
  format : Nat
  space : Nat            -- 0 local, 1 fabric
  sparse : Bool
  transposable : Bool
  kdim : Bool
  base : Nat
  rows : Nat
  cols : Nat
  stride : Nat
  aux : Nat
  keyT : Nat             -- KEY_OR_TMETA
  member : Nat
deriving DecidableEq, Repr

/-- An epilogue entry (Table 8.5). -/
structure Epi where
  stages : Nat
  act : Nat
  scalar? : Bool         -- SCALE_SCALAR
  seedSlot : Nat
  site : Nat
  layer : Nat
  conv : Nat
  round : Nat
  sat : Bool
  addWrite : Bool
  out : Nat
  digest : Nat
  scale : Nat
  bias : Nat
  resid : Nat
  scalar : Nat
  threshold : Nat
  dropScale : Nat
  elemBase : Nat
  rowStride : Nat
deriving DecidableEq, Repr

/-- One line of operand elements: encodings of a format and, for MX, the scale bytes of its blocks: of `block` elements each, the
first element `skip` places into its block. -/
structure Line where
  format : Nat
  elems : List Nat
  scales : List Nat
  block : Nat := 32
  skip : Nat := 0
deriving DecidableEq, Repr

/-- A row in the fill batcher (R211, R214): its key, its row index for R257, its operand line, and for a key pair the line of
the second operand (R277). A dropped key (R277) holds no line. -/
structure BRow where
  key : Nat
  row : Nat
  a : Option Line
  b : Option Line
deriving DecidableEq, Repr

/-- A batch stream of the fill batcher (R211 to R215). -/
structure Stream where
  keyed : Bool
  deadline : Nat
  rows : List BRow            -- rows that wait, in arrival order
  closed : List (List BRow)   -- batches issued to the arrays, oldest first
  nextBatch : Nat             -- j of the next key batch
  ended : Option Nat          -- the end mark with its KEY_COUNT
deriving DecidableEq, Repr

/-- An accumulator set (R203, R207): the rows and columns of the block, the 32-bit accumulators in row order, whether they are
i32, and the row index of each row, none for a masked row. -/
structure AccSet where
  nrows : Nat
  ncols : Nat
  int : Bool
  vals : List Nat
  rowIdx : List (Option Nat)
deriving DecidableEq, Repr

/-- An add-write in a channel queue (R343). -/
structure AddWrite where
  part : Nat
  addr : Nat             -- 64 B aligned
  mask : Nat
  int : Bool
  vals : List Nat        -- 16 words
  die : Nat := 2         -- the die whose bridge credit it takes to reach its channel (R292); 2 none
deriving DecidableEq, Repr

/-- An instruction in a unit queue (R286): its index and word, the index register value taken at issue, its string to post
(15 none), what it still waits for from outside its unit, and for a MAC its accumulator set, the core whose datapath runs it, whether
the operation ended, and the add-writes of its epilogue that no channel queue has accepted (R293). -/
structure Entry where
  index : Nat
  word : W128
  x : Nat
  post : Nat
  left : Nat := 0
  acc : Option AccSet := none
  ended : Bool := false
  id : Nat := 0          -- names the request that an engine holds for it (R291)
  core : Nat := 0        -- core index of the datapath, once `acc` holds a set (R197, R200)
  cycles : Nat := 0      -- array cycles of the operation, once it has started
  held : List AddWrite := []   -- add-writes of its result that have not entered a channel queue yet (R293)
  cross : List Nat := [] -- classes of R292 in which it holds a bridge credit until it completes: 0 store, 1 channel, 2 engine
deriving DecidableEq, Repr

/-- A loop in progress (R283): its body's first and last index and the iterations left. -/
structure Loop where
  first : Nat
  last : Nat
  left : Nat
deriving DecidableEq, Repr

/-- The numeric record (Table 7.8). -/
structure NumRec where
  nanOut : Nat := 0
  infOut : Nat := 0
  convSat : Nat := 0
  intSat : Nat := 0
  mxNan : Nat := 0
  nanInt : Nat := 0
  nfAdd : Bool := false
  nfSeen : Bool := false
deriving DecidableEq, Repr

/-- The array activity record (Table 6.10). -/
structure ActRec where
  cycles : Nat := 0
  spinner : Nat := 0
  padRows : Nat := 0
  rotation : Nat := 0
  operand : Nat := 0
  drain : Nat := 0
  bank : Nat := 0
  stagger : Nat := 0
  limiter : Nat := 0
  emulated : Nat := 0
  padded : Nat := 0
deriving DecidableEq, Repr

/-- The extra record (Table 8.19) but FINAL_STATE, which is the sequencer's state. -/
structure ExtraRec where
  varied : Nat := 0
  branches : Nat := 0
  dropped : Nat := 0
  late : Nat := 0
  last : Nat := 0
deriving DecidableEq, Repr

/-- The tile spill record (Table 9.6). -/
structure SpillRec where
  near : Nat := 0
  far : Nat := 0
  cluster : Nat := 0
  host : Nat := 0
deriving DecidableEq, Repr

/-- A tile of a loaded job: its list and table store (R265), its sequencer (R272, R273, R283 to R288), unit queues, batch
streams and records. -/
structure JobTile where
  tile : Nat
  list : List W128
  descs : List Desc
  epis : List Epi
  depths : List Nat                -- STRING_DEPTH of strings 0 to 14
  shared : Bool                    -- SHARED_WEIGHT
  state : Nat := 1                 -- Table 8.16
  next : Nat := 0                  -- index of the oldest instruction not yet issued
  x : List W32 := List.replicate 8 0
  posted : List Nat := List.replicate 15 0
  reserved : List Nat := List.replicate 15 0
  loops : List Loop := []          -- innermost first
  binds : List (Nat × Nat) := []   -- BASE set by RECV: (descriptor, base)
  fetcher : List Entry := []
  arrays : List Entry := []
  vector : List Entry := []
  jacks : List Entry := []
  domino : List Entry := []
  streams : List (Option Stream) := [none, none, none, none]
  acc : Option AccSet := none      -- the accumulators kept for CONTINUE (R206)
  curtains : Nat := 0              -- CURTAINs of SOURCE 1 issued (R282)
  barriers : List (Nat × Nat) := []   -- (barrier, BARRIERs issued) (R285)
  ending : Bool := false           -- END has issued (R288)
  fence : Nat := 0                 -- SPACE 1 writes and atomics not acknowledged (R285)
  refill : Bool := false           -- waits for the instruction buffer (R287)
  folded : List (Nat × W64) := []  -- layer digest h of the slots folded into (R525)
  seq : List Nat := List.replicate 14 0   -- the sequencer record, w0 to w13 (Table 8.18)
  extra : ExtraRec := {}
  act : ActRec := {}
  num : NumRec := {}
  spill : SpillRec := {}
  variedRun : Bool := false        -- issued an instruction with MAYVARY set in this run (R296)
  satRaised : List Nat := []       -- what it has raised sustained-saturation for and is still held by (R303)
deriving DecidableEq, Repr

/-- A tile channel as declared (Table 8.6) and its credits (R289, R290). -/
structure Channel where
  srcTile : Nat
  srcIndex : Nat
  dstTile : Nat
  dstIndex : Nat
  dstSeat : Nat
  depth : Nat
  entryBytes : Nat
  buffer : Nat
  credits : Nat := 0
  written : Nat := 0     -- entries sent
  arrived : Nat := 0     -- entries arrived
  taken : Nat := 0       -- entries taken by RECV
  srcSeat : Option Nat := none   -- a remote producer's seat, learned from its declaration (R306)
  acked : Nat := 0       -- bytes of the entry under way that have arrived, at the consumer of a remote channel
deriving DecidableEq, Repr

/-- A shared-buffer entry (R269): base and length. -/
structure SharedBuf where
  base : Nat
  length : Nat
deriving DecidableEq, Repr

/-- A resolved region (R447): base, size in bytes and the READ, WRITE and ATOMIC bits. -/
structure RegionMap where
  member : Nat
  key : Nat
  base : Nat
  size : Nat
  perm : Nat
deriving DecidableEq, Repr

/-- A run of a job (R306 to R309). -/
structure Run where
  port : Nat
  qp : Nat
  seq : Nat
  filler : Bool
  curtain : W64                    -- CURTAIN of the command
  started : Bool := false          -- steps 1 to 4 of R306 have taken place
  start : W64 := 0                 -- the run's curtain count, once started
  stepCurtains : List W64 := []    -- step curtain counts agreed, oldest first (R282)
  saturations : Nat := 0
  stuck : Nat := 0
  hostRead : Nat := 0              -- bytes of the host spill window (Table 9.5)
  hostWrite : Nat := 0
  ended : Nat := 0                 -- Clockwork count at which the last tile ended
  regions : List RegionMap := []   -- SPACE 1 regions resolved for the run (R447)
  setup : Bool := false            -- steps 1 and 2 of R306 have taken place
  count : Option W64 := none       -- the curtain count, once it is known (R138, R170)
  ready : Bool := false            -- every wait of step 3 has ended
deriving DecidableEq, Repr

/-- A line of a core extension written since LOAD_JOB (R320, R321): its window address; the near line it holds, or none at
home. -/
structure ExtLine where
  addr : Nat
  near : Option (Nat × Nat)   -- die, near line
deriving DecidableEq, Repr

/-- A Toybox request that waits (R335). -/
structure PoolReq where
  alloc : Bool           -- ALLOC, or RESERVE
  requester : Nat
  owner : Nat
deriving DecidableEq, Repr

/-- A buffer that is allocated or reserved: its audit word of Table 9.10 in fields. -/
structure Buffer where
  num : Nat
  requester : Nat
  owner : Nat
  allocated : Bool
  handedOff : Bool
  age : Nat              -- AGE_BASE
deriving DecidableEq, Repr

/-- The audit record of the running run (Table 9.11). -/
structure PoolRec where
  allocs : Nat := 0
  frees : Nat := 0
  peak : Nat := 0
  leaked : Nat := 0
  refused : Nat := 0
  holds : Nat := 0
  refuses : Nat := 0
  quotaWaits : Nat := 0
deriving DecidableEq, Repr

/-- A Toybox pool (R329 to R339). -/
structure Pool where
  buffers : List Buffer := []     -- in use, ascending number
  waiting : List PoolReq := []    -- oldest first
  state : Nat := 0                -- 0 NORMAL, 1 WATCH, 2 HOLD, 3 REFUSE
  satRaised : Bool := false
  audit : PoolRec := {}
deriving DecidableEq, Repr

/-- A segment of a loaded job: its slot-pointer entry (Table 10.8) and what its update is working on. -/
structure Segment where
  index : Nat
  words : List W64       -- the segment entry of Table 10.7
  slot : Bool
  flipPending : Bool := false
  provisional : Bool := false
  copyDirty : Bool := false
  noflip : Bool := false
  upd : Nat := 0         -- 0 IDLE, 1 WAITING, 2 RUNNING, 3 WRITTEN, 4 FAILED, 5 RESTORING
  acc : Nat := 0         -- 0 OPEN, 1 HELD, 2 CLEARING
  reruns : Nat := 0
  lanesLeft : Nat := 0
  step : W64 := 0        -- STEP, CLIP_SCALE, OUTCOME and counts of the update in progress
  clip : Nat := 0x3F800000
  outcome : Nat := 0
  nfIn : Nat := 0
  nfOut : Nat := 0
  digest : W64 := 0
deriving DecidableEq, Repr

/-- A step outcome queued in the engines (R376): count, 0 COMMIT, 1 SKIP with the flag set, 2 SKIP with it clear. -/
structure Outcome3 where
  count : W64
  kind : Nat
deriving DecidableEq, Repr

/-- The optimiser table as the engines hold it for a run (R350). -/
structure OptTable where
  base : Nat
  header : List W64
  scheds : List (List W64)
  points : List (List W64)
deriving DecidableEq, Repr

/-- A job loaded in a partition (R305 to R309, R350, R369). -/
structure Job where
  part : Nat
  num : Nat                        -- JOB
  port : Nat                       -- the port and queue pair that loaded it
  qp : Nat
  slot : Nat                       -- job slot 0 to 63 (R329)
  stats : Nat                      -- STATS_BASE
  stateBytes : Nat
  buildId : W64
  stuckMs : Nat
  step : W64                       -- the step counter
  seeds : List W64
  tiles : List JobTile             -- tiles with a list, ascending
  channels : List Channel
  barriers : List Nat              -- member masks
  buffers : List SharedBuf
  jsection : List W64 := []        -- section 0x08
  csection : List W64 := []        -- section 0x09
  run : Option Run := none
  table : Option OptTable := none
  segs : List Segment := []        -- slot-pointer entries, ascending
  outcome : Option Outcome3 := none
  ext : List ExtLine := []         -- extension lines written
  route : RouteRun := {}           -- what the Jacks engines hold
  advice : List Advice := []       -- loads for rebalancing advice
  coll : CollRun := {}             -- what the Domino engines and the agent hold
  decls : List Declared := []      -- declarations of peers that came before the run (R306, R483)
  place : Nat := 0                 -- where the copy of the package lies in stack memory (R305)
  opened : Bool := false           -- its first run has been set up: flows that it opens count from there (R460)
deriving DecidableEq, Repr

/-- The datapaths (R197, R206, R216 to R218), and what the hardware of the tiles keeps outside a job. A core index names the datapath
of that core. -/
structure Datapaths where
  credits : List (Nat × Nat)      -- datapath credits by tile
  arrays : List (Nat × Nat)       -- by 4 x core + array: absent stopped, 1 running, 2 spinning, 3 start held by the stagger
  last : List (Nat × Nat)         -- by core: 1 + the tile whose operation its accumulators hold (R206)
  prev : List (Nat × Nat)         -- by tile: 1 + the core that ran its previous operation (R206)
  waits : List (Nat × Nat)        -- requests that wait for a full engine, oldest first (R291): 2 x die + (0 Jacks, 1 Domino),
                                  -- and 2 x tile + (0 normal, 1 filler context)
  lastIndex : List (Nat × Nat)    -- by tile: LAST_INDEX of its last job, which LOAD_JOB does not reset (R299)
deriving DecidableEq, Repr

end Sys2Proof.Machine
end

