-- ==== Sys2Proof/Machine/Flags.lean ====
section
/-! DEFINITION. Machine/Flags.lean: the status that numbers leave behind: the numeric record of a tile (Table 7.8, R243,
R246) and the conversions that set it. -/
namespace Sys2Proof.Machine

/-- A u32 count field, saturating (R246). -/
def count32 (n k : Nat) : Nat := satAdd 0xFFFFFFFF n k

/-- Values that entered epilogue stage 1 (R246): infinities and NaNs set NONFINITE_SEEN. -/
def NumRec.saw (r : NumRec) (vs : List Nat) : NumRec := { r with nfSeen := r.nfSeen || vs.any fun w => (ofF32 w).nonfinite }

/-- A value written in a format (R243, R246): canonical NaNs, infinities and counted conversions. -/
def NumRec.wrote (r : NumRec) (f : Nat) (c : Conv) : NumRec :=
  let v := decodeElem f c.code
  let fp := (layoutOf f).isSome && !isMx f
  { r with
    nanOut := if fp && v == .nan then count32 r.nanOut 1 else r.nanOut
    infOut := match v with
      | .inf _ => if fp then count32 r.infOut 1 else r.infOut
      | _ => r.infOut
    convSat := if c.sat then count32 r.convSat 1 else r.convSat
    nanInt := if c.nanInt then count32 r.nanInt 1 else r.nanInt
    nfSeen := r.nfSeen || (fp && v.nonfinite) }

/-- An MX block written (R241, R246): with scale 0xFF it counts and is a NaN. -/
def NumRec.wroteBlock (r : NumRec) (x : Nat) (cs : List Conv) : NumRec :=
  let r := if x == 0xFF then { r with mxNan := count32 r.mxNan 1, nfSeen := true } else r
  { r with convSat := count32 r.convSat (cs.filter Conv.sat).length }

/-- The record after stages 7 and 8 of an epilogue, from the record before and the one with everything counted (R246): what is not
written counts no NaN, infinity or block. An infinity or NaN that passes the place of stage 7 has left it, applied or skipped. -/
def NumRec.staged (before : NumRec) (written : Bool) (after : NumRec) : NumRec :=
  { after with
    nanOut := if written then after.nanOut else before.nanOut
    infOut := if written then after.infOut else before.infOut
    mxNan := if written then after.mxNan else before.mxNan }

/-- An add-write of epilogue stage 8 (R246). -/
def NumRec.added (r : NumRec) (vs : List Nat) : NumRec := { r with nfAdd := r.nfAdd || vs.any fun w => (ofF32 w).nonfinite }

/-- INT_SAT (R237): steps that saturated. -/
def NumRec.saturated (r : NumRec) (k : Nat) : NumRec := { r with intSat := count32 r.intSat k }

/-- The four words of Table 7.8. -/
def NumRec.words (r : NumRec) : List W64 :=
  [pack [(r.nanOut, 32, 32), (r.infOut, 0, 32)], pack [(r.convSat, 32, 32), (r.intSat, 0, 32)],
   pack [(r.mxNan, 32, 32), (r.nanInt, 0, 32)], pack [(b2n r.nfAdd, 1, 1), (b2n r.nfSeen, 0, 1)]]

/-- The eight words of Table 6.10. -/
def ActRec.words (r : ActRec) : List W64 :=
  [pack [(r.cycles, 0, 64)], pack [(r.spinner, 0, 64)], pack [(r.padRows, 0, 64)], pack [(r.rotation, 0, 64)],
   pack [(r.operand, 0, 64)], pack [(r.drain, 32, 32), (r.bank, 0, 32)], pack [(r.stagger, 32, 32), (r.limiter, 0, 32)],
   pack [(r.emulated, 32, 32), (r.padded, 0, 32)]]

/-- The four words of Table 8.19; FINAL_STATE is the sequencer's state. -/
def ExtraRec.wordsAt (r : ExtraRec) (state : Nat) : List W64 :=
  [pack [(r.varied, 32, 32), (r.branches, 0, 32)], pack [(r.dropped, 32, 32), (r.late, 0, 32)],
   pack [(r.last, 32, 32), (state, 28, 4)], 0]

/-- The four words of Table 9.6. -/
def SpillRec.words (r : SpillRec) : List W64 :=
  [pack [(r.near, 0, 64)], pack [(r.far, 0, 64)], pack [(r.cluster, 0, 64)], pack [(r.host, 0, 64)]]

/-- A count that arrives with the command that ends a wait: cycles charged to field `i` of the sequencer record and to STALL
(R300). -/
def chargeStall (seq : List Nat) (i cycles : Nat) : List Nat :=
  let add := fun n => (n + cycles) % 2 ^ 64
  upd (upd seq i add) 1 add

end Sys2Proof.Machine
end

