-- ==== Sys2Proof/Machine/Memory.lean ====
section
/-! DEFINITION. Machine/Memory.lean: device memory as a sorted list of (address, byte), no entry zero: an address that is not
listed reads 0 (00 R9, 09 R312); bytes, words and lines of elements over it. -/
namespace Sys2Proof.Machine

/-- The memory of the module: every store of Table 9.2 under its device physical address. -/
abbrev Mem := List Host.Cell

/-- What a byte that is not listed reads as. DESIGN CHOICE: 0. -/
def emptyByte : Byte := 0

/-- Read one byte. -/
def rdByte (a : Nat) : Mem → Byte
  | [] => emptyByte
  | (b, v) :: r => if b == a then v else rdByte a r

/-- Write one byte, keeping the canonical form: addresses rise, and no listed byte is the one an unlisted address reads. -/
def wrByte (a : Nat) (v : Byte) : Mem → Mem
  | [] => if v == emptyByte then [] else [(a, v)]
  | (b, w) :: r =>
    if b < a then (b, w) :: wrByte a v r
    else if b == a then (if v == emptyByte then r else (a, v) :: r)
    else if v == emptyByte then (b, w) :: r else (a, v) :: (b, w) :: r

/-- The canonical form: every address is above `lo`, addresses rise, no listed byte is 0. -/
def Mem.wfFrom : Option Nat → Mem → Bool
  | _, [] => true
  | lo, (a, v) :: r => (match lo with
      | some l => l < a
      | none => true) && v != emptyByte && wfFrom (some a) r

/-- The canonical form of memory. -/
def Memory.wf (m : Mem) : Bool := Mem.wfFrom none m

/-- Read `n` bytes. -/
def rdBytes (a n : Nat) (m : Mem) : List Byte := (List.range n).map fun i => rdByte (a + i) m

/-- Write bytes. -/
def wrBytes (a : Nat) : List Byte → Mem → Mem
  | [], m => m
  | b :: r, m => wrBytes (a + 1) r (wrByte a b m)

/-- A little-endian number of `n` bytes (R9). -/
def rdNat (a n : Nat) (m : Mem) : Nat := leNat (rdBytes a n m)

/-- Write a number as `n` bytes, little-endian (R9). -/
def wrNat (a n v : Nat) (m : Mem) : Mem := wrBytes a (leBytes n v) m

/-- Write 64-bit words. -/
def wrWords (a : Nat) (ws : List W64) (m : Mem) : Mem := wrBytes a (ofWords ws) m

/-- Zero `n` bytes from `a`: the listed ones of the range go. -/
def zeroRange (a n : Nat) (m : Mem) : Mem := m.filter fun c => !(a ≤ c.1 && c.1 < a + n)

/-- Field of `n` bits at bit offset `o` from byte address `a`, bit 0 of a byte first (R239, R250). -/
def rdBits (a o n : Nat) (m : Mem) : Nat :=
  (rdNat (a + o / 8) ((o % 8 + n + 7) / 8) m >>> (o % 8)) % 2 ^ n

/-- Write a field of `n` bits. -/
def wrBits (a o n v : Nat) (m : Mem) : Mem :=
  let b := a + o / 8
  let k := (o % 8 + n + 7) / 8
  let old := rdNat b k m
  let hi := old >>> (o % 8 + n)
  wrNat b k ((hi <<< n ||| v % 2 ^ n) <<< (o % 8) ||| old % 2 ^ (o % 8)) m

/-- The 64 B lines that a range of bytes touches, as line numbers. -/
def lineNums (a n : Nat) : List Nat := if n == 0 then [] else (List.range ((a + n - 1) / 64 - a / 64 + 1)).map (a / 64 + ·)

/-- The 64 B lines that a range covers whole (R326). -/
def wholeLines (a n : Nat) : List Nat := (lineNums a n).filter fun l => a ≤ 64 * l && 64 * l + 64 ≤ a + n

end Sys2Proof.Machine
end

