-- ==== Sys2Proof/Machine/Operands.lean ====
section
/-! DEFINITION. Machine/Operands.lean: the operand forms: descriptors and epilogue entries (R266 to R268), lines of elements
with MX scales (R239, R267), 2:4 operands (R249 to R251), and where each element lies. -/
namespace Sys2Proof.Machine

/-- A descriptor from its four words (Table 8.4). -/
def Desc.ofWords (d : List W64) : Desc :=
  let d0 := d.getD 0 0
  { format := fld d0 63 60, space := fld d0 59 58, sparse := bit d0.toNat 57, transposable := bit d0.toNat 56,
    kdim := bit d0.toNat 55, base := fld d0 47 0, rows := fld (d.getD 1 0) 63 32, cols := fld (d.getD 1 0) 31 0,
    stride := fld (d.getD 2 0) 63 32, aux := fld (d.getD 2 0) 31 0, keyT := fld (d.getD 3 0) 63 32,
    member := fld (d.getD 3 0) 31 26 }

/-- An epilogue entry from its words (Table 8.5). -/
def Epi.ofWords (w : List W64) : Epi :=
  let a := w.getD 0 0
  let b := w.getD 1 0
  let c := w.getD 2 0
  let d := w.getD 3 0
  { stages := fld a 63 56, act := fld a 55 53, scalar? := bit a.toNat 52, seedSlot := fld a 51 49, site := fld a 48 39,
    layer := fld a 38 29, conv := fld a 28 25, round := fld a 24 23, sat := bit a.toNat 22, addWrite := bit a.toNat 21,
    out := fld a 20 13, digest := fld a 12 5, scale := fld b 63 56, bias := fld b 55 48, resid := fld b 47 40,
    scalar := fld b 31 0, threshold := fld c 63 48, dropScale := fld c 31 0, elemBase := fld d 63 32, rowStride := fld d 31 0 }

/-- The entry of FUNC conversions without an epilogue entry (R278: 0xFF = RNE, SAT 0): every field zero. -/
def Epi.none : Epi := Epi.ofWords []

/-- Stage `i` of Table 6.6 is applied. -/
def Epi.has (e : Epi) (i : Nat) : Bool := e.stages.testBit (i - 1)

/-- A field of an instruction word (Table 8.7 and the bodies). -/
def ifld (w : W128) (hi lo : Nat) : Nat := bits w.toNat hi lo

/-- Elements of a line: a row when KDIM is 0, a column when KDIM is 1 (R266). -/
def Desc.lineLen (d : Desc) : Nat := if d.kdim then d.rows else d.cols

/-- Lines of a tensor. -/
def Desc.lines (d : Desc) : Nat := if d.kdim then d.cols else d.rows

/-- The line and place of element (row, column). -/
def Desc.place (d : Desc) (r c : Nat) : Nat × Nat := if d.kdim then (c, r) else (r, c)

/-- Start of a line: BASE and LINE_STRIDE, a 48-bit device address. -/
def Desc.lineAddr (d : Desc) (l : Nat) : Nat := (d.base + l * d.stride) % 2 ^ 48

/-- The bytes of elements i to i + n - 1 of a line, as address and length (R239). -/
def Desc.span (d : Desc) (l i n : Nat) : Nat × Nat :=
  let b := elemBits d.format
  (d.lineAddr l + i * b / 8, (i * b % 8 + n * b + 7) / 8)

/-- Bytes of a line's scale bytes (R267). -/
def Desc.scaleLen (d : Desc) : Nat := (d.lineLen + 31) / 32

/-- Address of the scale byte of block `b` of a line (R267). -/
def Desc.scaleAddr (d : Desc) (l b : Nat) : Nat := (d.base + d.aux + l * d.scaleLen + b) % 2 ^ 48

/-- The scale bytes that elements i to i + n - 1 of a line use, as address and length; none when the format has none. -/
def Desc.scaleSpan (d : Desc) (l i n : Nat) : List (Nat × Nat) :=
  if isMx d.format && n != 0 then [(d.scaleAddr l (i / 32), (i + n - 1) / 32 - i / 32 + 1)] else []

/-- The ranges of memory that elements i to i + n - 1 of a line lie in. -/
def Desc.spans (d : Desc) (l i n : Nat) : List (Nat × Nat) := if n == 0 then [] else d.span l i n :: d.scaleSpan l i n

/-- The encoding of element `i` of a line. -/
def rdElem (d : Desc) (l i : Nat) (m : Mem) : Nat := rdBits (d.lineAddr l) (i * elemBits d.format) (elemBits d.format) m

/-- Store an encoding as element `i` of a line, in elements of format `f` (R268: the entry's CONV_FORMAT). -/
def wrElem (f : Nat) (d : Desc) (l i v : Nat) (m : Mem) : Mem := wrBits (d.lineAddr l) (i * elemBits f) (elemBits f) v m

/-- Element `i` of a line as a value, with its block's scale (R238). -/
def rdVal (d : Desc) (l i : Nat) (m : Mem) : Val :=
  let v := decodeElem d.format (rdElem d l i m)
  if isMx d.format then mxValue (rdByte (d.scaleAddr l (i / 32)) m).toNat v else v

/-- Element (row, column) as a value. -/
def rdCell (d : Desc) (r c : Nat) (m : Mem) : Val := rdVal d (d.place r c).1 (d.place r c).2 m

/-- A line as an operand line, from element i on. -/
def rdLine (d : Desc) (l i n : Nat) (m : Mem) : Line :=
  { format := d.format, elems := (List.range n).map fun j => rdElem d l (i + j) m,
    scales := if isMx d.format then (List.range ((i % 32 + n + 31) / 32)).map fun b => (rdByte (d.scaleAddr l (i / 32 + b)) m).toNat
              else [],
    skip := i % 32 }

/-- A line across the other dimension: element (r, c) for c fixed when KDIM is 0 (a column of a row-major tensor); each element has
the scale of its own block. -/
def rdCross (d : Desc) (c i n : Nat) (m : Mem) : Line :=
  { format := d.format, elems := (List.range n).map fun j => rdElem d (i + j) c m,
    scales := if isMx d.format then (List.range n).map fun j => (rdByte (d.scaleAddr (i + j) (c / 32)) m).toNat else [],
    block := 1 }

/-- Reduction lines: along K for a line of the descriptor. Row `r` of A (KDIM 0) or column of B (KDIM 1) is a line; with the
other KDIM the elements lie across lines. `asRow` says that the reduction runs along a row. -/
def rdK (asRow : Bool) (d : Desc) (l i n : Nat) (m : Mem) : Line :=
  if asRow != d.kdim then rdLine d l i n m else rdCross d l i n m

/-- Encoding of element `i` of an operand line; past its end +0. -/
def Line.at (x : Line) (i : Nat) : Nat := x.elems.getD i 0

/-- The value of element `i` of an operand line without its scale. -/
def Line.val (x : Line) (i : Nat) : Val := decodeElem x.format (x.at i)

/-- The scale byte of element `i`; 127 (a scale of 1) for a format without scales. -/
def Line.scale (x : Line) (i : Nat) : Nat := if isMx x.format then x.scales.getD ((x.skip + i) / x.block) 127 else 127

/-- Start of the nibbles of group `g` of a 2:4 operand (R250, R266). -/
def Desc.metaAddr (d : Desc) (g : Nat) : Nat :=
  let scales := if isMx d.format then Config.mxMetaOffset (d.lines * d.scaleLen) else 0
  d.base + d.aux + scales + g * (d.cols / 2)

/-- Start of the nibbles of row `k` of a transposable operand (R251). -/
def Desc.transAddr (d : Desc) (k : Nat) : Nat := d.base + d.keyT + k * ((d.cols / 4 + 1) / 2)

/-- The two kept positions of group `g` of column `n` of a 2:4 operand (R250): i0 and i1. -/
def sparseIdx (d : Desc) (g n : Nat) (m : Mem) : Nat × Nat :=
  let nib := rdBits (d.metaAddr g) (4 * n) 4 m
  (nib % 4, nib / 4)

/-- A 2:4 operand column (R249, R250): the kept values in order and, for each, the K index it stands at. -/
def sparseCol (d : Desc) (n k0 k : Nat) (m : Mem) : Line × List Nat :=
  let x := rdK false d n (k0 / 2) (k / 2) m
  (x, (List.range (k / 4)).flatMap fun g =>
    let (i0, i1) := sparseIdx d (k0 / 4 + g) n m
    [4 * g + i0, 4 * g + i1])

/-- The value of a transposed 2:4 position (R251): v0 of its column when i0 names that row, v1 when i1 does, else +0; and the scale
byte of its block. -/
def transVal (d : Desc) (k c : Nat) (m : Mem) : Nat × Nat :=
  let (i0, i1) := sparseIdx d (k / 4) c m
  let v := fun r => let (l, i) := d.place r c
    (rdElem d l i m, if isMx d.format then (rdByte (d.scaleAddr l (i / 32)) m).toNat else 127)
  if i0 == k % 4 then v (2 * (k / 4)) else if i1 == k % 4 then v (2 * (k / 4) + 1) else (0, 127)

/-- A row of a transposable operand used transposed (R251): for row `r`, the kept values along columns k0 on and the reduction
index of each. -/
def transRow (d : Desc) (r k0 k : Nat) (m : Mem) : Line × List Nat :=
  let hs := List.range (k / 4)
  let pos := hs.flatMap fun h =>
    let nib := rdBits (d.transAddr r) (4 * (k0 / 4 + h)) 4 m
    [4 * h + nib % 4, 4 * h + nib / 4]
  ({ format := d.format, elems := pos.map fun p => (transVal d r (k0 + p) m).1,
     scales := pos.map fun p => (transVal d r (k0 + p) m).2, block := 1 }, pos)

end Sys2Proof.Machine
end

