-- ==== Sys2Proof/Machine/BlueprintTypes.lean ====
section
/-! DEFINITION. Machine/BlueprintTypes.lean: the blueprint shadow as plain data, one structure per record of Table 2.3,
with the Reset column of each optional record as its default (R31). -/
namespace Sys2Proof.Machine

/-- One partition entry of Table 2.5 (R38). -/
structure PartCfg where
  halves : Nat       -- bit 2s = channels 0-15 of stack s, bit 2s+1 = channels 16-31
  cxlGiB : Nat
  bar2Log2 : Nat
  hostPorts : Nat
  clusters0 : Nat    -- CLUSTERS_CD0, 33 bits
  clusters1 : Nat    -- CLUSTERS_CD1, 33 bits
  links : Nat        -- 36 bits
deriving DecidableEq, Repr

/-- One master table entry of Table 2.6 (R41). -/
structure MasterCfg where
  mid : Nat
  precedence : Nat
  partitions : Nat
  submit : Bool
  powerCap : Bool
  clockResync : Bool
  linkControl : Bool
  partitionReset : Bool
  moduleReset : Bool
  update : Bool
  debug : Bool
deriving DecidableEq, Repr

/-- One mailbox binding of Table 2.7 (R45). -/
structure BindCfg where
  channel : Nat
  sender : Nat
  receiver : Nat
  wake : Bool
  partitionValid : Bool
  partition : Nat
deriving DecidableEq, Repr

/-- Clocks and operating points, Table 2.9 (R48); the defaults are its Reset column. -/
structure ClockCfg where
  clkmonSource : Nat := 0
  clkmonN : Nat := 0
  syncinUse : Bool := false
  role : Nat := 0
  refbPresent : Bool := true
  maxOp : Nat := 0
  bootOp : Nat := 0
  syncIntervalUs : Nat := 1000
deriving DecidableEq, Repr

/-- Power, Table 2.11 (R50). An absent record gives weight 1 to each existing partition. -/
structure PowerCfg where
  spinnerWindow : Nat := 64
  staggerCycles : Nat := 8
  governorEqual : Bool := false
  windowS : Nat := 5
  capW : Nat := 2300
  weights : List Nat := [1, 1, 1, 1]
deriving DecidableEq, Repr

/-- One link word of Table 2.12 (R53). -/
structure LinkCfg where
  mode : Nat         -- 0 disabled, 1 Dranto, 2 Ethernet
  role : Nat         -- 0 mesh peer, 1 switch port, 2 scale-out
  peerSeat : Nat
  peerLink : Nat
  group : Nat
  narrowAllowed : Bool
deriving DecidableEq, Repr

/-- Links and topology, Table 2.12 (R53). -/
structure TopoCfg where
  podMembers : Nat
  topology : Nat
  forwardEnable : Bool
  seat : Nat
  udpPort : Nat
  ipMode : Nat
  ipv4 : Nat
  ipv6High : W64
  ipv6Low : W64
  links : List LinkCfg
deriving DecidableEq, Repr

/-- One region of Table 2.13 (R56). -/
structure RegionCfg where
  key : Nat
  region : Nat
  partition : Nat
  atomic : Bool
  write : Bool
  read : Bool
  size : Nat         -- in units of 2 MiB
  base : Nat
deriving DecidableEq, Repr

/-- One pool of Table 2.14 (R58). -/
structure PoolCfg where
  bufferCount : Nat
  bufferLog2 : Nat
  multiOwner : Bool
  location : Nat
  partition : Nat
  purpose : Nat
  pool : Nat
  base : Nat
  quota : Nat
  refuse : Nat
  hold : Nat
  watch : Nat
deriving DecidableEq, Repr

/-- Fault thresholds, Table 2.15 (R60). -/
structure FaultCfg where
  bucketCount : Nat := 3
  bucketWindowS : Nat := 86400
  laneFecLimit : Nat := 1000
  channelCeLimit : Nat := 64
deriving DecidableEq, Repr

/-- Training policy of one partition, Table 2.16 (R61). -/
structure TrainCfg where
  digestInterval : Nat := 100
  maxVirtualStages : Nat := 4
  momentBf16 : Bool := false
  untouchedDecay : Bool := false
  earlyMode : Bool := false
  bubblePolicy : Nat := 0
deriving DecidableEq, Repr

/-- Timeouts, Table 2.17 (R63). -/
structure TimeoutCfg where
  voteTimeoutUs : Nat := 1000
  deadTargetMs : Nat := 10
  saturationWindowUs : Nat := 100000
deriving DecidableEq, Repr

/-- The locked blueprint (R69): header values and every record. -/
structure Blueprint where
  securityVersion : Nat
  buildId : W64
  keySlot : Nat
  records : Nat
  skipped : Nat
  debugOpen : Bool
  parts : List PartCfg
  masters : List MasterCfg
  bindings : List BindCfg
  clocks : ClockCfg
  power : PowerCfg
  topo : TopoCfg
  regions : List RegionCfg
  pools : List PoolCfg
  faults : FaultCfg
  training : List TrainCfg
  timeouts : TimeoutCfg
  vendor : List W64            -- R64: only its framing is checked
  image : List W64             -- bytes 0 to IMAGE_LENGTH - 1, for the measurement of R70
deriving DecidableEq, Repr

/-- What BP_FAIL reports of one slot (R73, R621): the stage, the record type and the word. -/
structure BpFail where
  stage : Nat
  type : Nat
  word : Nat
deriving DecidableEq, Repr

/-- One record of an image: its header word and its body (R29). -/
structure Rec where
  hdr : W64
  body : List W64
deriving DecidableEq, Repr

/-- An owner or vendor key slot (R34, R583): programmed, its SHA-384 hash, its revoke bit. -/
structure KeySlot where
  programmed : Bool
  hash : Digest
  revoked : Bool
deriving DecidableEq, Repr

end Sys2Proof.Machine
end

