-- ==== Sys2Proof/Machine/Blueprint.lean ====
section
/-! DEFINITION. Machine/Blueprint.lean: reading and validating a blueprint image through the seven stages of Table 2.18,
with the record and word that BP_FAIL names (02_blueprint.md R28 to R65, R621). -/
namespace Sys2Proof.Machine

/-- Record header fields (Table 2.2). -/
def Rec.type (r : Rec) : Nat := fld r.hdr 15 0
/-- FORMAT of Table 2.2. -/
def Rec.format (r : Rec) : Nat := fld r.hdr 23 16
/-- MUST_UNDERSTAND of Table 2.2. -/
def Rec.must (r : Rec) : Bool := bit r.hdr.toNat 24
/-- Word `i` of a body; a word past its end reads zero. -/
def Rec.w (r : Rec) (i : Nat) : W64 := r.body.getD i 0

/-- The record types of Table 2.3 (R32). -/
def knownTypes : List Nat :=
  [0x0001, 0x0010, 0x0020, 0x0021, 0x0030, 0x0040, 0x0050, 0x0051, 0x0060, 0x0070, 0x0080, 0x0090, 0x00F0]

/-- The mandatory record types of Table 2.3. -/
def mandatoryTypes : List Nat := [0x0001, 0x0010, 0x0020, 0x0021, 0x0050, 0x0060]

/-- The body length in bytes that Table 2.3 gives a known record; the counted records read their count in word 0. -/
def bodyLengthOk (type len : Nat) (w0 : W64) : Bool :=
  match type with
  | 0x0001 => len == 224
  | 0x0010 => len == 8 + 32 * fld w0 2 0
  | 0x0020 => len == 8 + 8 * fld w0 7 0
  | 0x0021 => len == 8 + 8 * fld w0 7 0
  | 0x0030 => len == 16
  | 0x0040 => len == 16
  | 0x0050 => len == 320
  | 0x0051 => len == 8 + 16 * fld w0 10 0
  | 0x0060 => len == 8 + 24 * fld w0 4 0
  | 0x0070 => len == 16
  | 0x0080 => len == 32
  | 0x0090 => len == 8
  | 0x00F0 => 8 ≤ len && len ≤ 65528 && len % 8 == 0
  | _ => len % 8 == 0

/-- A record the module skips (R30): unknown TYPE or FORMAT other than 0x01, with MUST_UNDERSTAND 0. -/
def Rec.skip (r : Rec) : Bool := !(knownTypes.contains r.type && r.format == 1)

/-- IMAGE_LENGTH in words of an image (Table 2.4 w1 63:32); the header record's body starts at word 1. -/
def imageWords (img : List W64) : Nat := fld (img.getD 2 0) 63 32 / 8

/-- Stage 5, record by record in image order (R621): `prev` is the last TYPE, `ws` what is left of the image. -/
def splitRecords : Nat → Nat → List W64 → Except BpFail (List Rec)
  | _, _, [] => .ok []
  | 0, _, _ => .ok []
  | fuel + 1, prev, hdr :: ws =>
    let type := fld hdr 15 0
    let len := fld hdr 63 32
    let bad : Except BpFail (List Rec) := .error ⟨5, type, 0xFFE⟩
    let known := knownTypes.contains type && fld hdr 23 16 == 1
    if type ≤ prev then bad
    else if !known && bit hdr.toNat 24 then bad
    else if len % 8 != 0 || ws.length < len / 8 then bad
    else if known && !bodyLengthOk type len (ws.getD 0 0) then bad
    else
      match splitRecords fuel type (ws.drop (len / 8)) with
      | .ok rs => .ok (⟨hdr, ws.take (len / 8)⟩ :: rs)
      | .error e => .error e

/-- The first failing check of a list of (word, holds), in image order. -/
def firstBad (stage type : Nat) : List (Nat × Bool) → Option BpFail
  | [] => none
  | (w, ok) :: r => if ok then firstBad stage type r else some ⟨stage, type, w⟩

/-- Reserved bits [hi:lo] of a word are zero (R33). -/
def rz (w : W64) (hi lo : Nat) : Bool := fld w hi lo == 0

/-- A field within a range. -/
def inRange (v lo hi : Nat) : Bool := lo ≤ v && v ≤ hi

/-- Stage 6 of one known record (R33, Tables 2.4 to 2.17): (word, holds) in image order. -/
def fieldChecks (r : Rec) (present : Nat) : List (Nat × Bool) :=
  let w := r.w
  match r.type with
  | 0x0001 =>
    [(0, inRange (fld (w 0) 15 0) 6 13),
     (3, rz (w 3) 51 51 && rz (w 3) 48 48 && rz (w 3) 39 34 && rz (w 3) 31 0)]
  | 0x0010 =>
    (0, rz (w 0) 63 9 && rz (w 0) 7 3 && inRange (fld (w 0) 2 0) 1 4) ::
    (List.range (fld (w 0) 2 0)).flatMap fun n =>
      let e := fun k => w (1 + 4 * n + k)
      [(1 + 4 * n, rz (e 0) 31 12 && rz (e 0) 7 2 && inRange (fld (e 0) 39 32) 20 36 && fld (e 0) 1 0 == n),
       (2 + 4 * n, rz (e 1) 63 33), (3 + 4 * n, rz (e 2) 63 33), (4 + 4 * n, rz (e 3) 63 36)]
  | 0x0020 =>
    (0, rz (w 0) 63 8 && inRange (fld (w 0) 7 0) 1 6) ::
    (List.range (fld (w 0) 7 0)).map fun n =>
      (1 + n, rz (w (1 + n)) 63 40 && rz (w (1 + n)) 27 24 && rz (w (1 + n)) 15 8)
  | 0x0021 =>
    (0, rz (w 0) 63 8 && inRange (fld (w 0) 7 0) 1 60) ::
    (List.range (fld (w 0) 7 0)).map fun n =>
      let e := w (1 + n)
      (1 + n, rz e 63 30 && rz e 25 24 && rz e 7 6 && fld e 5 0 ≤ 59)
  | 0x0030 =>
    [(0, rz (w 0) 63 20 && rz (w 0) 6 6 && fld (w 0) 19 16 ≤ 6 && fld (w 0) 15 11 ≤ 16
        && fld (w 0) 9 8 ≤ 2 && fld (w 0) 5 3 ≤ 5 && fld (w 0) 2 0 ≤ 5),
     (1, rz (w 1) 63 16 && inRange (fld (w 1) 15 0) 10 10000)]
  | 0x0040 =>
    [(0, rz (w 0) 39 33 && rz (w 0) 31 24 && inRange (fld (w 0) 63 48) 8 256 && fld (w 0) 47 40 ≤ 64
        && inRange (fld (w 0) 23 16) 1 30 && inRange (fld (w 0) 15 0) 1200 2600),
     (1, rz (w 1) 63 32)]
  | 0x0050 =>
    [(0, rz (w 0) 63 48 && rz (w 0) 34 12 && inRange (fld (w 0) 47 40) 1 64 && fld (w 0) 39 36 ≤ 3),
     (1, rz (w 1) 47 42 && rz (w 1) 39 32)] ++
    (List.range 36).map fun k =>
      let e := w (4 + k)
      (4 + k, rz e 63 32 && rz e 30 28 && rz e 5 4 && fld e 3 2 ≤ 2 && fld e 1 0 ≤ 2 && fld e 23 18 ≤ 35)
  | 0x0051 =>
    (0, rz (w 0) 63 11 && fld (w 0) 10 0 ≤ 1024) ::
    (List.range (fld (w 0) 10 0)).flatMap fun n =>
      let e0 := w (1 + 2 * n)
      let e1 := w (2 + 2 * n)
      [(1 + 2 * n, rz e0 23 18 && rz e0 15 3 && fld e0 63 32 != 0),
       (2 + 2 * n, fld e1 63 48 != 0 && fld e1 47 0 % 0x200000 == 0)]
  | 0x0060 =>
    (0, rz (w 0) 63 5 && inRange (fld (w 0) 4 0) 1 16) ::
    (List.range (fld (w 0) 4 0)).flatMap fun n =>
      let e0 := w (1 + 3 * n)
      let e1 := w (2 + 3 * n)
      let e2 := w (3 + 3 * n)
      [(1 + 3 * n, rz e0 31 29 && rz e0 23 14 && rz e0 10 10 && inRange (fld e0 63 32) 1 16777216
          && inRange (fld e0 28 24) 6 24 && fld e0 12 11 ≤ 2 && fld e0 7 4 ≤ 2),
       (2 + 3 * n, rz e1 63 48 && fld e1 47 0 % 2 ^ fld e0 28 24 == 0),
       (3 + 3 * n, rz e2 63 32)]
  | 0x0070 =>
    [(0, rz (w 0) 63 40 && inRange (fld (w 0) 39 32) 2 15 && inRange (fld (w 0) 31 0) 60 604800),
     (1, rz (w 1) 63 32 && inRange (fld (w 1) 31 16) 1 65535 && inRange (fld (w 1) 15 0) 1 65535)]
  | 0x0080 =>
    (List.range 4).map fun n =>
      (n, if present.testBit n then
            rz (w n) 31 12 && rz (w n) 4 2 && inRange (fld (w n) 11 8) 1 8 && fld (w n) 1 0 ≤ 2
          else true)
  | 0x0090 =>
    [(0, rz (w 0) 47 40 && inRange (fld (w 0) 63 48) 200 10000 && inRange (fld (w 0) 39 32) 1 50
        && inRange (fld (w 0) 31 0) 1000 60000000)]
  | _ => []

/-- Stage 6 of one record: first its header word (reported as 0xFFE), then its body; a skipped record's body is not read. -/
def fieldFail (present : Nat) (r : Rec) : Option BpFail :=
  if fld r.hdr 31 25 != 0 then some ⟨6, r.type, 0xFFE⟩
  else if r.skip then none
  else firstBad 6 r.type (fieldChecks r present)

/-- The first failure that a check finds over the records, in image order. -/
def firstFail (f : Rec → Option BpFail) : List Rec → Option BpFail
  | [] => none
  | r :: rs => match f r with
    | some e => some e
    | none => firstFail f rs

/-- Read the partitions record (R38). -/
def readParts (r : Rec) : List PartCfg :=
  (List.range (fld (r.w 0) 2 0)).map fun n =>
    let e := fun k => r.w (1 + 4 * n + k)
    { halves := fld (e 0) 63 48, cxlGiB := fld (e 0) 47 40, bar2Log2 := fld (e 0) 39 32,
      hostPorts := fld (e 0) 11 8, clusters0 := fld (e 1) 32 0, clusters1 := fld (e 2) 32 0,
      links := fld (e 3) 35 0 }

/-- Read the master table (R41). -/
def readMasters (r : Rec) : List MasterCfg :=
  (List.range (fld (r.w 0) 7 0)).map fun n =>
    let e := r.w (1 + n)
    let f := fun i => bit e.toNat i
    { mid := fld e 7 0, precedence := fld e 23 16, partitions := fld e 31 28, submit := f 32, powerCap := f 33,
      clockResync := f 34, linkControl := f 35, partitionReset := f 36, moduleReset := f 37, update := f 38,
      debug := f 39 }

/-- Read the mailbox bindings (R45). -/
def readBindings (r : Rec) : List BindCfg :=
  (List.range (fld (r.w 0) 7 0)).map fun n =>
    let e := r.w (1 + n)
    { channel := fld e 5 0, sender := fld e 15 8, receiver := fld e 23 16, wake := bit e.toNat 26,
      partitionValid := bit e.toNat 27, partition := fld e 29 28 }

/-- Read the clocks record (R48). -/
def readClocks (r : Rec) : ClockCfg :=
  let e := r.w 0
  { clkmonSource := fld e 19 16, clkmonN := fld e 15 11, syncinUse := bit e.toNat 10, role := fld e 9 8,
    refbPresent := bit e.toNat 7, maxOp := fld e 5 3, bootOp := fld e 2 0, syncIntervalUs := fld (r.w 1) 15 0 }

/-- Read the power record (R50). -/
def readPower (r : Rec) : PowerCfg :=
  let e := r.w 0
  { spinnerWindow := fld e 63 48, staggerCycles := fld e 47 40, governorEqual := bit e.toNat 32,
    windowS := fld e 23 16, capW := fld e 15 0,
    weights := (List.range 4).map fun n => fld (r.w 1) (8 * n + 7) (8 * n) }

/-- Read the links record (R53). -/
def readTopo (r : Rec) : TopoCfg :=
  { podMembers := fld (r.w 0) 47 40, topology := fld (r.w 0) 39 36, forwardEnable := bit (r.w 0).toNat 35,
    seat := fld (r.w 0) 11 0, udpPort := fld (r.w 1) 63 48, ipMode := fld (r.w 1) 41 40,
    ipv4 := fld (r.w 1) 31 0, ipv6High := r.w 2, ipv6Low := r.w 3,
    links := (List.range 36).map fun k =>
      let e := r.w (4 + k)
      { mode := fld e 1 0, role := fld e 3 2, peerSeat := fld e 17 6, peerLink := fld e 23 18,
        group := fld e 27 24, narrowAllowed := bit e.toNat 31 } }

/-- Read the region keys (R56). -/
def readRegions (r : Rec) : List RegionCfg :=
  (List.range (fld (r.w 0) 10 0)).map fun n =>
    let e0 := r.w (1 + 2 * n)
    let e1 := r.w (2 + 2 * n)
    { key := fld e0 63 32, region := fld e0 31 24, partition := fld e0 17 16, atomic := bit e0.toNat 2,
      write := bit e0.toNat 1, read := bit e0.toNat 0, size := fld e1 63 48, base := fld e1 47 0 }

/-- Read the pools (R58). -/
def readPools (r : Rec) : List PoolCfg :=
  (List.range (fld (r.w 0) 4 0)).map fun n =>
    let e0 := r.w (1 + 3 * n)
    let e1 := r.w (2 + 3 * n)
    let e2 := r.w (3 + 3 * n)
    { bufferCount := fld e0 63 32, bufferLog2 := fld e0 28 24, multiOwner := bit e0.toNat 13,
      location := fld e0 12 11, partition := fld e0 9 8, purpose := fld e0 7 4, pool := fld e0 3 0,
      base := fld e1 47 0, quota := fld e2 31 24, refuse := fld e2 23 16, hold := fld e2 15 8,
      watch := fld e2 7 0 }

/-- Read the fault thresholds (R60). -/
def readFaults (r : Rec) : FaultCfg :=
  { bucketCount := fld (r.w 0) 39 32, bucketWindowS := fld (r.w 0) 31 0, laneFecLimit := fld (r.w 1) 31 16,
    channelCeLimit := fld (r.w 1) 15 0 }

/-- Read the training policy (R61). -/
def readTraining (r : Rec) : List TrainCfg :=
  (List.range 4).map fun n =>
    let e := r.w n
    { digestInterval := fld e 63 32, maxVirtualStages := fld e 11 8, momentBf16 := bit e.toNat 7,
      untouchedDecay := bit e.toNat 6, earlyMode := bit e.toNat 5, bubblePolicy := fld e 1 0 }

/-- Read the timeouts (R63). -/
def readTimeouts (r : Rec) : TimeoutCfg :=
  { voteTimeoutUs := fld (r.w 0) 63 48, deadTargetMs := fld (r.w 0) 39 32, saturationWindowUs := fld (r.w 0) 31 0 }

/-- The stack memory size of a partition in bytes: 24 GiB a stack half (R40). -/
def PartCfg.size (p : PartCfg) : Nat := popcount p.halves 16 * 24 * 2 ^ 30

/-- The first address of partition `n`'s stack memory: the sizes of the partitions before it (R40). -/
def partBase (parts : List PartCfg) (n : Nat) : Nat := ((parts.take n).map PartCfg.size).sum

/-- The partition that holds host port `h`. -/
def portPart (parts : List PartCfg) (h : Nat) : Option Nat := parts.findIdx? fun p => p.hostPorts.testBit h

/-- The puppeteer cores and Serden engines (R46). -/
def internalMid (m : Nat) : Bool := inRange m 0x20 0x27 || inRange m 0x50 0x57

/-- The external masters a master table may name (R42). -/
def externalMid (m : Nat) : Bool := m == 0x01 || inRange m 0x10 0x13 || m == 0x40

/-- Whether two byte ranges, each (base, size), share a byte. -/
def overlap (a b : Nat × Nat) : Bool := a.1 < b.1 + b.2 && b.1 < a.1 + a.2

/-- Stage 7 of the partitions record (R39). A partition with no cluster on either die ties two fields, so it reports 0xFFF. -/
def partsConsistent (ps : List PartCfg) : List (Nat × Bool) :=
  (List.range ps.length).flatMap fun n =>
    match ps[n]? with
    | none => []
    | some p =>
      let before := ps.take n
      let free := fun (f : PartCfg → Nat) => before.all fun q => f q &&& f p == 0
      [(1 + 4 * n, p.hostPorts != 0 && p.halves != 0 && p.cxlGiB ≤ 24 * popcount p.halves 16
          && free PartCfg.hostPorts && free PartCfg.halves),
       (2 + 4 * n, free PartCfg.clusters0),
       (3 + 4 * n, free PartCfg.clusters1),
       (0xFFF, p.clusters0 != 0 || p.clusters1 != 0),
       (4 + 4 * n, free PartCfg.links)]

/-- Stage 7 of the master table (R42). -/
def mastersConsistent (ps : List PartCfg) (ms : List MasterCfg) : List (Nat × Bool) :=
  (List.range ms.length).map fun n =>
    (1 + n, match ms[n]? with
      | none => true
      | some m =>
        let host := inRange m.mid 0x10 0x13
        externalMid m.mid && (ms.take n).all (fun q => q.mid != m.mid && q.precedence != m.precedence)
          && (!host || (match portPart ps (m.mid - 0x10) with
                | some p => m.partitions == 2 ^ p
                | none => false))
          && (!m.submit || host) && !(m.update && m.mid == 0x40))

/-- Stage 7 of the mailbox bindings (R46). -/
def bindingsConsistent (ps : List PartCfg) (ms : List MasterCfg) (bs : List BindCfg) : List (Nat × Bool) :=
  (List.range bs.length).map fun n =>
    (1 + n, match bs[n]? with
      | none => true
      | some b =>
        let listed := fun m => internalMid m || ms.any fun e => e.mid == m
        let hostOk := fun m => !inRange m 0x10 0x13 ||
          (b.partitionValid && portPart ps (m - 0x10) == some b.partition)
        (bs.take n).all (fun q => q.channel != b.channel) && b.sender != b.receiver
          && listed b.sender && listed b.receiver && (internalMid b.sender || internalMid b.receiver)
          && (!b.partitionValid || b.partition < ps.length) && hostOk b.sender && hostOk b.receiver
          && (!b.wake || internalMid b.receiver))

/-- Stage 7 of the links record (R54, and the last rule of R39, reported against the later record). An IPv6 address that is all zero ties
two words and reports 0xFFF (log 11). -/
def topoConsistent (ps : List PartCfg) (t : TopoCfg) : List (Nat × Bool) :=
  let eth := t.links.any fun l => l.mode == 2
  let member := t.seat % 64
  [(0, decide (member < t.podMembers)),
   (1, !eth || (t.ipMode != 0 && t.udpPort != 0 && (!t.ipMode.testBit 0 || t.ipv4 != 0))),
   (0xFFF, !eth || !t.ipMode.testBit 1 || t.ipv6High != 0 || t.ipv6Low != 0)] ++
  (List.range t.links.length).map fun k =>
    (4 + k, match t.links[k]? with
      | none => true
      | some l =>
        let mesh := l.mode == 1 && l.role == 0
        (l.mode != 0 || ps.all fun p => !p.links.testBit k)
          && ((l.role == 2) == (l.mode == 2))
          && (!mesh || (l.peerSeat / 64 == t.seat / 64 && l.peerSeat % 64 < t.podMembers && l.peerSeat % 64 != member))
          && (!(l.role == 1 || l.mode == 2) || (l.peerSeat == 0 && l.peerLink == 0))
          && (l.group == 15 || (mesh && (t.links.take k).all fun q => q.group != l.group || q.peerSeat == l.peerSeat)))

/-- Stage 7 of the region keys (R57). -/
def regionsConsistent (ps : List PartCfg) (rs : List RegionCfg) : List (Nat × Bool) :=
  (List.range rs.length).flatMap fun n =>
    match rs[n]? with
    | none => []
    | some r =>
      let mine := (rs.take n).filter fun q => q.partition == r.partition
      let range := fun (q : RegionCfg) => (q.base, q.size * 0x200000)
      let base := partBase ps r.partition
      let size := ((ps[r.partition]?).map PartCfg.size).getD 0
      [(1 + 2 * n, r.partition < ps.length && (r.read || r.write || r.atomic)
          && mine.all (fun q => q.region != r.region) && mine.length < 256),
       (2 + 2 * n, base ≤ r.base && r.base + r.size * 0x200000 ≤ base + size
          && mine.all fun q => !overlap (range q) (range r))]

/-- A pool threshold in buffers (R59). -/
def poolThreshold (p : PoolCfg) (t : Nat) : Nat := p.bufferCount * t / 256

/-- A pool's memory lies where its LOCATION allows (R59): the partition's stack memory, or the physical 8 MiB of one
cluster-store window (Table 9.2: 0x100_0000_0000 + 0x100_0000 g, g the tile cluster) of a cluster it holds on the die. -/
def poolInside (ps : List PartCfg) (p : PoolCfg) : Bool :=
  let size := p.bufferCount * 2 ^ p.bufferLog2
  match ps[p.partition]? with
  | none => false
  | some q =>
    if p.location == 2 then
      partBase ps p.partition ≤ p.base && p.base + size ≤ partBase ps p.partition + q.size
    else
      let g := (p.base - 0x10000000000) / 0x1000000
      let off := (p.base - 0x10000000000) % 0x1000000
      let held := if p.location == 0 then q.clusters0 else q.clusters1
      0x10000000000 ≤ p.base && g / 32 == p.location && held.testBit (g % 32) && off + size ≤ 0x800000

/-- Stage 7 of the pools (R59). -/
def poolsConsistent (ps : List PartCfg) (qs : List PoolCfg) : List (Nat × Bool) :=
  ((List.range qs.length).flatMap fun n =>
    match qs[n]? with
    | none => []
    | some p =>
      let range := fun (q : PoolCfg) => (q.base, q.bufferCount * 2 ^ q.bufferLog2)
      let th := poolThreshold p
      [(1 + 3 * n, (qs.take n).all (fun q => q.pool != p.pool) && p.partition < ps.length),
       (2 + 3 * n, poolInside ps p && (qs.take n).all fun q => !overlap (range q) (range p)),
       (3 + 3 * n, 0 < th p.watch && th p.watch < th p.hold && th p.hold < th p.refuse
          && (p.quota == 0 || 1 ≤ th p.quota))]) ++
  (List.range ps.length).map fun n => (0xFFF, qs.any fun p => p.partition == n && p.purpose == 0)

/-- The record of a type among those accepted. -/
def findRec (rs : List Rec) (type : Nat) : Option Rec := rs.find? fun r => r.type == type && !r.skip

/-- A value read from an optional record, or its Reset column (R31). -/
def optRec {α : Type} (rs : List Rec) (type : Nat) (f : Rec → α) (absent : α) : α :=
  match findRec rs type with
  | some r => f r
  | none => absent

/-- A value read from a mandatory record. -/
def manRec {α : Type} (rs : List Rec) (type : Nat) (f : Rec → α) : α := f ((findRec rs type).getD ⟨0, []⟩)

/-- The blueprint that the records of an image spell (R31: absent records take the Reset column). -/
def readBlueprint (img : List W64) (rs : List Rec) : Blueprint :=
  let hdr := fun i => img.getD (1 + i) 0
  let parts := manRec rs 0x0010 readParts
  let kept := rs.filter fun r => !r.skip
  { securityVersion := fld (hdr 1) 31 0, buildId := hdr 2, keySlot := fld (hdr 3) 33 32,
    records := kept.length, skipped := rs.length - kept.length,
    debugOpen := manRec rs 0x0010 fun r => bit (r.w 0).toNat 8,
    parts, masters := manRec rs 0x0020 readMasters, bindings := manRec rs 0x0021 readBindings,
    clocks := optRec rs 0x0030 readClocks {},
    power := optRec rs 0x0040 readPower
      { weights := (List.range 4).map fun n => if n < parts.length then 1 else 0 },
    topo := manRec rs 0x0050 readTopo,
    regions := optRec rs 0x0051 readRegions [], pools := manRec rs 0x0060 readPools,
    faults := optRec rs 0x0070 readFaults {},
    training := optRec rs 0x0080 readTraining [{}, {}, {}, {}],
    timeouts := optRec rs 0x0090 readTimeouts {},
    vendor := optRec rs 0x00F0 Rec.body [], image := img }

/-- Stage 7 of one record (R39, R42, R46, R49, R51, R54, R57, R59, R62). -/
def consistencyFail (b : Blueprint) (r : Rec) : Option BpFail :=
  let n := b.parts.length
  let checks :=
    match r.type with
    | 0x0010 => partsConsistent b.parts
    | 0x0020 => mastersConsistent b.parts b.masters
    | 0x0021 => bindingsConsistent b.parts b.masters b.bindings
    | 0x0030 => [(0, b.clocks.maxOp ≤ b.clocks.bootOp && (!b.clocks.syncinUse || b.clocks.role == 2))]
    | 0x0040 => [(1, (List.range 4).all fun k =>
        let w := b.power.weights.getD k 0
        if k < n then 1 ≤ w else w == 0)]
    | 0x0050 => topoConsistent b.parts b.topo
    | 0x0051 => regionsConsistent b.parts b.regions
    | 0x0060 => poolsConsistent b.parts b.pools
    | 0x0080 => (List.range 4).map fun k =>
        (k, match b.training[k]? with
          | some t => !(k < n) || !t.momentBf16 || t.earlyMode
          | none => true)
    | _ => []
  if r.skip then none else firstBad 7 r.type checks

/-- The image with the 96 bytes of SIGNATURE replaced by zeros (R35): body words w16 to w27 of the header record. -/
def zeroSignature (img : List W64) : List W64 := img.take 17 ++ List.replicate 12 0 ++ img.drop 29

/-- Stage 1 (R65): the frame. An erased or short slot fails here. -/
def frameFail (slot : List W64) : Option BpFail :=
  let h := slot.getD 0 (BitVec.allOnes 64)
  let w0 := slot.getD 1 (BitVec.allOnes 64)
  let len := fld (slot.getD 2 (BitVec.allOnes 64)) 63 32
  if fld h 15 0 != 0x0001 || fld h 23 16 != 1 then some ⟨1, 0, 0xFFE⟩
  else if fld w0 63 32 != 0x50424D57 || fld w0 31 16 != 0x0001 then some ⟨1, 0, 0x000⟩
  else if len % 8 != 0 || !inRange len 232 1048576 then some ⟨1, 0, 0x001⟩
  else none

/-- The words of the image, read from its slot up to IMAGE_LENGTH; flash past what was written reads erased (R27, R28). -/
def imageOf (slot : List W64) : List W64 :=
  let n := imageWords slot
  slot.take n ++ List.replicate (n - slot.length) (BitVec.allOnes 64)

/-- Stage 2 (R35): the key slot, the signer's hash, the signature. -/
def authFail (img : List W64) (keys : List KeySlot) : Option BpFail :=
  let key := (img.drop 5).take 12
  let k := keys.getD (fld (img.getD 4 0) 33 32) ⟨false, 0, false⟩
  if !k.programmed || k.revoked then some ⟨2, 0, 0x003⟩
  else if Config.sha384 key != k.hash then some ⟨2, 0, 0x004⟩
  else if !Config.ecdsaVerify key (Config.sha384 (zeroSignature img)) ((img.drop 17).take 12) then
    some ⟨2, 0, 0x010⟩
  else none

/-- Compatibility of R37 for MIN_REV fields at revision A1: (letter, number) at most (0xA, 0x1), letter first. -/
def revOk (letter number : Nat) : Bool := letter < 0xA || (letter == 0xA && number ≤ 1)

/-- Stage 4 (R37). -/
def compatible (w3 : W64) (gradeF : Bool) : Bool :=
  fld w3 63 52 == 0x084 && (if gradeF then bit w3.toNat 50 else bit w3.toNat 49) && revOk (fld w3 47 44) (fld w3 43 40)

/-- Stages 5 to 7 of Table 2.18 on an image that is authentic. -/
def validateRecords (img : List W64) : Except BpFail Blueprint :=
  match splitRecords img.length 0 img with
  | .error e => .error e
  | .ok rs =>
    match mandatoryTypes.find? fun t => (findRec rs t).isNone with
    | some t => .error ⟨5, t, 0xFFF⟩
    | none =>
      if fld (img.getD 1 0) 15 0 != rs.length then .error ⟨5, 0x0001, 0x000⟩
      else
        let b := readBlueprint img rs
        let present := 2 ^ b.parts.length - 1
        match firstFail (fieldFail present) rs with
        | some e => .error e
        | none =>
          match firstFail (consistencyFail b) rs with
          | some e => .error e
          | none => .ok b

/-- Validation of one blueprint slot through the stages of Table 2.18 (R65): the first failure rejects it whole. -/
def validateBlueprint (slot : List W64) (keys : List KeySlot) (floor : Nat) (gradeF : Bool) : Except BpFail Blueprint :=
  match frameFail slot with
  | some e => .error e
  | none =>
    let img := imageOf slot
    match authFail img keys with
    | some e => .error e
    | none =>
      if fld (img.getD 2 0) 31 0 < floor then .error ⟨3, 0, 0x001⟩
      else if !compatible (img.getD 4 0) gradeF then .error ⟨4, 0, 0x003⟩
      else validateRecords img

end Sys2Proof.Machine
end

