-- ==== Sys2Proof/Machine/FabricTypes.lean ====
section
/-! DEFINITION. Machine/FabricTypes.lean: Dranto links, packets, outstanding requests and DMT flows as plain data
(12_dranto_fabric.md). -/
namespace Sys2Proof.Machine

/-- A packet (R432): its header and its payload slots, 16 bytes each. -/
structure Packet where
  h0 : W64
  h1 : W64
  data : List Byte
deriving DecidableEq, Repr

/-- A DATA flit in the retry buffer (R431): its number, its slots 1 to 15 as 30 words, and the packet that begins in it. -/
structure TxFlit where
  seq : Nat
  slots : List W64
  head : Option Packet
deriving DecidableEq, Repr

/-- A link (R422 to R438, R468 to R476). -/
structure Link where
  state : Nat := 0           -- Table 12.3
  cause : Nat := 0
  lanePair : Nat := 0
  peerSeat : Nat := 0
  peerLink : Nat := 0
  peerForward : Bool := false    -- FORWARD_ENABLE learned under R428
  identified : Bool := false     -- the peer's identity flit has been checked in this attempt
  downCount : Nat := 0
  attempts : Nat := 0        -- TRAIN_ATTEMPTS
  tries : Nat := 0           -- failed attempts of this training
  stage : Nat := 0           -- stage of Table 12.4 that runs; 0 none
  waiting : Bool := false    -- the 10 ms after a failed attempt
  inA : Bool := false        -- in route table A
  inB : Bool := false        -- in route table B
  txSeq : Nat := 0           -- SEQ of the next DATA flit
  retry : List TxFlit := []  -- not yet acknowledged, oldest first
  rxSeq : Nat := 4095        -- SEQ accepted last
  rxValid : Bool := false
  gap : Bool := false        -- NAK is set
  naks : Nat := 0            -- NAKs received for the same ACK_SEQ
  nakSeq : Nat := 0
  crcRun : Nat := 0          -- consecutive flits that failed their CRC
  rxLeft : Nat := 0          -- slots of the packet under way that are still to come
  rxWords : List W64 := []   -- what of it has come
  owed : List Nat := []      -- VL3: slots of packets whose credit waits for a reservation (R332, R434)
  given : Nat := 0           -- VL3: slots of credit returned against the reservations its receiver holds
  rxWhole : Nat := 4095      -- SEQ of the last flit delivered that ended a whole packet
  freed : List Nat := [0, 0, 0, 0, 0]        -- slots freed, running counts
  peerFreed : List Nat := [0, 0, 0, 0, 0]    -- CREDIT fields received last
  avail : List Nat := [2048, 2048, 2048, 2048, 256]   -- free slots at the peer (R435)
  txq : List Packet := []    -- packets that wait for credit or the retry buffer
  ptr : Nat := 0             -- deficit round robin (R436)
  deficit : List Nat := [32, 0, 0, 0]
  hold4 : Nat := 0           -- flits of other lanes that go before the next of VL4 (R436)
  sat : List Nat := []       -- virtual lanes in the saturated state (R438)
  reach : W64 := 0           -- REACH of the peer's last heartbeat
  handover : Bool := false   -- waits for HANDOVER (R469)
  switchAt : Option W64 := none      -- count of a route switch agreed (R471)
  proposed : Option W64 := none      -- count proposed by this end
  widen : Bool := false      -- fit for a switch to four lanes (R472)
  narrowTo : Nat := 0        -- lane pair under NARROWING
  narrowCause : Nat := 1
  protocolErrors : Nat := 0
  lateResponses : Nat := 0
  noRouteDrops : Nat := 0
  retryAbandoned : Nat := 0
  resent : Nat := 0
  fecCorrected : Nat := 0
  dmtResent : Nat := 0
  dmtDiscards : Nat := 0
  nextHop : Option Nat := none       -- MAC address given by the fabric manager (R465)
deriving DecidableEq, Repr

/-- What the bytes of a request's answer are for. -/
inductive ReqUse where
  /-- READ: where its data goes -/
  | read (dest : Nat)
  /-- WRITE -/
  | write
  /-- ATOMIC: where old values go, if anywhere -/
  | atomic (ret : Option Nat)
  /-- CHAN_WRITE -/
  | chan
  /-- an atomic of a Domino engine for a descriptor (R488) -/
  | engine (cdesc : Nat)
  /-- READ of a COPY between two regions: where its data is written (R276) -/
  | forward (member key addr : Nat)
deriving DecidableEq, Repr

/-- An outstanding request (R437, R453). -/
structure FabReq where
  tag : Nat
  part : Nat
  job : Nat
  tile : Nat
  entry : Nat            -- id of the fetcher's queue entry
  member : Nat
  opcode : Nat
  key : Nat
  addr : Nat
  len : Nat              -- bytes
  use : ReqUse
  since : W64
  link : Option Nat := none      -- CHAN_WRITE: the link it was sent on (R469, R471)
deriving DecidableEq, Repr

/-- An entry of the crossbar's combining table (R450 to R452): the request that went on, and the requests combined with it, as
(member, tag). -/
structure Combine where
  src : Nat
  tag : Nat
  member : Nat
  opcode : Nat
  key : Nat
  addr : Nat
  len : Nat
  since : W64
  others : List (Nat × Nat) := []
deriving DecidableEq, Repr

/-- The second half of a COPY between two regions (R276): data that was read, to be written. -/
structure CopyOut where
  part : Nat
  job : Nat
  tile : Nat
  member : Nat
  key : Nat
  addr : Nat
  data : List Byte
deriving DecidableEq, Repr

/-- A DMT segment (R459): its number, LAST, inner header and data. -/
structure Seg where
  psn : Nat
  last : Bool
  h0 : W64
  h1 : W64
  data : List Byte
  sent : W64 := 0        -- count at which it was sent last
  since : W64 := 0       -- count since which it waits for its answer (R453)
  out : Bool := false    -- has been sent
  sacked : Bool := false
deriving DecidableEq, Repr

/-- The sending side of a flow (R460 to R464). -/
structure TxFlow where
  part : Nat
  seat : Nat
  cls : Nat
  flow : Nat
  next : Nat := 0
  segs : List Seg := []      -- not acknowledged, oldest first
  window : Nat := 63         -- highest PSN that may be sent
  srtt : Nat := 0            -- ns; 0 = no sample yet
  rate : Nat := 100000000000 -- bytes per second
deriving DecidableEq, Repr

/-- The receiving side of a flow (R462). -/
structure RxFlow where
  part : Nat
  seat : Nat
  cls : Nat
  flow : Nat
  next : Nat := 0
  held : List Seg := []
  window : Nat := 63         -- WINDOW sent last
  unacked : Nat := 0         -- DATA packets since the last ACK
  cnpAt : Option W64 := none
deriving DecidableEq, Repr

/-- A region lookup that waits (R447): the job, the member and key. -/
structure Resolve where
  part : Nat
  job : Nat
  member : Nat
  key : Nat
deriving DecidableEq, Repr

/-- A message with a chunk that an engine has formed (R495): the engine's die, partition and job, its seat, its chunk, its header words
and its data. -/
structure Chunk where
  die : Nat
  part : Nat
  job : Nat
  seat : Nat
  chunk : Nat
  words : List W64
  data : List Byte
deriving DecidableEq, Repr

/-- A message with a chunk that an engine has sent (R495): in the pod its stream, over DMT the last PSN that its flow gave it. -/
structure Ahead where
  die : Nat
  part : Nat
  seat : Nat
  chunk : Nat
  dmt : Bool
  id : Nat
deriving DecidableEq, Repr

/-- The fabric of the module. -/
structure Fabric where
  links : List Link := List.replicate 36 {}
  tableB : Bool := false         -- the table in force
  reqs : List FabReq := []
  nextTag : Nat := 0
  nextStream : Nat := 0
  tx : List TxFlow := []
  rx : List RxFlow := []
  resolves : List Resolve := []
  seats : List (Nat × W64) := []     -- IP addresses of seats (R465)
  segment : Nat := 8192          -- segment size (R459)
  dscp : List Nat := [0, 0, 0, 0, 0]     -- by class
  pfc : Bool := false
  fmLink : Option Nat := none    -- link on which the fabric manager last reached the agent (R44)
  fmAddr : Option Nat := none    -- address from which the fabric manager last reached the agent (R44)
  fmOrderFrom : Nat := 0         -- source address of the message whose order the slot of 0x40 holds (R44)
  combines : List Combine := []  -- the combining table of the crossbar (R452)
  copies : List CopyOut := []    -- writes of COPYs between regions, to be sent
  carried : List (Nat × Nat × Nat) := []         -- requests of peers that were forwarded: source member, tag, link (R317)
  streams : List (Nat × Nat × Nat × Nat) := []   -- messages under way here: source member, stream, virtual lane, i of R317
  chunks : List Chunk := []      -- messages with a chunk that wait for their engine to send them, oldest first (R495)
  ahead : List Ahead := []       -- those sent that nothing has freed yet (R495)
  combinedReads : Nat := 0
  combinedAtomics : Nat := 0
  echoes : Nat := 0
  echoSecond : Nat := 0
deriving DecidableEq, Repr

end Sys2Proof.Machine
end

