-- ==== Sys2Proof/Machine/FaultTypes.lean ====
section
/-! DEFINITION. Machine/FaultTypes.lean: sparing and fault records as plain data (14_determinism_faults_recovery.md). -/
namespace Sys2Proof.Machine

/-- A spare core (Table 14.8): STATE 0 free, 1 serving, 2 out of service, 3 under test. -/
structure Spare where
  state : Nat := 0
  serves : Nat := 0
  part : Nat := 0
  emulating : Bool := false
  deferred : Bool := false
  swaps : Nat := 0
  heldUs : Nat := 0
deriving DecidableEq, Repr

/-- A targeted self-test that runs or waits for one of its tile to end (R530, R534): the tile it holds, if any; `retest` for a unit out
of service or suspect (R544). -/
structure UnderTest where
  unit : TestUnit
  tile : Option Nat
  retest : Bool
deriving DecidableEq, Repr

/-- Clockwork counts kept of a unit, newest first: its transients (R531), or its corrected errors of the last hour (R529). -/
structure Bucket where
  unit : TestUnit
  times : List W64
deriving DecidableEq, Repr

/-- What a swap answers (R538, R539): a datapath fault or a core store fault lasting by test, or a fault lasting by bucket. -/
inductive SwapKind where
  /-- a unit of the datapath, lasting by test -/
  | datapath
  /-- the core store, lasting by test -/
  | coreStore
  /-- lasting by bucket: the core kept its work until the boundary -/
  | deferred
deriving DecidableEq, Repr

/-- A swap in progress (R537): the position and the spare, as core indices, and the tile that is HELD. -/
structure Swap where
  position : Nat
  spare : Nat
  tile : Option Nat
  kind : SwapKind
deriving DecidableEq, Repr

/-- Fault state (R528 to R544). -/
structure Faults where
  spares : List Spare                  -- 32: spare i of die d at 16 d + i
  extra : List (Nat × Spare)           -- core positions that rejoined as spares (R544), by core index
  out : List TestUnit                  -- units out of service
  lost : List Nat                      -- positions out of service that no spare serves and whose tile stays HELD (R539)
  suspects : List TestUnit             -- units in service as suspect
  tests : List UnderTest               -- oldest first
  swaps : List Swap
  buckets : List Bucket
  old : List (Nat × Option W64)        -- transients rebuilt at start by UNIT code (R532); none counts for the whole boot
  ce : List Bucket                     -- corrected errors
  lasting : Nat                        -- lasting faults since module reset
  leaves : List (TestUnit × Nat)       -- times a unit has left service since module reset
  passed : List TestUnit               -- units out of service that passed a retest and wait for their boundary
  rows : List (Nat × Nat)              -- spare rows used, by (channel x 2 + pseudo-channel) x 256 + bank
  banks : List Nat                     -- pseudo-channels, channel x 2 + pseudo-channel, whose spare bank is in use
  copying : List Nat                   -- banks whose copy to the spare bank runs, as in `rows`
deriving DecidableEq, Repr

/-- Faults after module reset (R540, R541). -/
def Faults.reset : Faults :=
  { spares := List.replicate 32 {}, extra := [], out := [], lost := [], suspects := [], tests := [], swaps := [], buckets := [],
    old := [], ce := [], lasting := 0, leaves := [], passed := [], rows := [], banks := [], copying := [] }

end Sys2Proof.Machine
end

