-- ==== Sys2Proof/Machine/PlatformTypes.lean ====
section
/-! DEFINITION. Machine/PlatformTypes.lean: the state of the always-on domain, power-up, flash, fuses, boot, clocks and
Clockwork, test access, management and update (03, 04, 16, 17), as plain data. Counts are numbers whose width is said. -/
namespace Sys2Proof.Machine

/-- One event (R175): Clockwork count, code, unit, how many it stands for (REPEAT), and DETAIL w2 and w3. -/
structure Event where
  count : W64
  code : Nat
  unit : Nat
  rep : Nat := 1
  w2 : W64 := 0
  w3 : W64 := 0
deriving DecidableEq, Repr

/-- The overflow count of an event class (R176): how many events it stands for, and of the entries of at most 0xFFFF that will report
them the Clockwork count at the first event of each (R175). -/
structure Overflow where
  cls : Nat
  count : Nat
  starts : List W64
deriving DecidableEq, Repr

/-- WAKE_STATUS (R81): attempts made, RESULT, RAIL and the four attempt bytes (step, cause). -/
structure WakeStatus where
  attempts : Nat := 0
  result : Nat := 0
  rail : Nat := 0xFF
  bytes : List (Nat × Nat) := [(0, 0), (0, 0), (0, 0), (0, 0)]
deriving DecidableEq, Repr

/-- One update journal entry, Table 16.10 (R587). -/
structure JEntry where
  seq : Nat := 0
  stage : Nat := 0
  fw : Bool := false           -- COMPONENTS bit 58
  bp : Bool := false           -- COMPONENTS bit 59
  fwTarget : Bool := false     -- false A, true B
  bpTarget : Bool := false
  trialBoots : Nat := 0
  updater : Nat := 0
  bootCount : Nat := 0
  trialStart : W64 := 0
  fwVersion : Nat := 0
  bpVersion : Nat := 0
  fwDigest : Digest := 0
  bpDigest : Digest := 0
deriving DecidableEq, Repr

/-- The supply selector (R101). -/
structure Selector where
  onCell : Bool := false       -- the source in use: backup cell or standby converter
  switching : Bool := false    -- a switch to the other source is in progress
  qualifying : Bool := false   -- the 10 ms at or above 39.0 V are being counted
  inputChanged : Bool := false -- the input changed during the switch in progress
deriving DecidableEq, Repr

/-- The always-on domain (R99, Table 3.10) and the state its logic keeps. -/
structure Aon where
  log : List Event             -- event log ring, 1,024 entries, oldest first
  logNew : Nat                 -- entries not yet copied to the archive
  bootCount : Nat              -- u32, saturating
  jPtr : Option Nat            -- journal pointer: index of a flash journal entry
  jCur : Option JEntry         -- current journal entry
  cwCount : W64                -- Clockwork backup: counter value
  cwTk : W64                   -- Clockwork backup: timekeeper count
  cwValid : Bool
  wake : WakeStatus
  canary : W32
  tripLatch : Bool             -- THERMTRIP_N latch
  straps : Nat                 -- management address straps, 3 bits
  timekeeper : W64             -- 32.768 kHz timekeeper
  tkFrac : Nat                 -- billionths of a timekeeper count gone by (timekeeper phase)
  selector : Selector
  cell : CellLevel
  -- AON_STATUS fields taken at the last module reset (R107)
  canaryLost : Bool
  journalSource : Nat
  cwValidAtReset : Bool
deriving DecidableEq, Repr

/-- Where the wake sequencer stands (R77 to R83). -/
inductive Phase where
  | standby
  | waking (step attempt : Nat)
  | retryWait (attempt : Nat)      -- the 100 ms after a failed attempt
  | safeHold
  | running                        -- after PGOOD
deriving DecidableEq, Repr

/-- Power-up state and the pins of the wake sequencer (R77 to R86, R601, R607, R609). -/
structure Wake where
  phase : Phase
  feeds : List Nat             -- the three feed voltages in mV; 0 = absent (R601)
  rails : Nat                  -- bit i = rail index i of Table 3.1 on, 9 rails
  pwrEn : Bool
  pgood : Bool
  faultN : Bool                -- true = FAULT_N asserted
  thermtripN : Bool            -- true = THERMTRIP_N asserted
  bootOsc : Bool               -- boot oscillator running
  pllLocked : Bool
  wakePending : Bool           -- PWR_EN asserted again during a power-down (R83)
  inputLost : Bool             -- the input was lost since the phase was entered (R79)
  gatesOpen : Bool             -- issue gates
  linksIdle : Bool             -- link transmitters in electrical idle
  selfRefresh : Bool           -- the stack halves that are not parked are in self-refresh
deriving DecidableEq, Repr

/-- The configuration flash (R27). Slots hold what was written from their start; past that they read erased. -/
structure Flash where
  hdr0 : List W64              -- activation header copy 0, 16 words
  hdr1 : List W64
  journal : List (Nat × List W64)   -- flash journal entries by index 0 to 511; an absent index is erased
  fwA : List W64
  fwB : List W64
  bpA : List W64
  bpB : List W64
  archive : List Event
  bpProtect : Option Bool      -- the write-protected blueprint slot (R69): false A, true B
deriving DecidableEq, Repr

/-- One floor entry: 32 value bits and an 8-bit check (R583). -/
structure FloorEntry where
  value : Nat := 0
  check : Nat := 0
deriving DecidableEq, Repr

/-- Fuses of the security core (R583). -/
structure Fuses where
  vendorKeys : List KeySlot    -- 2
  ownerKeys : List KeySlot     -- 4
  fwFloor : List FloorEntry    -- 32
  bpFloor : List FloorEntry    -- 32
deriving DecidableEq, Repr

/-- Boot and blueprint lock (R69, R72, R73, R90, R95). -/
structure Boot where
  secRunning : Bool            -- security core released
  romDone : Bool               -- the boot ROM has run since the module reset
  stage : Nat                  -- BOOT_STATUS.STAGE
  fwSlot : Bool
  fwFallback : Bool
  failed : Nat                 -- BOOT_STATUS.FAILED, 4 bits
  ready : Nat                  -- BOOT_STATUS.READY, 4 bits
  bpState : Nat                -- BP_STATUS.STATE
  bpSlot : Bool
  failA : Option BpFail        -- BP_FAIL of slot A, none = passed or not tried
  triedA : Bool
  failB : Option BpFail
  triedB : Bool
  shadow : Option Blueprint    -- the blueprint shadow
  parkedHalves : Nat           -- stack halves parked in self-refresh for the life of the blueprint (R40), as STACK_HALVES
  parkedClusters : Nat         -- tile clusters parked with their clock gated (R40), bit 33 x die + cluster
  bmr : Digest
  measurements : List Digest   -- the four of R90 kept individually
  trialThisBoot : Bool         -- a trial is running
deriving DecidableEq, Repr

/-- Reference state of Table 4.4. -/
inductive RefState where
  | onRefA | onRefB | toRefB | toRefA | clockLoss
deriving DecidableEq, Repr

/-- Phase of an operating-point step (R111). -/
inductive OpPhase where
  | idle
  | ramp (up : Bool)           -- rails ramping towards a faster (up) or slower point
  | settle                     -- the 10 µs after an upward ramp
deriving DecidableEq, Repr

/-- Clocks: reference qualification and the operating-point sequencer (R108 to R124, R139). -/
structure Clk where
  source : RefState
  qualA : Bool
  qualB : Bool
  goodA : Nat                  -- consecutive good windows, 0 to 10
  goodB : Nat
  losA : Bool                  -- loss of signal seen in the running window
  losB : Bool
  noEdgesA : Bool              -- the reference has shown no edges since its last loss of signal (R124)
  noEdgesB : Bool
  first : Option RefId         -- of the qualified references the one that qualified first (R77, R116)
  dwell : Bool                 -- REFA qualified while on REFB, 100 ms count running
  fromLoss : Bool              -- the switch in progress left the clock-loss wait
  clkmonLimit : Bool
  opPhase : OpPhase
  opTarget : Nat
  opCurrent : Nat
  opVoltHigh : Bool
  opHeld : Bool                -- holding after a failed ramp, until a new target (R114)
  fastestAllowed : Nat         -- firmware asks for no faster point (R114)
  slowestAllowed : Nat         -- firmware asks for no slower point (R114)
  switches : Nat               -- u16, saturating
  opFrom : Option Nat          -- the index a governor decision is leaving, until its event is raised (R560)
  pauses : Nat                 -- divider changes made since module reset (R112)
  gated : Bool                 -- core, crossbar and fabric clocks gated (R120)
deriving DecidableEq, Repr

/-- Sync states of Table 4.7. -/
inductive SyncState where
  | unsynced | acquiring | locked | coasting
deriving DecidableEq, Repr

/-- One measured exchange (R131), in units of 0.125 ns. -/
structure Exchange where
  offset : Int
  rtt : Int
deriving DecidableEq, Repr

/-- The Clockwork counter and its discipline (R125 to R135, R140). -/
structure Cwk where
  now : W64
  frac : Nat                   -- fraction of a count, in 2^-32 ck
  rate : Int                   -- signed rate correction, 2^-32 ck per control cycle
  state : SyncState
  offset : Int                 -- offset that last steered the counter, i32 in 0.125 ns
  refSeat : Nat                -- REF_SEAT, 12 bits
  coasts : Nat                 -- 12 bits, saturating
  syncinSeen : Bool
  filter : List Exchange       -- exchanges gathered towards 16
  inBound : Nat                -- consecutive exchanges within bound, towards 16
  coastRaised : Bool           -- clockwork-unsynchronised raised in this stay
  conflictSeat : Option Nat    -- another module of role 1 or 2 heard in the pod (R129)
  hearsSystem : Bool           -- a system reference has sent sync messages since the last interval
  outstanding : Option W64     -- t1 of the exchange in flight, in 0.125 ns
deriving DecidableEq, Repr

/-- The six TAP instructions (R615). -/
inductive TapInstr where
  | bypass | idcode | samplePreload | extest | clamp | highz
deriving DecidableEq, Repr

/-- What boundary pins do. -/
inductive PinDrive where
  | functional | cells | floating
deriving DecidableEq, Repr

/-- The IEEE 1149.1 TAP (R615): selected instruction and boundary cells; what drives the pins follows from them (`pinDrive`). -/
structure Tap where
  instr : TapInstr
  cells : List Bool
deriving DecidableEq, Repr

/-- One management event in flight or waiting, Table 16.2 and R575. -/
structure MgmtQueue where
  receiver : Option Nat        -- endpoint of the event receiver: 0 the port, 1 + n host Hn
  queue : List Event           -- up to 256
  inFlight : Bool              -- the first entry has been sent and waits for its acknowledgement
  coalesced : Nat
  overflow : List Overflow     -- per class overflow counts, as R176
  overflowed : Bool
deriving DecidableEq, Repr

/-- An SPDM connection of one endpoint (R579). -/
structure Spdm where
  version : Nat := 0           -- 0 none, 1 version agreed, 2 capabilities, 3 algorithms
  session : Bool := false
  ideActive : Bool := false
deriving DecidableEq, Repr

/-- The management port and its endpoints (R570, R571). Endpoint 0 is the port, 1 + n is host port Hn. -/
structure Mgmt where
  i3c : Bool
  dynAddr : Nat
  eids : List Nat              -- 5 endpoint identifiers, 0 = null EID
  tid : List Nat               -- 5 PLDM terminus identifiers
  events : MgmtQueue
  spdm : List Spdm             -- 5
deriving DecidableEq, Repr

/-- A component being downloaded (R589, R590). -/
structure Download where
  bp : Bool                    -- false firmware 0x0001, true blueprint 0x0002
  stamp : Nat                  -- comparison stamp
  size : Nat                   -- bytes
  received : Nat               -- bytes
deriving DecidableEq, Repr

/-- The update session (R588 to R590). -/
structure UpdSession where
  agent : Nat                  -- endpoint of the update agent
  fw : Bool                    -- components of the session
  bp : Bool
  maxTransfer : Nat
  lower : List Nat             -- components refused as lower
  download : Option Download
  fwDone : Bool                -- received in full
  bpDone : Bool
  fwVerified : Bool
  bpVerified : Bool
deriving DecidableEq, Repr

/-- Update state held by firmware (R588 to R594). -/
structure Update where
  session : Option UpdSession
  rollbackWarned : Bool        -- update-rollback-pending raised for this trial
deriving DecidableEq, Repr

/-- The telemetry mirror (R576, R577): SEQ and the words of the two halves, by offset within the half. -/
structure Mirror where
  seq : W64
  half0 : List (Nat × W64)
  half1 : List (Nat × W64)
deriving DecidableEq, Repr

end Sys2Proof.Machine
end

