-- ==== Sys2Proof/Machine/HostTypes.lean ====
section
/-! DEFINITION. Machine/HostTypes.lean: host ports, queue pairs, mailbox channels, event rings, order slots and the
partitions' own state (05_partitions_and_host_ports.md), as plain data. -/
namespace Sys2Proof.Machine

/-- Where a fetched command stands. -/
inductive CmdState where
  | fetched              -- waits to start (R171)
  | started              -- runs
  | ended                -- its completion waits to be written (R179)
deriving DecidableEq, Repr

/-- One command slot of a queue pair (R169, R178): the entry, its order in the queue, where it stands, and once ended its
completion: STATUS, RESULT, SPILLED, VARIED (R172). -/
structure Command where
  seq : Nat
  words : List W64       -- the 8 words of the submission entry
  state : CmdState := .fetched
  status : Nat := 0
  result : W64 := 0
  spilled : Bool := false
  varied : Bool := false
  slotless : Bool := false   -- ended without a command slot by a partition reset (R189)
deriving DecidableEq, Repr

/-- A queue pair (R165 to R172, R178, R179). -/
structure QueuePair where
  sqBase : W64
  cqBase : W64
  weight : Nat           -- 1 to 16
  sqLog2 : Nat           -- 4 to 12
  cqLog2 : Nat
  sqTail : Nat := 0
  sqHead : Nat := 0      -- entries fetched, as an index
  cqTail : Nat := 0
  cqHead : Nat := 0
  phase : Bool := true
  stopped : Bool := false    -- fetching stopped by an overrun or a failed fetch
  deleting : Bool := false
  deleteTag : Nat := 0       -- TAG of the QP_DELETE being served
  deleteChannel : Nat := 0   -- its request channel
  nextSeq : Nat := 0
  slots : List Command := [] -- oldest first
  endOrder : List Nat := []  -- seq of commands whose completions wait, in order
  roundUsed : Nat := 0       -- entries fetched in this round of the weighted round robin
  satSqRaised : Bool := false
  satCqRaised : Bool := false
deriving DecidableEq, Repr

/-- One host port (R144 to R153, R622). -/
structure Port where
  perst : Bool           -- PERST_N asserted
  d3 : Bool
  inReset : Bool         -- the port has been in reset since it last left it (R86, R150)
  linkUp : Bool
  rate : Nat             -- PORT_INFO.RATE
  width : Nat
  flit : Bool
  cxl : Bool
  ide : Bool
  bar2Log2 : Nat         -- current BAR2 size
  bar2Offset : Nat       -- partition offset of the window start
  masked : Nat           -- MSI-X mask, 32 bits
  pendingMsi : List Nat  -- vectors whose messages wait for the link (R622), in order
  config : List (Nat × W32)   -- other configuration registers the host wrote (R146)
  qps : List (Option QueuePair)   -- 16
deriving DecidableEq, Repr

/-- The event ring of a partition (R174 to R177). -/
structure Ring where
  base : W64 := 0
  owner : Nat := 0
  entriesLog2 : Nat := 0
  head : Nat := 0
  tail : Nat := 0
  phase : Bool := true
  coalesced : Nat := 0
  backlog : List Event := []
  overflow : List Overflow := []      -- per class, count > 0
  satIdx : List Nat := []             -- ring places of sustained-saturation entries not yet read (R608)
deriving DecidableEq, Repr

/-- A mailbox channel (R157). -/
structure Mailbox where
  bind : Option BindCfg
  refused : Nat := 0
  full : Bool := false
  length : Nat := 0
  data : List Byte       -- 256 bytes
deriving DecidableEq, Repr

/-- An order slot (R183). STATUS: 0 IDLE, 1 PENDING, 2 DONE, 3 SUPERSEDED, 4 REFUSED, 5 INVALID. -/
structure OrderSlot where
  mid : Nat
  tag : Nat := 0
  applied : Nat := 0
  kind : Nat := 0
  status : Nat := 0
deriving DecidableEq, Repr

/-- An order of the slate being gathered: its master and its word (R181, R182). -/
structure Order where
  mid : Nat
  word : W64
deriving DecidableEq, Repr

/-- A module reset that waits for its 5 ms (R186): the winning MID and the superseded MIDs of its slate (R187). -/
structure PendingReset where
  winner : Nat
  superseded : List Nat
deriving DecidableEq, Repr

/-- The order arbiter (R181 to R187). -/
structure Orders where
  slots : List OrderSlot         -- 0x01, 0x10 to 0x13, 0x40
  slate : List Order             -- orders that entered in this control cycle
  resetPending : Option PendingReset
deriving DecidableEq, Repr

/-- A partition reset in progress (R187, R189). -/
structure PartReset where
  scrub : Bool
  waiters : List Nat             -- masters whose orders complete with it
  again : Option (List Nat)      -- a scrubbing reset to run after it, with its masters
  held : Bool                    -- held by the clock-loss wait (R191)
  told : Bool := false           -- peers' requests abandoned and the fabric manager told (R189)
deriving DecidableEq, Repr

/-- A partition's spill area in host memory (R322): the port of its host, host base, length; released by a port reset. -/
structure SpillArea where
  port : Nat
  base : W64
  length : Nat
  released : Bool
deriving DecidableEq, Repr

/-- Layer digests published at the end of a run (R526): JOB, step, (slot, digest) filled. -/
structure PublishedDigests where
  job : Nat := 0
  step : W64 := 0
  digests : List (Nat × W64) := []
deriving DecidableEq, Repr

/-- A partition (R141, R154, R188, R322, R526). -/
structure Part where
  state : Nat            -- PART_STATUS.STATE: 1 self-test, 2 ready, 3 resetting, 4 failed, 5 clock-loss wait
  resetCount : Nat       -- u16, saturating
  resetting : Option PartReset
  ring : Ring
  spill : Option SpillArea   -- host spill area (R322)
  lateCurtains : Nat     -- late curtains counted in the partition's statistics (R137)
  lateMessages : Nat     -- LATE_MESSAGES (R396)
  discardedWrites : Nat  -- writes discarded to out-of-service channels (R543)
  digests : PublishedDigests
deriving DecidableEq, Repr

/-- An armed split-read latch (R12): master, register offset, the latched high half. -/
structure Latch where
  mid : Nat
  offset : Nat
  high : W32
deriving DecidableEq, Repr

end Sys2Proof.Machine
end

