-- ==== Sys2Proof/Machine/PowerTypes.lean ====
section
/-! DEFINITION. Machine/PowerTypes.lean: power capping, droop and thermal state (15_power_and_thermal.md), as plain data. -/
namespace Sys2Proof.Machine

/-- A phase of the governor: job, LAYER and op class (R558): 0 MAC 16-bit, 1 MAC 8-bit and integer, 2 MAC MX-narrow,
3 MAC FP32, 4 VEC, 5 wait, 6 Serden update, 7 Serden idle. -/
structure PhaseKey where
  job : Nat
  layer : Nat
  cls : Nat
deriving DecidableEq, Repr

/-- What the governor has learned of a phase (R558): cluster power at share 64/64 and when held (mW), duration (ns). -/
structure PhaseLearned where
  key : PhaseKey
  full : Nat
  held : Nat
  duration : Nat
deriving DecidableEq, Repr

/-- Power state (R548 to R561, R567). -/
structure Power where
  inputW : Nat             -- INPUT_W, 12 bits
  cap : Nat                -- cap in force in watts
  windowS : Nat            -- averaging window in force
  samples : List Nat       -- the last 10 samples in watts, newest first
  ticks : List Nat         -- tick energies since the cap applied, newest first, at most w
  tickSum : Nat            -- samples of the running tick, summed
  tickN : Nat              -- and counted
  capNew : Bool            -- a cap has been applied in the running tick
  target : Nat             -- pacing target of the running tick
  fixedMw : Nat            -- power the limiters cannot move, as measured in the last tick (mW)
  govShares : List Nat     -- cluster shares the governor last set, 66 of 1 to 64
  govSerden : List Nat     -- Serden shares, 8
  shares : List Nat        -- cluster shares in force
  serden : List Nat        -- Serden shares in force
  written : Bool           -- firmware has written the shares since module reset
  peakGuard : Bool         -- the guard holds a share below the governor's value
  guardHigh : Nat          -- highest 100 µs mean of the entry
  guardTicks : Nat         -- samples below 2,550 W since the last release step, 0 to 9
  watchdog : Bool
  floorHit : Bool          -- a pacing target fell below the floor of the point in force since the last decision
  macShares : List (Nat × Nat)   -- (sum, count) of shares of clusters in MAC phases per tick, newest first, 1,000 ticks
  phases : List (List PhaseLearned)   -- learned phases per partition, most recent first, at most 2,048
  orderNow : List (Nat × Nat × PhaseKey)    -- by partition and unit: phases that clusters and engines have been seen in since the
                                            -- last plan of the partition, latest first
  orderDone : List (Nat × Nat × PhaseKey)   -- the order recorded in the step before it
  planTargets : List (Nat × Nat)      -- per partition with an active run: planned share of its MAC phases (R559)
  droops : List Nat        -- droop holds per cluster since module reset
  droopSecond : List Nat   -- droop holds per cluster in the running second
  droopStart : W64         -- Clockwork count at which that second began
  droopRaised : List Nat   -- clusters that raised droop-rate in it
deriving DecidableEq, Repr

/-- Thermal state (R549, R562 to R565, R568). -/
structure Thermal where
  sensors : List Nat       -- 90 readings in units of 0.25 °C
  state : Nat              -- 0 NORMAL, 1 WARM, 2 HOT, 3 CLAMP
  stackStates : List Nat        -- 8 stack states
  throttles : Nat          -- u16, saturating
  lowered : Nat            -- by how much HOT has lowered every share (R562)
deriving DecidableEq, Repr

/-- Power after module reset (R52, R557, R567). -/
def Power.reset : Power :=
  { inputW := 0, cap := 2300, windowS := 5, samples := [], ticks := [], tickSum := 0, tickN := 0, capNew := false, target := 2300,
    fixedMw := 0,
    govShares := List.replicate 66 32, govSerden := List.replicate 8 32, shares := List.replicate 66 32,
    serden := List.replicate 8 32, written := false, peakGuard := false, guardHigh := 0, guardTicks := 0,
    watchdog := false, floorHit := false, macShares := [], phases := List.replicate 4 [], orderNow := [], orderDone := [],
    planTargets := [],
    droops := List.replicate 66 0, droopSecond := List.replicate 66 0, droopStart := 0, droopRaised := [] }

/-- Thermal state after module reset (R568). -/
def Thermal.reset : Thermal :=
  { sensors := List.replicate 90 0, state := 0, stackStates := List.replicate 8 0, throttles := 0, lowered := 0 }

end Sys2Proof.Machine
end

