-- ==== Sys2Proof/Machine/State.lean ====
section
/-! DEFINITION. Machine/State.lean: the state of the module as plain data, the stops, and the state after reset. -/
namespace Sys2Proof.Machine

/-- What the module sends out of its edges, oldest first: the model's own record of the sends the rules name. -/
inductive Out where
  /-- the answer to a register read of a master -/
  | regRead (mid offset : Nat) (value : W64)
  /-- the answer to a BAR2 or CXL.mem read; `poison` as R149 -/
  | hostData (port : Nat) (data : List Byte) (poison : Bool)
  /-- an access completed as Unsupported Request -/
  | unsupported (port : Nat)
  /-- a DMA write to host memory -/
  | hostWrite (port : Nat) (addr : W64) (data : List W64)
  /-- bytes of a COPY_OUT or of a spill to host memory -/
  | hostBytes (port : Nat) (addr : W64) (data : List Byte)
  /-- an MSI-X message -/
  | msix (port vector : Nat)
  /-- a reply on a management endpoint: completion code and data words -/
  | mgmtReply (endpoint code : Nat) (data : List W64)
  /-- a PlatformEventMessage (R575) -/
  | mgmtEvent (endpoint : Nat) (e : Event)
  /-- an I3C in-band interrupt (R575) -/
  | inBandInterrupt
  /-- an answer to the fabric manager: the source address of its message, and ORDER_STATUS (R44) -/
  | fabricManager (address : Nat) (status : W64)
  /-- an answer of the security core (R579) -/
  | spdm (endpoint : Nat) (data : List W64)
  /-- an answer of a Serden engine to firmware (R376): partition, job, segment, digest -/
  | serden (part job seg : Nat) (value : W64)
  /-- a flit on a Dranto-mode link: its 32 words (R430) -/
  | flit (link : Nat) (words : List W64)
  /-- the identity flit of a link (R428): seat, link, MODE, NARROW_ALLOWED, FORWARD_ENABLE, lane pair -/
  | identity (link seat peer mode : Nat) (narrow forward : Bool) (pair : Nat)
  /-- a DMT frame on an Ethernet-mode link (R459): destination seat, UDP source port, DMT header, segment header, data -/
  | dmt (link seat port : Nat) (hdr seg : List W64) (data : List Byte)
  /-- an answer of the Ethernet port to ARP, neighbour discovery or echo (R458) -/
  | ethernet (link kind : Nat)
  /-- a report of the fabric agent to the address from which the fabric manager last reached it (R44); none while it has not: 1 link
  mismatch, 2 peer dead, 3 teardown, 4 advice, 5 digests, 6 target in reset, 7 partition reset -/
  | report (address : Option Nat) (kind : Nat) (words : List W64)
  /-- a PCIe configuration request answered with Request Retry Status (R68) -/
  | retryStatus (port : Nat)
  /-- a DOE discovery answer -/
  | doe (port : Nat) (value : W32)
  /-- bits shifted out of the TAP -/
  | tdo (value : List Bool)
deriving DecidableEq, Repr

/-- The whole module. -/
structure State where
  pending : List Instr           -- commands that wait, first in, first out
  out : List Out                 -- what has been sent, oldest first (the model's own record)
  free : Nat                     -- free values used so far (the model's own field)
  aon : Aon
  wake : Wake
  flash : Flash
  fuses : Fuses
  boot : Boot
  clk : Clk
  cwk : Cwk
  power : Power
  thermal : Thermal
  ports : List Port              -- H0 to H3
  parts : List Part              -- P0 to P3
  mail : List Mailbox            -- channels 0 to 63
  gated : List Nat               -- internal masters whose domain is power-gated (R161)
  replies : List (Nat × List Byte)   -- firmware replies waiting for their channel, in order (R164)
  orders : Orders
  latches : List Latch
  mgmt : Mgmt
  update : Update
  mirror : Mirror
  tap : Tap
  mem : List Host.Cell           -- device memory (Table 9.2), canonical; an unlisted byte reads 0
  poison : List Nat              -- poisoned 64 B stack lines (R326), as line numbers
  pools : List Pool              -- 16
  addq : List AddWrite           -- add-writes in the channel queues, in the order they reached them
  jobs : List Job                -- loaded jobs
  dp : Datapaths
  faults : Faults
  fab : Fabric
deriving DecidableEq, Repr

/-- Why the machine stops with a fault. -/
inductive Fault where
  /-- no rule of the spec raises this; kept so that the type is not empty. Raised by no meaning. Safe. -/
  | none
deriving DecidableEq, Repr

/-- Why a command has no meaning. -/
inductive Refusal where
  /-- raised by an arm of exec whose command is not modelled yet. Safe: nothing is claimed of it. -/
  | notModelled (mnemonic : String)
deriving DecidableEq, Repr

/-- A mailbox channel that is not bound. -/
def Mailbox.empty : Mailbox := { bind := none, data := List.replicate 256 0 }

/-- Channels 60 to 63, bound by the boot ROM (R47, Table 2.8). -/
def fixedBindings : List BindCfg :=
  [⟨60, 0x01, 0x20, true, false, 0⟩, ⟨61, 0x20, 0x01, false, false, 0⟩,
   ⟨62, 0x20, 0x30, true, false, 0⟩, ⟨63, 0x30, 0x20, true, false, 0⟩]

/-- The mailbox channels for a list of bindings; channels 60 to 63 are always bound (R45, R47). -/
def mailboxes (bs : List BindCfg) : List Mailbox :=
  (List.range 64).map fun c => { Mailbox.empty with bind := (bs ++ fixedBindings).find? fun b => b.channel == c }

/-- A port after module reset (R153): in reset, link down, BAR2 at its smallest size, every MSI-X vector unmasked and no MSI-X enable
kept apart from the masks (DESIGN CHOICE, log 204: the spec gives the masks no reset value). -/
def Port.reset : Port :=
  { perst := true, d3 := false, inReset := true, linkUp := false, rate := 0, width := 0, flit := false, cxl := false,
    ide := false, bar2Log2 := 20, bar2Offset := 0, masked := 0, pendingMsi := [], config := [],
    qps := List.replicate 16 none }

/-- A partition after module reset (R154, R174). -/
def Part.reset : Part :=
  { state := 1, resetCount := 0, resetting := none, ring := {}, spill := none, lateCurtains := 0, lateMessages := 0,
    discardedWrites := 0, digests := {} }

/-- The external masters (R42), in the order of their slots. -/
def externalMids : List Nat := [0x01, 0x10, 0x11, 0x12, 0x13, 0x40]

/-- The order arbiter after module reset (R183, R187). -/
def Orders.reset : Orders :=
  { slots := externalMids.map fun m => { mid := m }, slate := [], resetPending := none }

/-- The always-on domain after its contents have been re-initialised (R81, R104, R107). -/
def Aon.reset : Aon :=
  { log := [], logNew := 0, bootCount := 0, jPtr := none, jCur := none, cwCount := 0, cwTk := 0, cwValid := false,
    wake := {}, canary := 0x5A3CC3A5, tripLatch := false, straps := 7, timekeeper := 0, tkFrac := 0, selector := {},
    cell := .charging, canaryLost := true, journalSource := 1, cwValidAtReset := false }

/-- The wake sequencer in standby with every feed at its nominal 54 V (R77, R83). -/
def Wake.reset : Wake :=
  { phase := .standby, feeds := [54000, 54000, 54000], rails := 0, pwrEn := false, pgood := false, faultN := false,
    thermtripN := false, bootOsc := false, pllLocked := false, wakePending := false, inputLost := false,
    gatesOpen := false, linksIdle := true, selfRefresh := false }

/-- Erased flash (R27). -/
def Flash.erased : Flash :=
  { hdr0 := [], hdr1 := [], journal := [], fwA := [], fwB := [], bpA := [], bpB := [], archive := [], bpProtect := none }

/-- Unprogrammed fuses: every fuse bit reads 0 (R583). -/
def Fuses.blank : Fuses :=
  { vendorKeys := List.replicate 2 ⟨false, 0, false⟩, ownerKeys := List.replicate 4 ⟨false, 0, false⟩,
    fwFloor := List.replicate 32 {}, bpFloor := List.replicate 32 {} }

/-- Boot registers after module reset (R72, R73, R90, R95). -/
def Boot.reset : Boot :=
  { secRunning := false, romDone := false, stage := 0, fwSlot := false, fwFallback := false, failed := 0, ready := 0,
    bpState := 0, bpSlot := false, failA := none, triedA := false, failB := none, triedB := false, shadow := none,
    parkedHalves := 0, parkedClusters := 0, bmr := 0, measurements := [], trialThisBoot := false }

/-- Clocks after module reset (R139). -/
def Clk.reset : Clk :=
  { source := .onRefA, qualA := false, qualB := false, goodA := 0, goodB := 0, losA := false, losB := false,
    noEdgesA := false, noEdgesB := false, first := none, dwell := false, fromLoss := false, clkmonLimit := false, opPhase := .idle, opTarget := 5, opCurrent := 5,
    opVoltHigh := false, opHeld := false, fastestAllowed := 0, slowestAllowed := 5, switches := 0, opFrom := none, pauses := 0,
    gated := false }

/-- The Clockwork counter after module reset (R106, R140). -/
def Cwk.reset : Cwk :=
  { now := 0, frac := 0, rate := 0, state := .unsynced, offset := 0, refSeat := 0, coasts := 0, syncinSeen := false,
    filter := [], inBound := 0, coastRaised := false, conflictSeat := none, hearsSystem := false, outstanding := none }

/-- Management after module reset (R570, R575). -/
def Mgmt.reset : Mgmt :=
  { i3c := false, dynAddr := 0, eids := List.replicate 5 0, tid := List.replicate 5 0,
    events := { receiver := none, queue := [], inFlight := false, coalesced := 0, overflow := [], overflowed := false },
    spdm := List.replicate 5 {} }

/-- The machine after reset: standby, always-on contents re-initialised, every other register at its Reset column. -/
def State.reset : State :=
  { pending := [], out := [], free := 0, aon := Aon.reset, wake := Wake.reset, flash := Flash.erased,
    fuses := Fuses.blank, boot := Boot.reset, clk := Clk.reset, cwk := Cwk.reset, power := Power.reset,
    thermal := Thermal.reset,
    ports := List.replicate 4 Port.reset, parts := List.replicate 4 Part.reset, mail := mailboxes [], gated := [],
    replies := [], orders := Orders.reset, latches := [], mgmt := Mgmt.reset,
    update := { session := none, rollbackWarned := false }, mirror := { seq := 0, half0 := [], half1 := [] },
    tap := { instr := .idcode, cells := [] },
    mem := [], poison := [], pools := List.replicate 16 {}, addq := [], jobs := [], dp := ⟨[], [], [], [], [], []⟩,
    faults := Faults.reset, fab := {} }

end Sys2Proof.Machine
end

