-- ==== Sys2Proof/Machine/Ops.lean ====
section
/-! DEFINITION. Machine/Ops.lean: the named operations every family uses: sending, free values, events and where they go
(R174 to R177, R547, R575), mailbox posts, MSI-X, the reset of everything outside the always-on domain. -/
namespace Sys2Proof.Machine

/-- Record a send. -/
def send (o : Out) (s : State) : State := { s with out := s.out ++ [o] }

/-- Send several things in order. -/
def sendAll (os : List Out) (s : State) : State := { s with out := s.out ++ os }

/-- Take the next free value: a value that the spec leaves open. -/
def freeWord (s : State) : W64 × State := (Config.freeValue s.free, { s with free := s.free + 1 })

/-- The Clockwork count of this moment (R125). -/
def now (s : State) : W64 := s.cwk.now

/-- Entry `n` of the ports. -/
def portOf (n : Nat) (s : State) : Port := s.ports.getD n Port.reset

/-- Change port `n`. -/
def onPort (n : Nat) (f : Port → Port) (s : State) : State := { s with ports := upd s.ports n f }

/-- Partition `n`. -/
def partOf (n : Nat) (s : State) : Part := s.parts.getD n Part.reset

/-- Change partition `n`. -/
def onPart (n : Nat) (f : Part → Part) (s : State) : State := { s with parts := upd s.parts n f }

/-- The partition entries of the locked blueprint; none before lock and in the shelf state. -/
def partCfgs (s : State) : List PartCfg := match s.boot.shadow with
  | some b => b.parts
  | none => []

/-- BP_STATUS.PRESENT: partition `n` exists (R72). -/
def present (n : Nat) (s : State) : Bool := n < (partCfgs s).length

/-- The partitions that exist. -/
def partIds (s : State) : List Nat := List.range (partCfgs s).length

/-- The partition that holds a host port. -/
def partOfPort (p : Nat) (s : State) : Option Nat := portPart (partCfgs s) p

/-- The host ports of a partition. -/
def portsOf (n : Nat) (s : State) : List Nat := setBits (((partCfgs s)[n]?).map PartCfg.hostPorts |>.getD 0) 4

/-- The master table entry of a MID (R43). -/
def masterOf (mid : Nat) (s : State) : Option MasterCfg := match s.boot.shadow with
  | some b => b.masters.find? fun m => m.mid == mid
  | none => none

/-- The MID of the host on a port (R153). -/
def hostMid (port : Nat) : Nat := 0x10 + port

/-- The MID whose messages a management endpoint carries (R571): 0 is the management port, 1 + n is port Hn. -/
def endpointMid (ep : Nat) : Nat := if ep == 0 then 0x01 else 0x0F + ep

/-- The timeouts record in force (R63). -/
def timeouts (s : State) : TimeoutCfg := match s.boot.shadow with
  | some b => b.timeouts
  | none => {}

/-- The clocks record in force (R48). -/
def clocksCfg (s : State) : ClockCfg := match s.boot.shadow with
  | some b => b.clocks
  | none => {}

/-- The power record in force (R50). -/
def powerCfg (s : State) : PowerCfg := match s.boot.shadow with
  | some b => b.power
  | none => {}

/-- The link words of the locked blueprint. -/
def linkCfgs (s : State) : List LinkCfg := match s.boot.shadow with
  | some b => b.topo.links
  | none => []

/-- The topology of the locked blueprint. -/
def topo? (s : State) : Option TopoCfg := s.boot.shadow.map Blueprint.topo

/-- The training policy of a partition (R61). -/
def trainCfg (n : Nat) (s : State) : TrainCfg := match s.boot.shadow with
  | some b => b.training.getD n {}
  | none => {}

/-- Send an MSI-X message (R162): none when masked; while the link is down it waits on the module in order (R622). -/
def msix (port vector : Nat) (s : State) : State :=
  let p := portOf port s
  if p.masked.testBit vector then s
  else if p.linkUp then send (.msix port vector) s
  else onPort port (fun p => { p with pendingMsi := p.pendingMsi ++ [vector] }) s

/-- The event class of a code (R546). -/
def eventClass (code : Nat) : Nat := code / 0x1000

/-- An event that finds a queue of 256 full (R176): a matching entry counts it, or its class's overflow count does. -/
def coalesce (e : Event) : List Event → Option (List Event)
  | [] => none
  | q :: r =>
    if q.code == e.code && q.unit == e.unit && q.rep < 0xFFFF then some ({ q with rep := q.rep + 1 } :: r)
    else match coalesce e r with
      | some r' => some (q :: r')
      | none => none

/-- One more event in an overflow count (R176), saturating at 0xFFFF_FFFF; an event that begins an entry of its own leaves its count. -/
def Overflow.add (t : W64) (o : Overflow) : Overflow :=
  { o with count := satInc 0xFFFFFFFF o.count,
           starts := if o.count % 0xFFFF == 0 && o.count != 0xFFFFFFFF then o.starts ++ [t] else o.starts }

/-- Count one overflow of a class at a Clockwork count (R176). -/
def countOverflow (cls : Nat) (t : W64) : List Overflow → List Overflow
  | [] => [⟨cls, 1, [t]⟩]
  | o :: r => if o.cls == cls then o.add t :: r else o :: countOverflow cls t r

/-- Put an event into a backlog of 256 entries (R176): the new backlog, the overflow counts, and whether it was merged. -/
def intoBacklog (e : Event) (q : List Event) (ovf : List Overflow) : List Event × List Overflow × Bool :=
  if q.length < 256 then (q ++ [e], ovf, false)
  else match coalesce e q with
    | some q' => (q', ovf, true)
    | none => (q, countOverflow (eventClass e.code) e.count ovf, true)

/-- The four words of an event entry (R175). -/
def eventWords (e : Event) (phase : Bool) : List W64 :=
  [e.count, pack [(e.code, 48, 16), (e.unit, 32, 16), (e.rep, 16, 16), (b2n phase, 0, 1)], e.w2, e.w3]

/-- Whether a ring has room for one entry: TAIL + 1 is not HEAD modulo its size (R176). -/
def Ring.room (r : Ring) : Bool := (r.tail + 1) % 2 ^ r.entriesLog2 != r.head

/-- The ring after one entry has been written at TAIL; the phase inverts on the wrap (R175, R176). -/
def Ring.wrote (r : Ring) (code : Nat) : Ring :=
  let t := (r.tail + 1) % 2 ^ r.entriesLog2
  { r with tail := t, phase := if t == 0 then !r.phase else r.phase,
           satIdx := if code == 0x4003 then r.satIdx ++ [r.tail] else r.satIdx }

/-- Whether the partition's ring can be written now: owned, and the owner's link up (R176, R622). -/
def ringWritable (n : Nat) (s : State) : Bool :=
  let r := (partOf n s).ring
  r.owner != 0 && r.room && (portOf (r.owner - 0x10) s).linkUp

/-- Write one entry to the partition's ring in host memory and send vector 18 (R162, R176). -/
def writeRing (n : Nat) (e : Event) (s : State) : State :=
  let r := (partOf n s).ring
  let port := r.owner - 0x10
  let s := send (.hostWrite port (r.base + BitVec.ofNat 64 (32 * r.tail)) (eventWords e r.phase)) s
  msix port 18 (onPart n (fun p => { p with ring := p.ring.wrote e.code }) s)

/-- Add to the COALESCED count of a ring, saturating. -/
def Ring.merged (r : Ring) (b : Bool) : Ring := if b then { r with coalesced := satInc 0xFFFFFFFF r.coalesced } else r

/-- Put an event into the partition's backlog (R176). -/
def backlogEvent (n : Nat) (e : Event) (s : State) : State :=
  onPart n (fun p =>
    let (q, o, m) := intoBacklog e p.ring.backlog p.ring.overflow
    { p with ring := { p.ring with backlog := q, overflow := o }.merged m }) s

/-- An event of a partition (R176): to the ring when it has room and nothing waits before it, else to the backlog. -/
def partEvent (n : Nat) (e : Event) (s : State) : State :=
  let r := (partOf n s).ring
  if r.backlog.isEmpty && r.overflow.isEmpty && ringWritable n s then writeRing n e s else backlogEvent n e s

/-- Append to the always-on event log, a ring of 1,024 entries (R99). -/
def logEvent (e : Event) (s : State) : State :=
  let l := s.aon.log ++ [e]
  { s with aon := { s.aon with log := l.drop (l.length - 1024), logNew := min 1024 (s.aon.logNew + 1) } }

/-- Firmware copies new event log entries to the archive in flash (R100): 46 MiB of 32 B entries, a ring. -/
def archiveLog (s : State) : State :=
  let new := s.aon.log.drop (s.aon.log.length - s.aon.logNew)
  let a := s.flash.archive ++ new
  { s with flash := { s.flash with archive := a.drop (a.length - 1507328) }, aon := { s.aon with logNew := 0 } }

/-- Send the first waiting management event when none is in flight (R575). -/
def pumpMgmt (s : State) : State :=
  let q := s.mgmt.events
  match q.receiver, q.queue, q.inFlight with
  | some ep, e :: _, false =>
    let s := send (.mgmtEvent ep e) { s with mgmt := { s.mgmt with events := { q with inFlight := true } } }
    if s.mgmt.i3c && ep == 0 then send .inBandInterrupt s else s
  | _, _, _ => s

/-- An event into the management queue of 256 entries, coalesced as R176 (R575). -/
def mgmtEvent (e : Event) (s : State) : State :=
  let q := s.mgmt.events
  let (l, o, m) := intoBacklog e q.queue q.overflow
  let q := { q with queue := l, overflow := o, coalesced := if m then q.coalesced + 1 else q.coalesced,
                    overflowed := q.overflowed || m }
  pumpMgmt { s with mgmt := { s.mgmt with events := q } }

/-- An event as raised now: code, unit (R545), w2 (JOB and step, R546) and w3. -/
def event (code unit : Nat) (w2 w3 : W64) (s : State) : Event := { count := now s, code, unit, w2, w3 }

/-- Raise an event of scope P in partition `n` (R547). -/
def raiseP (n code unit : Nat) (w3 : W64) (s : State) (w2 : W64 := 0) : State :=
  partEvent n (event code unit w2 w3 s) s

/-- Raise an event of scope M: always-on log, management port, and the ring of a partition whose unit it concerns (R547). -/
def raiseM (part : Option Nat) (code unit : Nat) (w3 : W64) (s : State) (w2 : W64 := 0) : State :=
  let e := event code unit w2 w3 s
  let s := mgmtEvent e (logEvent e s)
  match part with
  | some n => if present n s then partEvent n e s else s
  | none => s

/-- Raise an event of scope M that concerns units of several partitions (R547). -/
def raiseAll (ps : List Nat) (code unit : Nat) (w3 : W64) (s : State) (w2 : W64 := 0) : State :=
  let e := event code unit w2 w3 s
  ps.foldl (fun s n => partEvent n e s) (mgmtEvent e (logEvent e s))

/-- UNIT codes of Table 14.13 (R545). -/
def unitCore (i : Nat) : Nat := 0x1000 + i
def unitTile (t : Nat) : Nat := 0x2000 + t
def unitCluster (c : Nat) : Nat := 0x3000 + c
def unitChannel (c : Nat) : Nat := 0x4000 + c
def unitLink (k : Nat) : Nat := 0x5000 + k
def unitPort (p : Nat) : Nat := 0x6000 + p
def unitPart (p : Nat) : Nat := 0x7000 + p
def unitPool (p : Nat) : Nat := 0x8000 + p
def unitJacks (d : Nat) : Nat := 0x9000 + d
def unitDomino (d : Nat) : Nat := 0xA000 + d
def unitQueue (q : Nat) : Nat := 0xB000 + q % 0x1000
def unitSegment (g : Nat) : Nat := 0xC000 + g % 0x1000
def unitMid (m : Nat) : Nat := 0xD000 + m

/-- UNIT code of a tested unit (R531, Table 14.5). -/
def testCode : TestUnit → Nat
  | .array c _ => unitCore c
  | .epilogue c => unitCore c
  | .fetcher c => unitCore c
  | .sequencer c => unitCore c
  | .vector c => unitCore c
  | .core c => unitCore c
  | .coreBank c _ => unitCore c
  | .clusterBank c _ => unitCluster c
  | .row c _ _ _ => unitChannel c
  | .channel c => unitChannel c
  | .lane c => unitChannel c
  | .linkLane k _ => unitLink k
  | .jacks d => unitJacks d
  | .domino d => unitDomino d
  | .bridge => 0

/-- UNIT code of tile cluster g: die x 33 + cluster. -/
def clusterUnit (g : Nat) : Nat := unitCluster (33 * (g / 32) + g % 32)

/-- A unit is out of service, by its UNIT code (R533, R543). -/
def unitOut (u : Nat) (s : State) : Bool := s.faults.out.any fun t => testCode t == u

/-- A unit is under test, or waits for its test (R530). -/
def underTest (u : TestUnit) (s : State) : Bool := s.faults.tests.any fun t => t.unit == u

/-- A host-access-error event of a port: scope P, w3 the BAR0 offset (R13, R160, R164, R177, R181). -/
def hostAccessError (port offset : Nat) (s : State) : State :=
  match partOfPort port s with
  | some n => raiseP n 0x3002 (unitPort port) (BitVec.ofNat 64 offset) s
  | none => s

/-- A report of the fabric agent to the fabric manager (R44). -/
def reportFm (kind : Nat) (words : List W64) (s : State) : State := send (.report s.fab.fmAddr kind words) s

/-- One channel of the mailbox block. -/
def chan (c : Nat) (s : State) : Mailbox := s.mail.getD c Mailbox.empty

/-- Change one channel. -/
def onChan (c : Nat) (f : Mailbox → Mailbox) (s : State) : State := { s with mail := upd s.mail c f }

/-- Empty a channel: no message, MB_DATA zero. -/
def Mailbox.cleared (m : Mailbox) : Mailbox := { m with full := false, length := 0, data := List.replicate 256 0 }

/-- Bytes written into MB_DATA at an offset. -/
def writeBytes (l : List Byte) (off : Nat) (bs : List Byte) : List Byte :=
  l.take off ++ bs.take (l.length - off) ++ l.drop (off + bs.length)

/-- Post the message held in MB_DATA (R158): FULL, LENGTH, the receiver's vector 16 (R162) and wake (R161). -/
def postMessage (c len : Nat) (s : State) : State :=
  let m := chan c s
  let s := onChan c (fun m => { m with full := true, length := len }) s
  match m.bind with
  | some b =>
    let s := if b.wake then { s with gated := s.gated.filter fun g => g != b.receiver } else s
    if inRange b.receiver 0x10 0x13 then msix (b.receiver - 0x10) 16 s else s
  | none => s

/-- Firmware posts a reply message, or keeps it until its channel is free (R164, R192). -/
def reply (c : Nat) (bs : List Byte) (s : State) : State :=
  if (chan c s).full || s.replies.any (fun r => r.1 == c) then { s with replies := s.replies ++ [(c, bs)] }
  else postMessage c bs.length (onChan c (fun m => { m with data := writeBytes m.data 0 bs }) s)

/-- The channel bound opposite to channel `c`, on which firmware answers (R163). -/
def replyChannel (c : Nat) (s : State) : Option Nat :=
  match (chan c s).bind with
  | some b => s.mail.findIdx? fun m => match m.bind with
    | some r => r.sender == b.receiver && r.receiver == b.sender
    | none => false
  | none => none

/-- Which reference qualified first, given the one that had and the qualifications as they stand (R116): both at the end of one window,
REFA. -/
def firstAfter (old : Option RefId) (qa qb : Bool) : Option RefId :=
  match old, qa, qb with
  | some .refA, true, _ => some .refA
  | some .refB, _, true => some .refB
  | _, true, _ => some .refA
  | _, false, true => some .refB
  | _, false, false => none

/-- Write the Clockwork backup and set its valid bit (R106). -/
def writeBackup (s : State) : State :=
  { s with aon := { s.aon with cwCount := s.cwk.now, cwTk := s.aon.timekeeper, cwValid := true } }

/-- Every domain outside the always-on domain at its reset value: what stays is the always-on domain, flash and fuses,
pins and input (feeds, PWR_EN, PERST_N levels), the wake sequencer, the TAP, the spare rows taken, which post-package repair makes permanent
(R328), the queue and the record of sends. -/
def volatileReset (s : State) : State :=
  { State.reset with
    pending := s.pending, out := s.out, free := s.free, aon := s.aon, wake := s.wake, fuses := s.fuses, tap := s.tap,
    flash := { s.flash with bpProtect := none }, faults := { Faults.reset with rows := s.faults.rows },
    ports := s.ports.map fun p => { Port.reset with perst := p.perst } }

end Sys2Proof.Machine
end

