-- ==== Sys2Proof/Machine/Rings.lean ====
section
/-! DEFINITION. Machine/Rings.lean: the owner's HEAD and the backlog of event rings (R176, R177). -/
namespace Sys2Proof.Machine

/-- Distance from `a` to `b` around a ring of `n` entries. -/
def ringDist (a b n : Nat) : Nat := (b + n - a) % n

/-- A write of HEAD (R177): ignored when the master is not the owner; out of range or past TAIL it is ignored with a
host-access-error; entries passed count as read (R608). -/
def eventHead (port value : Nat) (s : State) : State :=
  match partOfPort port s with
  | none => s
  | some n =>
    let r := (partOf n s).ring
    let v := value % 2 ^ 15
    let size := 2 ^ r.entriesLog2
    if r.owner != hostMid port then s
    else if size ≤ v || ringDist r.head r.tail size < ringDist r.head v size then hostAccessError port 0x20010 s
    else
      onPart n (fun p => { p with ring := { p.ring with
        head := v, satIdx := p.ring.satIdx.filter fun i => ringDist r.head v size ≤ ringDist r.head i size } }) s

/-- EVENT_HEAD. -/
def execEventHead (port value : Nat) (s : State) : Host.Outcome State Fault Refusal := .next (eventHead port value s)

/-- Write the next waiting entry of a partition: the backlog in order, then event-overflow entries whose REPEAT carries at
most 0xFFFF each (R176) and whose COUNT is that of the first event the entry stands for (R175). -/
def drainOne (n : Nat) (s : State) : State :=
  let r := (partOf n s).ring
  match r.backlog, r.overflow with
  | e :: q, _ => writeRing n e (onPart n (fun p => { p with ring := { p.ring with backlog := q } }) s)
  | [], v :: o =>
    let k := min v.count 0xFFFF
    let o := if v.count ≤ 0xFFFF then o else { v with count := v.count - k, starts := v.starts.tail } :: o
    let e := { event 0x3005 (unitPart n) 0 (BitVec.ofNat 64 v.cls) s with rep := k, count := v.starts.headD (now s) }
    writeRing n e (onPart n (fun p => { p with ring := { p.ring with overflow := o } }) s)
  | [], [] => s

/-- Write waiting entries while there is room (R176); `fuel` bounds them by the size of a ring. -/
def drain : Nat → Nat → State → State
  | 0, _, s => s
  | fuel + 1, n, s =>
    let r := (partOf n s).ring
    if (r.backlog.isEmpty && r.overflow.isEmpty) || !ringWritable n s then s else drain fuel n (drainOne n s)

/-- EVENT_BACKLOG_DRAIN. -/
def execEventBacklogDrain (partition : Nat) (s : State) : Host.Outcome State Fault Refusal :=
  .next (drain (2 ^ (partOf partition s).ring.entriesLog2) partition s)

/-- ALERT_Nn (R608): an existing partition in STATE 0x4 or 0x5, with a backlog, or with an unread sustained-saturation. -/
def alertN (n : Nat) (s : State) : Bool :=
  let p := partOf n s
  present n s && (p.state == 4 || p.state == 5 || !p.ring.backlog.isEmpty || !p.ring.overflow.isEmpty
    || !p.ring.satIdx.isEmpty)

end Sys2Proof.Machine
end

