-- ==== Sys2Proof/Machine/Queues.lean ====
section
/-! DEFINITION. Machine/Queues.lean: queue pairs: doorbells, fetch, completions (05 R165 to R180, R625). -/
namespace Sys2Proof.Machine

/-- Queue pair `q` of a port. -/
def qpOf (port q : Nat) (s : State) : Option QueuePair := (portOf port s).qps.getD q none

/-- Change a queue pair that exists. -/
def onQp (port q : Nat) (f : QueuePair → QueuePair) (s : State) : State :=
  onPort port (fun p => { p with qps := upd p.qps q (Option.map f) }) s

/-- Unfetched entries (R168, R180). -/
def QueuePair.unfetched (q : QueuePair) : Nat := ringDist q.sqHead q.sqTail (2 ^ q.sqLog2)

/-- Completion entries written and not yet read. -/
def QueuePair.unread (q : QueuePair) : Nat := ringDist q.cqHead q.cqTail (2 ^ q.cqLog2)

/-- The completion queue is full (R168, R179). -/
def QueuePair.cqFull (q : QueuePair) : Bool := q.unread == 2 ^ q.cqLog2 - 1

/-- A submission queue is saturated (R180). -/
def QueuePair.sqSaturated (q : QueuePair) : Bool := q.unfetched == 2 ^ q.sqLog2 - 1

/-- A completion waits for completion-queue space (R180). -/
def QueuePair.cqWaits (q : QueuePair) : Bool := !q.endOrder.isEmpty && q.cqFull

/-- An overrun (R168): the write is ignored, fetching stops, queue-overrun is raised. -/
def overrun (port q value : Nat) (s : State) : State :=
  let s := onQp port q (fun p => { p with stopped := true }) s
  match partOfPort port s with
  | some n => raiseP n 0x3004 (unitPort port) (pack [(q, 32, 4), (value, 0, 12)]) s
  | none => s

/-- A write of SQ_TAIL (R167, R168). -/
def sqTail (port q value : Nat) (s : State) : State :=
  match qpOf port q s with
  | none => s
  | some p =>
    let v := value % 2 ^ 12
    let n := 2 ^ p.sqLog2
    if n ≤ v || n - 1 < p.unfetched + ringDist p.sqTail v n then overrun port q v s
    else onQp port q (fun p => { p with sqTail := v }) s

/-- SQ_TAIL. -/
def execSqTail (port qp value : Nat) (s : State) : Host.Outcome State Fault Refusal := .next (sqTail port qp value s)

/-- A write of CQ_HEAD (R167, R168). One that moves it makes room, so that no completion waits without a break (R180). -/
def cqHead (port q value : Nat) (s : State) : State :=
  match qpOf port q s with
  | none => s
  | some p =>
    let v := value % 2 ^ 12
    let n := 2 ^ p.cqLog2
    if n ≤ v || p.unread < ringDist p.cqHead v n then overrun port q v s
    else onQp port q (fun p => { p with cqHead := v, satCqRaised := p.satCqRaised && v == p.cqHead }) s

/-- CQ_HEAD. -/
def execCqHead (port qp value : Nat) (s : State) : Host.Outcome State Fault Refusal := .next (cqHead port qp value s)

/-- Command slots in use (R178): a command ended by a partition reset without a slot takes none (R189). -/
def QueuePair.used (q : QueuePair) : Nat := (q.slots.filter fun c => !c.slotless).length

/-- A queue pair from which an entry may be fetched (R178, R189). -/
def QueuePair.fetchable (q : QueuePair) : Bool :=
  !q.stopped && !q.deleting && q.unfetched != 0 && q.used < 16 && q.slots.all fun c => !c.slotless

/-- The partition takes submissions: ready, or in the clock-loss wait (R93, R121, R189). -/
def takesSubmissions (port : Nat) (s : State) : Bool := match partOfPort port s with
  | some n => (partOf n s).state == 2 || (partOf n s).state == 5
  | none => false

/-- Weighted round robin (R178): a queue pair whose part of the round is used waits while another has part of its own left;
when none has, a new round starts. -/
def fetchTurn (port q : Nat) (s : State) : Option State :=
  let qps := (portOf port s).qps
  let left := qps.any fun o => match o with
    | some p => p.fetchable && p.roundUsed < p.weight
    | none => false
  match qpOf port q s with
  | none => none
  | some p =>
    if !p.fetchable then none
    else if p.roundUsed < p.weight then some s
    else if left then none
    else some (onPort port (fun r => { r with qps := r.qps.map (Option.map fun p => { p with roundUsed := 0 }) }) s)

/-- The opcode of a submission entry (Table 5.11). -/
def Command.opcode (c : Command) : Nat := fld (c.words.getD 0 0) 7 0
/-- Word `i` of the entry. -/
def Command.w (c : Command) (i : Nat) : W64 := c.words.getD i 0
/-- JOB of the entry. -/
def Command.job (c : Command) : Nat := fld (c.w 0) 63 32

/-- Fetch an entry into a free slot (R178); a reserved opcode ends at once with INVALID_OPCODE (R173). -/
def fetch (port q : Nat) (entry : List W64) (s : State) : State :=
  if !takesSubmissions port s then s
  else match fetchTurn port q s with
  | none => s
  | some s =>
    onQp port q (fun p =>
      let c : Command := { seq := p.nextSeq, words := entry }
      let bad := !inRange c.opcode 1 7
      { p with sqHead := (p.sqHead + 1) % 2 ^ p.sqLog2, nextSeq := p.nextSeq + 1, roundUsed := p.roundUsed + 1,
               satSqRaised := false,
               slots := p.slots ++ [if bad then { c with state := .ended, status := 0x0001 } else c],
               endOrder := if bad then p.endOrder ++ [c.seq] else p.endOrder }) s

/-- SUBMISSION_FETCH. -/
def execSubmissionFetch (port qp : Nat) (entry : List W64) (s : State) : Host.Outcome State Fault Refusal :=
  .next (fetch port qp entry s)

/-- A fetch whose DMA read fails (R625): nothing is fetched, fetching stops, queue-fetch-failed names the entry. -/
def fetchFailed (port q : Nat) (s : State) : State :=
  if !takesSubmissions port s then s
  else match qpOf port q s with
  | none => s
  | some p =>
    if !p.fetchable then s
    else
      let s := onQp port q (fun p => { p with stopped := true }) s
      match partOfPort port s with
      | some n => raiseP n 0x3007 (unitPort port) (pack [(q, 32, 4), (p.sqHead, 0, 12)]) s
      | none => s

/-- SUBMISSION_FETCH_FAILED. -/
def execSubmissionFetchFailed (port qp : Nat) (s : State) : Host.Outcome State Fault Refusal := .next (fetchFailed port qp s)

/-- A command of a queue pair by its place in the queue. -/
def commandOf (port q seq : Nat) (s : State) : Option Command :=
  match qpOf port q s with
  | some p => p.slots.find? fun c => c.seq == seq
  | none => none

/-- Change a command. -/
def onCommand (port q seq : Nat) (f : Command → Command) (s : State) : State :=
  onQp port q (fun p => { p with slots := p.slots.map fun c => if c.seq == seq then f c else c }) s

/-- A command ends: its completion waits to be written (R171, R179). An ended command stays as it ended. -/
def endCommand (port q seq status : Nat) (result : W64) (spilled varied : Bool) (s : State) : State :=
  match commandOf port q seq s with
  | some c =>
    if c.state == .ended then s
    else onQp port q (fun p => { p with
      slots := p.slots.map fun c =>
        if c.seq == seq then { c with state := .ended, status, result, spilled, varied } else c,
      endOrder := p.endOrder ++ [seq] }) s
  | none => s

/-- A command may start (R169, R171): earlier commands of its queue have started, and with FENCE have completed. -/
def mayStart (port q seq : Nat) (s : State) : Bool :=
  match qpOf port q s, commandOf port q seq s with
  | some p, some c =>
    let earlier := p.slots.filter fun d => d.seq < seq
    c.state == .fetched && earlier.all (fun d => d.state != .fetched)
      && (!bit (c.w 0).toNat 15 || earlier.all fun d => d.state == .ended)
  | _, _ => false

/-- The words of a completion entry (R172). -/
def completionWords (q : QueuePair) (c : Command) : List W64 :=
  [pack [(q.sqHead, 48, 16), (fld (c.w 0) 31 16, 32, 16), (c.status, 16, 16), (b2n c.spilled, 2, 1), (b2n c.varied, 1, 1),
     (b2n q.phase, 0, 1)], c.result]

/-- Write the oldest waiting completion (R145, R172, R179, R622): not while the queue is full or the link is down. -/
def completionWrite (port q : Nat) (s : State) : State :=
  match qpOf port q s with
  | none => s
  | some p =>
    match p.endOrder with
    | [] => s
    | seq :: rest =>
      if p.cqFull || !(portOf port s).linkUp then s
      else match p.slots.find? fun c => c.seq == seq with
        | none => onQp port q (fun p => { p with endOrder := rest }) s
        | some c =>
          let s := send (.hostWrite port (p.cqBase + BitVec.ofNat 64 (16 * p.cqTail)) (completionWords p c)) s
          let t := (p.cqTail + 1) % 2 ^ p.cqLog2
          msix port q (onQp port q (fun p => { p with
            cqTail := t, phase := if t == 0 then !p.phase else p.phase, endOrder := rest,
            slots := p.slots.filter fun c => c.seq != seq }) s)

/-- COMPLETION_WRITE. -/
def execCompletionWrite (port qp : Nat) (s : State) : Host.Outcome State Fault Refusal := .next (completionWrite port qp s)

/-- SATURATION_WINDOW_US has passed in saturation, or with a completion waiting (R180): sustained-saturation once for each
entry into the state. -/
def queueSaturation (port q : Nat) (s : State) : State :=
  match qpOf port q s, partOfPort port s with
  | some p, some n =>
    let s := if p.sqSaturated && !p.satSqRaised then
        raiseP n 0x4003 (unitPort port) (BitVec.ofNat 64 q) (onQp port q (fun p => { p with satSqRaised := true }) s)
      else s
    if p.cqWaits && !p.satCqRaised then
      raiseP n 0x4003 (unitPort port) (BitVec.ofNat 64 q) (onQp port q (fun p => { p with satCqRaised := true }) s)
    else s
  | _, _ => s

/-- QUEUE_SATURATION_TIMEOUT. -/
def execQueueSaturationTimeout (port qp : Nat) (s : State) : Host.Outcome State Fault Refusal :=
  .next (queueSaturation port qp s)

/-- NOP (R170): a command with no field used completes at once; a non-zero unused or RSVD field gives INVALID_FIELD. -/
def nop (port q seq : Nat) (s : State) : State :=
  match commandOf port q seq s with
  | some c =>
    if c.opcode == 0x07 && mayStart port q seq s then
      let ok := fld (c.w 0) 63 32 == 0 && fld (c.w 0) 14 8 == 0 && (List.range 7).all fun i => c.w (i + 1) == 0
      endCommand port q seq (if ok then 0 else 2) 0 false false s
    else s
  | none => s

/-- NOP. -/
def execNop (port qp seq : Nat) (s : State) : Host.Outcome State Fault Refusal := .next (nop port qp seq s)

end Sys2Proof.Machine
end

