-- ==== Sys2Proof/Machine/Jobs.lean ====
section
/-! DEFINITION. Machine/Jobs.lean: finding jobs and tiles, what a job may reach (R141, R312, R319, R322), and what it reads
and writes of device memory (R318 to R326). -/
namespace Sys2Proof.Machine

/-- The job `num` of a partition. -/
def jobOf (part num : Nat) (s : State) : Option Job := s.jobs.find? fun j => j.part == part && j.num == num

/-- Change one job. -/
def onJob (part num : Nat) (f : Job → Job) (s : State) : State :=
  { s with jobs := s.jobs.map fun j => if j.part == part && j.num == num then f j else j }

/-- A tile of a job. -/
def Job.tile (j : Job) (t : Nat) : Option JobTile := j.tiles.find? fun x => x.tile == t

/-- Change a tile of a job. -/
def Job.onTile (t : Nat) (f : JobTile → JobTile) (j : Job) : Job :=
  { j with tiles := j.tiles.map fun x => if x.tile == t then f x else x }

/-- Change a tile of a loaded job. -/
def onTile (j : Job) (t : Nat) (f : JobTile → JobTile) (s : State) : State := onJob j.part j.num (Job.onTile t f) s

/-- A job whose run has started. -/
def Job.running (j : Job) : Bool := match j.run with
  | some r => r.started
  | none => false

/-- The job whose started run uses context `c` of tile `t` (R308); a tile that is HELD does nothing (R530). -/
def runOn (t : Nat) (c : Ctx) (s : State) : Option (Job × JobTile) :=
  s.jobs.findSome? fun j => match j.run, j.tile t with
    | some r, some x => if r.started && r.filler == (c == .filler) && x.state != 7 then some (j, x) else none
    | _, _ => none

/-- The core index of the position that a tile's slot has (R193, R537): 528 a die, 16 a cluster. -/
def positionOf (t : Nat) : Nat := t / 512 * 528 + t % 512

/-- The tile cluster of a tile (R193): t >> 4. -/
def clusterOf (t : Nat) : Nat := t / 16

/-- A partition entry holds tile cluster g (R38). -/
def PartCfg.holds (p : PartCfg) (g : Nat) : Bool := (if g / 32 == 0 then p.clusters0 else p.clusters1).testBit (g % 32)

/-- Partition entry `n`. -/
def partCfg (n : Nat) (s : State) : Option PartCfg := (partCfgs s)[n]?

/-- The partition that holds tile cluster g. -/
def partOfCluster (g : Nat) (s : State) : Option Nat := (partCfgs s).findIdx? fun p => p.holds g

/-- The tile clusters a partition holds. -/
def clustersHeld (p : PartCfg) : List Nat := (List.range 64).filter p.holds

/-- The pools of the locked blueprint that belong to a partition. -/
def poolsOf (n : Nat) (s : State) : List PoolCfg := match s.boot.shadow with
  | some b => b.pools.filter fun p => p.partition == n
  | none => []

/-- Size of a partition's spill reserve (R319). -/
def reserveSize (n : Nat) (s : State) : Nat := match partCfg n s with
  | none => 0
  | some p =>
    let metaBytes := (poolsOf n s).foldl (fun t q => t + (q.bufferCount + 7) / 8 + 8 * q.bufferCount) 0
    (16777216 * (clustersHeld p).length + metaBytes + 2097151) / 2097152 * 2097152

/-- A partition's stack memory range (R40): base and size. -/
def stackRange (n : Nat) (s : State) : Nat × Nat := (partBase (partCfgs s) n, ((partCfg n s).map PartCfg.size).getD 0)

/-- The part of that range that jobs may use (R148, R319): below the spill reserve and the CXL window. -/
def jobRange (n : Nat) (s : State) : Nat × Nat :=
  let (b, z) := stackRange n s
  (b, z - ((partCfg n s).map fun p => p.cxlGiB * 2 ^ 30).getD 0 - reserveSize n s)

/-- A range of bytes lies inside (base, size). -/
def inside (a n : Nat) (r : Nat × Nat) : Bool := r.1 ≤ a && a + n ≤ r.1 + r.2

/-- Start of the host spill window of a partition (Table 9.2). -/
def spillWindow (n : Nat) : Nat := 0x008000000000 + 0x2000000000 * n

/-- Start of the cluster store window of tile cluster g (Table 9.2). -/
def clusterWindow (g : Nat) : Nat := 0x010000000000 + 0x1000000 * g

/-- Start of the core store window of tile t (Table 9.2). -/
def coreWindow (t : Nat) : Nat := 0x018000000000 + 0x100000 * t

/-- An address lies in some host spill window, cluster store window or core store window. -/
def inSpillWindow (a : Nat) : Bool := 0x008000000000 ≤ a && a < 0x010000000000
/-- A cluster store window. -/
def inClusterWindow (a : Nat) : Bool := clusterWindow 0 ≤ a && a < clusterWindow 64
/-- A core store window. -/
def inCoreWindow (a : Nat) : Bool := coreWindow 0 ≤ a && a < coreWindow 1024

/-- Whether tile `t` of a job of partition `n` may reach bytes a to a + len - 1 (R141, R312, R318, R322): none, or the
completion status that stops the run: BOUNDS 0x000B, HOST_MEMORY_ERROR 0x000C, also when the link of the spill area's port is down so
that the DMA fails. DEDUCED: a store window of another cluster is out of reach. What a tile reads of its own cluster's store is bound by
`sliceOk` besides. -/
def reach (n t a len : Nat) (s : State) : Option Nat :=
  if len == 0 || inside a len (jobRange n s) then none
  else if inside a len (spillWindow n, 2 ^ 37) then
    match (partOf n s).spill with
    | none => some 0x000B
    | some w =>
      if w.released || !(portOf w.port s).linkUp then some 0x000C
      else if a - spillWindow n + len ≤ w.length then none else some 0x000B
  else if inside a len (clusterWindow (clusterOf t), 2 ^ 24) then none
  else if inside a len (coreWindow 0, 2 ^ 30) then
    let first := (a - coreWindow 0) / 2 ^ 20
    let last := (a + len - 1 - coreWindow 0) / 2 ^ 20
    if (List.range (last - first + 1)).all fun i => partOfCluster (clusterOf (first + i)) s == some n then none
    else some 0x000B
  else some 0x000B

/-- The slice of a cluster store window that an offset lies in, its extension included (R221, Table 9.3). -/
def sliceAt (o : Nat) : Nat := o % 2 ^ 23 / 2 ^ 19

/-- What a tile reads of its cluster's store is its own slice, or lies in a buffer that the job declares shared (R221, R269). -/
def sliceOk (j : Job) (t a len : Nat) : Bool :=
  let w := clusterWindow (clusterOf t)
  !inside a len (w, 2 ^ 24) || len == 0 ||
    ((a - w) / 2 ^ 23 == (a - w + len - 1) / 2 ^ 23 && sliceAt (a - w) == t % 16 && sliceAt (a - w + len - 1) == t % 16) ||
    j.buffers.any fun b => inside a len (b.base, b.length)

/-- The pseudo-channel of an address of partition n's stack memory (R314). -/
def pseudoOf (n a : Nat) (s : State) : Nat := (a - (stackRange n s).1) / 2048 % 2

/-- The byte within the pseudo-channel (R314). -/
def pseudoByte (n a : Nat) (s : State) : Nat :=
  let o := a - (stackRange n s).1
  let c := 16 * (setBits (((partCfg n s).map PartCfg.halves).getD 0) 16).length
  o / 4096 / c * 2048 + o % 2048

/-- The stack channel, 32 x stack + channel, of an address of a partition's stack memory (R314). -/
def channelOf (n a : Nat) (s : State) : Nat :=
  let (base, _) := stackRange n s
  let halves := setBits (((partCfg n s).map PartCfg.halves).getD 0) 16
  let h := halves.length
  let g := (a - base) / 4096
  let c := 16 * h
  let k := (g % c + 7 * (g / c % 16)) % c
  let half := halves.getD (k % h) 0
  32 * (half / 2) + 16 * (half % 2) + k / h

/-- The partition whose stack memory holds an address. -/
def partOfAddr (a : Nat) (s : State) : Option Nat := (partIds s).find? fun n => inside a 1 (stackRange n s)

/-- A device-memory-error event (R149, R326, R347, R543): scope M, the channel, the address. -/
def memoryError (a : Nat) (s : State) : State :=
  match partOfAddr a s with
  | some n => raiseM (some n) 0x5001 (unitChannel (channelOf n a s)) (BitVec.ofNat 64 a) s
  | none => s

/-- The 4 KiB line of an extension that an address lies in (Table 9.3): the upper half of a core or cluster store window. -/
def extLineOf (a : Nat) : Option Nat :=
  if (inCoreWindow a && (a - coreWindow 0) % 2 ^ 20 ≥ 2 ^ 19) || (inClusterWindow a && (a - clusterWindow 0) % 2 ^ 24 ≥ 2 ^ 23)
  then some (a / 4096 * 4096) else none

/-- Start of a partition's spill reserve (R319). -/
def reserveBase (n : Nat) (s : State) : Nat := (jobRange n s).1 + (jobRange n s).2

/-- The home in partition n's spill reserve of an address in an extension (R318, R319): cluster extensions of the clusters held, in
ascending order, then core extensions. -/
def homeOf (n a : Nat) (s : State) : Option Nat :=
  let held := ((partCfg n s).map clustersHeld).getD []
  if inClusterWindow a then
    (held.idxOf? ((a - clusterWindow 0) / 2 ^ 24)).map fun i => reserveBase n s + 2 ^ 23 * i + (a - clusterWindow 0) % 2 ^ 23
  else
    let t := (a - coreWindow 0) / 2 ^ 20
    (held.idxOf? (t / 16)).map fun i =>
      reserveBase n s + 2 ^ 23 * held.length + 2 ^ 23 * i + 2 ^ 19 * (t % 16) + (a - coreWindow 0) % 2 ^ 19

/-- A job holds an extension line in a near line (R320). -/
def isNear (l : Nat) (s : State) : Bool := s.jobs.any fun j => j.ext.any fun e => e.addr == l && e.near.isSome

/-- Where the bytes of a device address stand: an extension line at home lies in the spill reserve, anything else at its address. -/
def stackAddr (a : Nat) (s : State) : Nat := match extLineOf a with
  | none => a
  | some l => if isNear l s then a else ((partIds s).findSome? fun n => homeOf n a s).getD a

/-- The address in an extension whose home is at an address of partition n's spill reserve (R319), while its line is at home. -/
def extensionAt (n a : Nat) (s : State) : Option Nat :=
  let held := ((partCfg n s).map clustersHeld).getD []
  let z := 2 ^ 23 * held.length
  let o := a - reserveBase n s
  let e := if o < z then clusterWindow (held.getD (o / 2 ^ 23) 0) + 2 ^ 23 + o % 2 ^ 23
    else coreWindow (16 * held.getD ((o - z) / 2 ^ 23) 0 + (o - z) / 2 ^ 19 % 16) + 2 ^ 19 + (o - z) % 2 ^ 19
  if a < reserveBase n s || 2 * z ≤ o || isNear (e / 4096 * 4096) s then none else some e

/-- A line of a stack channel whose lane is out of service (R543). -/
def deadLine (l : Nat) (s : State) : Bool :=
  !s.faults.out.isEmpty && match partOfAddr (stackAddr (64 * l) s) s with
    | some n => unitOut (unitChannel (channelOf n (stackAddr (64 * l) s) s)) s
    | none => false

/-- A range read meets a line that answers poisoned (R326, R543): the address of the first. -/
def poisoned (a len : Nat) (s : State) : Option Nat :=
  ((lineNums a len).find? fun l => s.poison.contains (stackAddr (64 * l) s / 64) || deadLine l s).map fun l => stackAddr (64 * l) s

/-- A write to a channel out of service is counted and raises device-memory-error (R543). -/
def discardWrite (a : Nat) (s : State) : State :=
  let a := stackAddr a s
  let s := match partOfAddr a s with
    | some n => onPart n (fun p => { p with discardedWrites := p.discardedWrites + 1 }) s
    | none => s
  memoryError a s

/-- Writes of ranges to channels out of service are discarded, line by line (R543): `old` is the memory before them. -/
def keepDead (rs : List (Nat × Nat)) (old : Mem) (s : State) : State :=
  if s.faults.out.isEmpty then s
  else
    let parts := rs.flatMap fun r => ((lineNums r.1 r.2).filter fun l => deadLine l s).map fun l =>
      (max r.1 (64 * l), min (r.1 + r.2) (64 * l + 64))
    parts.foldl (fun s p =>
      discardWrite p.1 { s with mem := wrBytes p.1 (rdBytes p.1 (p.2 - p.1) old) s.mem }) s

/-- Lines written whole lose their poison (R326), but for those of channels out of service. -/
def liftPoison (rs : List (Nat × Nat)) (s : State) : State :=
  let whole := rs.flatMap fun r => wholeLines r.1 r.2
  { s with poison := s.poison.filter fun l => !(whole.any fun w => stackAddr (64 * w) s / 64 == l) || deadLine l s }

/-- Write bytes; a store of all 64 B of a line lifts its poison (R326); a channel out of service takes none (R543). -/
def store (a : Nat) (bs : List Byte) (s : State) : State :=
  keepDead [(a, bs.length)] s.mem (liftPoison [(a, bs.length)] { s with mem := wrBytes a bs s.mem })

/-- Why an instruction stops its run: the completion status and the address. -/
structure Stop where
  status : Nat
  addr : Nat
deriving DecidableEq, Repr

/-- Check ranges that a tile reads: the first that it may not reach, that is another slice's and not shared, or that is poisoned (R141,
R221, R326). -/
def checkReads (j : Job) (t : Nat) (rs : List (Nat × Nat)) (s : State) : Option Stop :=
  rs.findSome? fun r => match reach j.part t r.1 r.2 s with
    | some st => some ⟨st, r.1⟩
    | none => if sliceOk j t r.1 r.2 then (poisoned r.1 r.2 s).map fun a => ⟨0x000D, a⟩ else some ⟨0x000B, r.1⟩

/-- Check ranges that a tile writes. -/
def checkWrites (n t : Nat) (rs : List (Nat × Nat)) (s : State) : Option Stop :=
  rs.findSome? fun r => (reach n t r.1 r.2 s).map fun st => ⟨st, r.1⟩

/-- The spare cores of a die that are not in service (R320): their slices hold near lines. -/
def nearSlices (die : Nat) (s : State) : List Nat :=
  (List.range 16).filter fun i => (s.faults.spares.getD (16 * die + i) {}).state != 1

/-- A range cut at the 4 KiB lines. -/
def linePieces (a len : Nat) : List (Nat × Nat) :=
  (List.range ((a + len + 4095) / 4096 - a / 4096)).map fun i =>
    let l := max a (4096 * (a / 4096 + i))
    (l, min (a + len) (4096 * (a / 4096 + i + 1)) - l)

/-- The lowest free near line of a die (R320): 128 lines a slice. -/
def freeNear (die : Nat) (s : State) : Option Nat :=
  let taken := s.jobs.flatMap fun j => j.ext.filterMap ExtLine.near
  (nearSlices die s).findSome? fun i => ((List.range 128).map (128 * i + ·)).find? fun k => !taken.contains (die, k)

/-- The first write to an extension line of a core store takes the lowest free near line, or the line's home; a line of a cluster extension
is at home (R318, R320). -/
def touchExt (j : Job) (a len : Nat) (s : State) : State :=
  let lines := (linePieces a len).filterMap fun p => extLineOf p.1
  lines.foldl (fun s l =>
    match jobOf j.part j.num s with
    | some j' =>
      if j'.ext.any fun e => e.addr == l then s
      else
        let die := (l - coreWindow 0) / 2 ^ 20 / 512
        let e : ExtLine := ⟨l, if inCoreWindow l then (freeNear die s).map fun k => (die, k) else none⟩
        onJob j.part j.num (fun j => { j with ext := j.ext ++ [e] }) s
    | none => s) s

/-- Bytes of a spilled access within one 4 KiB line (R323, Table 9.6). -/
def SpillRec.piece (j : Job) (r : SpillRec) (a len : Nat) : SpillRec :=
  if inSpillWindow a then { r with host := r.host + len }
  else match extLineOf a with
    | some l =>
      if inClusterWindow a then { r with cluster := r.cluster + len }
      else if j.ext.any fun e => e.addr == l && e.near != none then { r with near := r.near + len }
      else { r with far := r.far + len }
    | none => r

/-- Bytes of spilled accesses, each line by itself (R323, Table 9.6). -/
def SpillRec.count (r : SpillRec) (j : Job) (a len : Nat) : SpillRec :=
  (linePieces a len).foldl (fun r p => r.piece j p.1 p.2) r

/-- Bytes of ranges in the host spill window. -/
def hostBytesOf (rs : List (Nat × Nat)) : Nat := rs.foldl (fun n r => if inSpillWindow r.1 then n + r.2 else n) 0

/-- Count a tile's spilled reads or writes, in its record and in the job's summary (Tables 9.5 and 9.6). -/
def countSpill (j : Job) (t : Nat) (wr : Bool) (rs : List (Nat × Nat)) (s : State) : State :=
  match jobOf j.part j.num s with
  | some j' =>
    let h := hostBytesOf rs
    onJob j.part j.num (fun j =>
      { j.onTile t fun x => { x with spill := rs.foldl (fun r p => r.count j' p.1 p.2) x.spill } with
        run := j.run.map fun r => if wr then { r with hostWrite := r.hostWrite + h } else { r with hostRead := r.hostRead + h } }) s
  | none => s

/-- Before writes of a tile: extension lines are taken, and writes to the host spill window are sent to the host (R322). -/
def prepareWrites (j : Job) (t : Nat) (rs : List (Nat × Nat)) (s : State) : State :=
  countSpill j t true rs (rs.foldl (fun s r => touchExt j r.1 r.2 s) s)

/-- Send what a tile has written to the host spill window to host memory (R322). -/
def sendSpill (n : Nat) (rs : List (Nat × Nat)) (s : State) : State :=
  match (partOf n s).spill with
  | some w => sendAll (rs.filterMap fun r =>
      if inSpillWindow r.1 then
        some (.hostBytes w.port (w.base + BitVec.ofNat 64 (r.1 - spillWindow n)) (rdBytes r.1 r.2 s.mem))
      else none) s
  | none => s

/-- After writes of a tile or for it: spilled bytes go to the host, lines written whole lose their poison, channels out of service keep
what the memory `old` held (R322, R326, R543). -/
def finishWrites (n : Nat) (rs : List (Nat × Nat)) (old : Mem) (s : State) : State :=
  sendSpill n rs (keepDead rs old (liftPoison rs s))

/-- An engine stores for tile `t` of a job (R318 to R324): as a tile's own writes, extension lines are taken, spilled bytes are counted and
those of the host spill window go out. Without a tile the job's summary alone counts. -/
def engineStore (j : Job) (t a : Nat) (bs : List Byte) (s : State) : State :=
  let rs := [(a, bs.length)]
  let s := prepareWrites j t rs s
  finishWrites j.part rs s.mem { s with mem := wrBytes a bs s.mem }

/-- A store of an engine that no tile's request names. -/
def jobStore (j : Job) (a : Nat) (bs : List Byte) (s : State) : State := engineStore j 1024 a bs s

/-- w2 of an event of a job (R546): JOB and bits 31:0 of its step counter. -/
def Job.w2 (j : Job) : W64 := pack [(j.num, 32, 32), (j.step.toNat, 0, 32)]

/-- Raise an event of a job in its partition's ring. -/
def raiseJ (j : Job) (code unit : Nat) (w3 : W64) (s : State) : State := raiseP j.part code unit w3 s j.w2

end Sys2Proof.Machine
end

