-- ==== Sys2Proof/Machine/Datapaths.lean ====
section
/-! DEFINITION. Machine/Datapaths.lean: the cores and their datapaths (06 R193 to R200, R216 to R218, R537), and the credits of the
bridge and of the channel queues (08 R292, R293; 09 R311). -/
namespace Sys2Proof.Machine

/-! Core indices: die x 528 + cluster x 16 + position; cluster 32 of a die holds its spares (R193, R545). -/

/-- Die of a core index. -/
def dieOfCore (c : Nat) : Nat := c / 528

/-- The core index of spare `k` = 16 die + number. -/
def spareCore (k : Nat) : Nat := 528 * (k / 16) + 512 + k % 16

/-- The tile whose slot is at a position (R193). -/
def tileOfCore (c : Nat) : Nat := 512 * (c / 528) + c % 528

/-- The core logic at positions 14 and 15 of the tile clusters is fused off on E grade (Table 6.1); only their core stores work. -/
def fusedOff (c : Nat) : Bool := !Config.gradeF && c % 528 < 512 && 14 ≤ c % 528 % 16

/-- Every core that is a spare, lowest number first: the spare cluster's, then positions that rejoined as spares (R544). -/
def allSpares (s : State) : List (Nat × Spare) :=
  ((List.range 32).map fun k => (spareCore k, s.faults.spares.getD k {})) ++ s.faults.extra

/-- The position that a core's work belongs to: its own, or the one it serves as a spare. -/
def servedBy (c : Nat) (s : State) : Option Nat := match (allSpares s).find? fun p => p.1 == c with
  | some p => if p.2.state == 1 then some p.2.serves else none
  | none => some c

/-- The core that holds a position: the position's own, or the spare that serves it. -/
def holderOf (pos : Nat) (s : State) : Nat := match (allSpares s).find? fun p => p.2.state == 1 && p.2.serves == pos with
  | some p => p.1
  | none => pos

/-- The core of a unit of Table 14.5, if it is one of a core. -/
def coreOfUnit : TestUnit → Option Nat
  | .array c _ => some c
  | .epilogue c => some c
  | .fetcher c => some c
  | .sequencer c => some c
  | .vector c => some c
  | .core c => some c
  | .coreBank c _ => some c
  | _ => none

/-- A fault of the core store, as against one of the datapath (R539). -/
def storeUnit : TestUnit → Bool
  | .coreBank _ _ => true
  | _ => false

/-! Datapaths (R196 to R198). -/

/-- The positions of tile cluster g whose datapaths its tiles use (Table 6.1): 16 on F grade, 14 on E grade. -/
def datapathPositions (gradeF : Bool) (g : Nat) : List Nat :=
  (List.range (if gradeF then 16 else 14)).map fun i => 528 * (g / 32) + 16 * (g % 32) + i

/-- The core whose datapath works for a position (R537): none while it is out of service, being replaced or under test. -/
def datapathAt (pos : Nat) (s : State) : Option Nat :=
  let c := holderOf pos s
  if s.faults.out.contains (.core c) || s.faults.swaps.any (fun w => w.position == pos) ||
      s.faults.tests.any (fun u => coreOfUnit u.unit == some c && !storeUnit u.unit) then none else some c

/-- The operation that runs on the datapath of core `c`: its job, tile and entry. -/
def opOn (c : Nat) (s : State) : Option (Job × JobTile × Entry) :=
  s.jobs.findSome? fun j => j.tiles.findSome? fun x =>
    (x.arrays.find? fun e => e.acc.isSome && !e.ended && e.core == c).map fun e => (j, x, e)

/-- An operation of the tile runs. -/
def tileBusy (t : Nat) (s : State) : Bool :=
  s.jobs.any fun j => j.tiles.any fun x => x.tile == t && x.arrays.any fun e => e.acc.isSome && !e.ended

/-- The datapath runs a shared-weight operation in emulation (R210): it is not the one at position 0 or 1, or a spare serves there. -/
def emulatesOn (pos core : Nat) : Bool := core != pos || 2 ≤ pos % 528 % 16

/-- State of array `i` of the datapath of a core. -/
def arrayState (core i : Nat) (s : State) : Nat := lookup0 (4 * core + i) s.dp.arrays

/-- Set the states of the first `n` arrays of a datapath. -/
def setArrays (core n : Nat) (f : Nat → Nat) (s : State) : State :=
  let set := fun l i => assign0 (4 * core + i) (f (lookup0 (4 * core + i) l)) l
  { s with dp := { s.dp with arrays := (List.range n).foldl set s.dp.arrays } }

/-- Arrays start (R216, R218): one that spins or runs goes on at once; one that is stopped waits for the stagger unless STAGGER_CYCLES
is 0. -/
def startArrays (core n : Nat) (s : State) : State :=
  let held := if (powerCfg s).staggerCycles == 0 then 1 else 3
  setArrays core n (fun st => if st == 0 then held else if st == 2 then 1 else st) s

/-- Arrays with no next operation ready (R216, R217): they spin, or stop in a gap that takes no spinner operations or when
SPINNER_WINDOW is 0. -/
def idleArrays (core n : Nat) (gap : Bool) (s : State) : State :=
  let st := if gap || (powerCfg s).spinnerWindow == 0 then 0 else 2
  setArrays core n (fun old => if old == 1 then st else if old == 3 || gap then 0 else old) s

/-- Every array of the datapaths that `f` picks stops (R217): a partition reset, the clock-loss wait. -/
def stopArrays (f : Nat → Bool) (s : State) : State :=
  { s with dp := { s.dp with arrays := s.dp.arrays.filter fun p => !f (p.1 / 4) } }

/-- No array spins through a pause of R112 (R217). -/
def stopSpinners (s : State) : State := { s with dp := { s.dp with arrays := s.dp.arrays.filter fun p => p.2 != 2 } }

/-- The spinning arrays of the datapath that last worked for a tile stop at a branch (R217). -/
def stopSpinning (t : Nat) (s : State) : State :=
  match lookup0 t s.dp.prev with
  | 0 => s
  | core + 1 =>
    if lookup0 core s.dp.last == t + 1 then setArrays core 4 (fun st => if st == 2 then 0 else st) s else s

/-! The bridge (R292, R311): a sender with no credit in its class holds, and gets the credit back when the instruction completes. -/

/-- The die that serves an address: that of its stack (R311: stacks 0 to 3 CD0), or of the store. -/
def dieOfAddr (n a : Nat) (s : State) : Option Nat :=
  let b := stackAddr a s
  if inside b 1 (stackRange n s) then some (channelOf n b s / 128)
  else if inCoreWindow a then some ((a - coreWindow 0) / 2 ^ 20 / 512)
  else if inClusterWindow a then some ((a - clusterWindow 0) / 2 ^ 24 / 32)
  else none

/-- Some byte of the ranges is served by the other die than tile `t`'s, granule by granule. -/
def crosses (n t : Nat) (rs : List (Nat × Nat)) (s : State) : Bool :=
  rs.any fun r => r.2 != 0 && (List.range ((r.1 + r.2 - 1) / 4096 - r.1 / 4096 + 1)).any fun i =>
    match dieOfAddr n (max r.1 (4096 * (r.1 / 4096 + i))) s with
    | some d => d != t / 512
    | none => false

/-- The bridge class that a tile's accesses to ranges take: store accesses, when they cross. -/
def accessClass (n t : Nat) (rs : List (Nat × Nat)) (s : State) : List Nat := if crosses n t rs s then [0] else []

/-- A range holds a byte of bank `b` of a store of `banks` banks of width `z` at `w`, of `size` bytes (R219). -/
def meetsBank (w size banks z b : Nat) (r : Nat × Nat) : Bool :=
  let lo := max r.1 w
  let hi := min (r.1 + r.2) (w + size)
  lo < hi && (List.range (min banks ((hi - 1) / z - lo / z + 1))).any fun i => (lo / z + i) % banks == b

/-- A range meets a store bank or the channel of a lane (R219, R314). -/
def meetsUnit (u : TestUnit) (r : Nat × Nat) (s : State) : Bool := match u with
  | .coreBank c b => match servedBy c s with
    | some pos => pos % 528 < 512 && meetsBank (coreWindow (tileOfCore pos)) (2 ^ 19) 16 32 b r
    | none => false
  | .clusterBank g b => g % 33 < 32 && meetsBank (clusterWindow (32 * (g / 33) + g % 33)) (2 ^ 23) 64 64 b r
  | .lane c => (lineNums r.1 r.2).any fun l => match partOfAddr (stackAddr (64 * l) s) s with
    | some n => channelOf n (stackAddr (64 * l) s) s == c
    | none => false
  | _ => false

/-- Accesses that wait for the self-test of a store bank or of a lane (R530). -/
def testHolds (rs : List (Nat × Nat)) (s : State) : Bool := s.faults.tests.any fun t => rs.any fun r => meetsUnit t.unit r s

/-- Every instruction in the unit queues of a tile. -/
def JobTile.entries (x : JobTile) : List Entry := x.fetcher ++ x.arrays ++ x.vector ++ x.jacks ++ x.domino

/-- Credits of a class in use by the senders of a die: 3 is the add-writes on their way to the other die's channels. -/
def bridgeUsed (cls die : Nat) (s : State) : Nat :=
  if cls == 3 then s.addq.countP fun w => w.die == die
  else (s.jobs.map fun j => (j.tiles.map fun x =>
    if x.tile / 512 == die then x.entries.countP fun e => e.cross.contains cls else 0).sum).sum

/-- The class has a credit. Its number of credits is not given: Config.bridgeDepth beyond the first. -/
def bridgeRoom (cls die : Nat) (s : State) : Bool := bridgeUsed cls die s ≤ Config.bridgeDepth cls

/-- A tile finds a credit in every class it needs. -/
def crossRoom (t : Nat) (cs : List Nat) (s : State) : Bool := cs.all fun c => bridgeRoom c (t / 512) s

/-! Add-write credits (R293). -/

/-- The channel of an add-write. -/
def AddWrite.channel (w : AddWrite) (s : State) : Nat := channelOf w.part w.addr s

/-- The add-write's channel queue has a credit, and so has the bridge when it crosses. The queue's depth is not given:
Config.addQueueDepth beyond the first. -/
def addRoom (w : AddWrite) (s : State) : Bool :=
  (s.addq.countP fun q => q.channel s == w.channel s) ≤ Config.addQueueDepth && (w.die == 2 || bridgeRoom 3 w.die s)

/-- An epilogue's add-writes enter their queues in order, as far as the credits go; the rest stay held. -/
def enterAdds : List AddWrite → State → List AddWrite × State
  | [], s => ([], s)
  | w :: r, s => if addRoom w s then enterAdds r { s with addq := s.addq ++ [w] } else (w :: r, s)

/-- Held add-writes of a tile go on (R293, R302). -/
def feedTile (part num t : Nat) (s : State) : State :=
  match jobOf part num s with
  | none => s
  | some j => match (j.tile t).bind fun x => x.arrays.find? fun e => !e.held.isEmpty with
    | none => s
    | some e =>
      let (left, s) := enterAdds e.held s
      onJob part num (Job.onTile t fun x =>
        { x with
          arrays := x.arrays.map fun e => if e.held.isEmpty then e else { e with held := left }
          satRaised := if left.isEmpty then x.satRaised.filter (fun k => k / 0x1000 != 4) else x.satRaised }) s

/-- Every held add-write that finds a credit goes on. Between tiles no order is given (R345): the lower tile first. -/
def feedAdds (s : State) : State :=
  s.jobs.foldl (fun s j => j.tiles.foldl (fun s x => if x.arrays.any fun e => !e.held.isEmpty then feedTile j.part j.num x.tile s else s) s) s

end Sys2Proof.Machine
end

