-- ==== Sys2Proof/Machine/Issue.lean ====
section
/-! DEFINITION. Machine/Issue.lean: what the sequencer looks at when it issues (08 R270 to R273, R281 to R288, R291, R308): the fields of
an instruction word, unit queues, strings, channels, the class conditions, and the cause of a stall. -/
namespace Sys2Proof.Machine

/-- CLASS of an instruction word (Table 8.7). -/
def iclass (w : W128) : Nat := ifld w 127 124
/-- OP. -/
def iop (w : W128) : Nat := ifld w 123 120
/-- MAYVARY. -/
def mayVary (w : W128) : Bool := bit w.toNat 119
/-- WAIT_STR. -/
def waitStr (w : W128) : Nat := ifld w 118 115
/-- POST_STR. -/
def postStr (w : W128) : Nat := ifld w 114 111

/-- The index register value an instruction takes at issue (R273): 0 without XEN. -/
def JobTile.xval (x : JobTile) (w : W128) : Nat :=
  if bit w.toNat 110 then (x.x.getD (ifld w 109 107) 0).toNat else 0

/-- The oldest instruction not yet issued. -/
def JobTile.word (x : JobTile) : Option W128 := x.list[x.next]?

/-- Descriptor `i` of a tile, with the BASE that a RECV set (R281, R289). -/
def JobTile.desc (x : JobTile) (i : Nat) : Desc :=
  let d := x.descs.getD i (Desc.ofWords [])
  match x.binds.find? fun b => b.1 == i with
  | some b => { d with base := b.2 }
  | none => d

/-- Epilogue entry `i` of a tile; 0xFF is none (R274, R278). -/
def JobTile.epi (x : JobTile) (i : Nat) : Option Epi := x.epis[i]?

/-- The issue queue of a unit. -/
def JobTile.queue (x : JobTile) : UnitId → List Entry
  | .fetcher => x.fetcher
  | .arrays => x.arrays
  | .vector => x.vector
  | .jacks => x.jacks
  | .domino => x.domino

/-- Replace the issue queue of a unit. -/
def JobTile.setQueue (x : JobTile) (u : UnitId) (q : List Entry) : JobTile :=
  match u with
  | .fetcher => { x with fetcher := q }
  | .arrays => { x with arrays := q }
  | .vector => { x with vector := q }
  | .jacks => { x with jacks := q }
  | .domino => { x with domino := q }

/-- Issue queue depth (Table 8.15). -/
def unitDepth : UnitId → Nat
  | .fetcher => 8
  | .arrays => 4
  | .vector => 8
  | .jacks => 4
  | .domino => 4

/-- The unit whose queue an instruction enters (Table 8.8); none for those the sequencer keeps. -/
def unitOf (w : W128) : Option UnitId :=
  match iclass w with
  | 0x0 => some .fetcher
  | 0x1 => some .arrays
  | 0x2 => some .vector
  | 0x3 => some .jacks
  | 0x4 => some .domino
  | 0x5 => if iop w == 2 || iop w == 3 then some .fetcher else none
  | 0x6 => if iop w == 6 then some .fetcher else none
  | _ => none

/-- No instruction of the tile is in a unit. -/
def JobTile.drained (x : JobTile) : Bool :=
  x.fetcher.isEmpty && x.arrays.isEmpty && x.vector.isEmpty && x.jacks.isEmpty && x.domino.isEmpty

/-- WAIT_STR holds a posted entry (R284). -/
def stringReady (x : JobTile) (w : W128) : Bool := waitStr w == 15 || x.posted.getD (waitStr w) 0 != 0

/-- POST_STR has a free place (R272, R284); the entry that the same instruction takes frees its place. -/
def postRoom (x : JobTile) (w : W128) : Bool :=
  let p := postStr w
  p == 15 || x.posted.getD p 0 + x.reserved.getD p 0 - (if waitStr w == p then 1 else 0) < x.depths.getD p 0

/-- The other context of a tile (R308). -/
def otherCtx : Ctx → Ctx
  | .normal => .filler
  | .filler => .normal

/-- Entries that the other context of a tile holds in a unit's issue queue (R308). -/
def otherEntries (t : Nat) (c : Ctx) (u : UnitId) (s : State) : Nat := match runOn t (otherCtx c) s with
  | some (_, y) => (y.queue u).length
  | none => 0

/-- The unit's issue queue has a free entry (R284); filler instructions take at most 2 of them (R308). -/
def queueRoom (x : JobTile) (w : W128) (c : Ctx) (s : State) : Bool := match unitOf w with
  | some u => (x.queue u).length + otherEntries x.tile c u s < unitDepth u && (c == .normal || (x.queue u).length < 2)
  | none => true

/-- The queue that an instruction of the normal context needs is full only because filler instructions hold entries of it: the wait
counts as YIELD (R308). -/
def yields (x : JobTile) (w : W128) (c : Ctx) : Bool := match unitOf w with
  | some u => c == .normal && (x.queue u).length < unitDepth u
  | none => false

/-- The channel that a SEND of tile `t` names: local and remote entries alike (R281). -/
def outChannel (j : Job) (t i : Nat) : Option Channel := j.channels.find? fun h => h.srcTile == t && h.srcIndex == i

/-- The channel that a RECV of tile `t` names, to this module's seat. -/
def inChannel (j : Job) (t i seat : Nat) : Option Channel :=
  j.channels.find? fun h => h.dstTile == t && h.dstIndex == i && h.dstSeat == seat

/-- The module's own seat (R53). -/
def ownSeatOf (s : State) : Nat := match topo? s with
  | some t => t.seat
  | none => 0

/-- Change the channels of a job that `f` picks. -/
def onChannel (j : Job) (f : Channel → Bool) (g : Channel → Channel) (s : State) : State :=
  onJob j.part j.num (fun j => { j with channels := j.channels.map fun h => if f h then g h else h }) s

/-- The count a CURTAIN waits for (R282): the run's, or the tile's next step curtain count if it is agreed. -/
def curtainCount (j : Job) (x : JobTile) (w : W128) : Option W64 :=
  match j.run with
  | none => none
  | some r =>
    let base := if ifld w 103 102 == 0 then some r.start else r.stepCurtains[x.curtains]?
    base.map fun b => b + BitVec.ofNat 64 (ifld w 47 0)

/-- BARRIERs of barrier `b` that a tile has issued. -/
def JobTile.barrierCount (x : JobTile) (b : Nat) : Nat := lookup0 b x.barriers

/-- A tile stands at a BARRIER of barrier `b`. -/
def JobTile.standsAt (x : JobTile) (b : Nat) : Bool := match x.word with
  | some w => iclass w == 5 && iop w == 1 && ifld w 103 98 == b
  | none => false

/-- A tile is at an instruction that nothing of its own holds (R284): it issues, waits for no refill, and its strings are ready. -/
def JobTile.free (x : JobTile) : Bool := inRange x.state 1 3 && !x.refill && !x.ending && match x.word with
  | some w => stringReady x w && postRoom x w
  | none => false

/-- Every member has issued as many BARRIERs as this tile, this one included (R285): the members that stand at theirs, with nothing else
to hold them, issue it together. A member without a list issues none. -/
def barrierReady (j : Job) (x : JobTile) (b : Nat) : Bool :=
  (setBits (j.barriers.getD b 0) 1024).all fun t => match j.tile t with
    | some y => x.barrierCount b + 1 ≤ y.barrierCount b + b2n (y.standsAt b && y.free)
    | none => false

/-- Engine entries of a die in use (R291): requests of its tiles that an engine holds. -/
def engineUsed (u : UnitId) (die : Nat) (s : State) : Nat :=
  (s.jobs.map fun j => (j.tiles.map fun x => if x.tile / 512 == die then (x.queue u).length else 0).sum).sum

/-- The engine of a request in `Datapaths.waits`: 2 x die + (0 Jacks, 1 Domino). -/
def engineKey (t : Nat) (w : W128) : Nat := 2 * (t / 512) + (if iclass w == 3 then 0 else 1)

/-- A tile and context in `Datapaths.waits`. -/
def waiterKey (t : Nat) (c : Ctx) : Nat := 2 * t + (if c == .filler then 1 else 0)

/-- A recorded request still waits: its tile stands at a request for that engine. -/
def stillWaits (p : Nat × Nat) (s : State) : Bool :=
  match runOn (p.2 / 2) (if p.2 % 2 == 0 then .normal else .filler) s with
  | some (_, x) => match x.word with
    | some w => (iclass w == 3 || iclass w == 4) && engineKey x.tile w == p.1 && x.free
    | none => false
  | none => false

/-- No older request waits for the engine (R291). -/
def oldestWaiting (t : Nat) (c : Ctx) (w : W128) (s : State) : Bool :=
  match s.dp.waits.find? fun p => p.1 == engineKey t w && stillWaits p s with
  | some p => p.2 == waiterKey t c
  | none => true

/-- The tiles of a job lie on both dies, whose engines share their state across the bridge. -/
def Job.bothDies (j : Job) : Bool := j.tiles.any fun x => j.tiles.any fun y => x.tile / 512 != y.tile / 512

/-- The bridge class of a request to an engine, or of a SEND to a tile of the other die (R292). -/
def wordClass (j : Job) (x : JobTile) (w : W128) (s : State) : List Nat :=
  match iclass w, iop w with
  | 3, _ => if j.bothDies then [2] else []
  | 4, _ => if j.bothDies then [2] else []
  | 5, 2 => match outChannel j x.tile (ifld w 103 96) with
    | some h => if h.dstSeat == ownSeatOf s && h.dstTile / 512 != x.tile / 512 then [1] else []
    | none => []
  | _, _ => []

/-- The class condition of R285, R291 and R292. -/
def classReady (j : Job) (x : JobTile) (w : W128) (c : Ctx) (s : State) : Bool :=
  crossRoom x.tile (wordClass j x w s) s && match iclass w, iop w with
  | 3, _ => engineUsed .jacks (x.tile / 512) s < 64 && oldestWaiting x.tile c w s
  | 4, _ => engineUsed .domino (x.tile / 512) s < 64 && oldestWaiting x.tile c w s
  | 5, 0 => match curtainCount j x w with
    | some c => c ≤ now s
    | none => false
  | 5, 1 => barrierReady j x (ifld w 103 98)
  | 5, 2 => match outChannel j x.tile (ifld w 103 96) with
    | some h => h.credits != 0
    | none => false
  | 5, 3 => match inChannel j x.tile (ifld w 103 96) (ownSeatOf s) with
    | some h => h.taken < h.arrived
    | none => false
  | 5, 4 => x.fence == 0
  | _, _ => true

/-- The instruction that issued last is a BRANCH: the refill that follows belongs to its drain (R294). -/
def JobTile.branched (x : JobTile) : Bool := match x.list[x.extra.last]? with
  | some w => iclass w == 6 && iop w == 3
  | none => false

/-- The causes that an instruction can stall for, as words of Table 8.18 (R284, R285, R287, R308). -/
def mayStall (w : W128) (c : Ctx) (k : Nat) : Bool :=
  match k with
  | 2 => waitStr w != 15 || postStr w != 15
  | 3 => (unitOf w).isSome
  | 4 => iclass w == 5 && iop w == 2
  | 5 => iclass w == 5 && iop w == 3
  | 6 => iclass w == 5 && iop w == 0
  | 7 => iclass w == 5 && iop w == 1
  | 8 => iclass w == 6 && iop w == 3
  | 10 => iclass w == 5 && iop w == 4
  | 11 => iclass w == 3 || iclass w == 4
  | 13 => c == .normal && (unitOf w).isSome
  | _ => false

/-- The cause of a stall as a word of Table 8.18 (R300): the condition that stops the oldest unissued instruction, in the order
of R284; 0 when nothing does. -/
def stallCause (j : Job) (x : JobTile) (c : Ctx) (s : State) : Nat :=
  match x.word with
  | none => 0
  | some w =>
    if x.refill then (if x.branched then 8 else 9)
    else if x.state == 4 then 8
    else if !stringReady x w || !postRoom x w then 2
    else if !queueRoom x w c s then (if yields x w c then 13 else 3)
    else if classReady j x w c s then 0
    else match iclass w, iop w with
    | 5, 0 => 6
    | 5, 1 => 7
    | 5, 2 => 4
    | 5, 3 => 5
    | 5, 4 => 10
    | _, _ => 11

/-- The filler context may issue (R308): the tile's normal context has no run, or is stalled for a channel, a curtain or a barrier. -/
def fillerMay (t : Nat) (s : State) : Bool := match runOn t .normal s with
  | none => true
  | some (j, x) => let k := stallCause j x .normal s; k == 4 || k == 5 || k == 6 || k == 7

/-- The context of a job's run. -/
def Job.ctx (j : Job) : Ctx := match j.run with
  | some r => if r.filler then .filler else .normal
  | none => .normal

/-- The sequencer state of Table 8.16: STALLED when a tile that issues cannot issue its oldest instruction (R288). -/
def seqState (j : Job) (x : JobTile) (s : State) : Nat :=
  if x.state == 2 && j.running && stallCause j x j.ctx s != 0 then 3 else x.state

end Sys2Proof.Machine
end

