-- ==== Sys2Proof/Machine/Epilogue.lean ====
section
/-! DEFINITION. Machine/Epilogue.lean: the MAC instruction's fields and what the epilogue makes of an accumulator set (06 R224, 08 R274,
R275, R293), and the reads that wait for what an earlier MAC stores (R220). -/
namespace Sys2Proof.Machine

/-- The fields of a MAC instruction (Table 8.9). -/
structure MacFields where
  descA : Nat
  descB : Nat
  epi : Nat
  k : Nat
  aRow : Nat
  bCol : Nat
  k0 : Nat
  shared : Bool
  cont : Bool
  batch : Nat
  stream : Nat
  transB : Bool
deriving DecidableEq, Repr

/-- Read the body of a MAC. -/
def macFields (w : W128) : MacFields :=
  { descA := ifld w 103 96, descB := ifld w 95 88, epi := ifld w 87 80, k := ifld w 79 60, aRow := ifld w 59 44,
    bCol := ifld w 43 28, k0 := ifld w 27 12, shared := bit w.toNat 11, cont := bit w.toNat 10, batch := ifld w 9 8,
    stream := ifld w 7 6, transB := bit w.toNat 5 }

/-- Rows of an output block (R208, R209). -/
def MacFields.nrows (f : MacFields) : Nat := if f.shared then 64 else 16
/-- Columns of an output block. -/
def MacFields.ncols (f : MacFields) : Nat := if f.shared then 16 else 64
/-- First K index: K0 is in units of 32 elements. -/
def MacFields.kStart (f : MacFields) : Nat := 32 * f.k0
/-- Reduction length: 16 with a key batch (R275). -/
def MacFields.kLen (f : MacFields) : Nat := if f.batch == 2 then 16 else f.k

/-- A value of an output block: its row and column in the block, and its FP32 encoding. -/
structure Cell where
  r : Nat
  c : Nat
  v : Nat
deriving DecidableEq, Repr

/-- Where an epilogue works: the operation's row block and output column group (R275), the tile, and for R257 the row of each
block row. -/
structure Place where
  tile : Nat
  row0 : Nat
  colIn : Nat     -- first column of the accumulator block, stages 1 to 3
  col0 : Nat      -- first column of the block stored: 32 columns a group for gated SiLU
  rowIdx : List (Option Nat)
deriving DecidableEq, Repr

/-- Stage 1 input (R207, R237): unmasked accumulators as FP32. -/
def epiInput (a : AccSet) : List Cell :=
  (a.rowIdx.zipIdx.flatMap fun r => if r.1.isNone then [] else (List.range a.ncols).map fun c =>
    let v := a.vals.getD (r.2 * a.ncols + c) 0
    ⟨r.2, c, if a.int then toF32 (Val.ofInt (signed 32 v)) else v⟩)

/-- The FP32 value of an element of a tensor. -/
def f32Cell (d : Desc) (r c : Nat) (m : Mem) : Nat := toF32 (rdCell d r c m)

/-- Activation of one value (R224): ReLU by max with +0, the others rounded once. -/
def actValue (kind v : Nat) : Nat := if kind == 0 then f32Max v 0 else toF32 (actExact kind v)

/-- Gated SiLU (Table 6.6): columns 0 to 31 gate columns 32 to 63 of their row, with one rounding. -/
def gatedSilu (cs : List Cell) : List Cell :=
  cs.filterMap fun g => if g.c < 32 then
    (cs.find? fun v => v.r == g.r && v.c == g.c + 32).map fun v => ⟨g.r, g.c, toF32 ((actExact 3 g.v).mul (ofF32 v.v))⟩ else none

/-- The dice key of an epilogue entry for a purpose (R253, R254). -/
def diceKey (j : Job) (e : Epi) (t purpose : Nat) : DiceKey :=
  { seed := j.seeds.getD e.seedSlot 0, step := j.step, purpose, site := e.site, layer := e.layer, tile := t }

/-- The element index of a value of a block (R257). -/
def cellIndex (e : Epi) (p : Place) (c : Cell) : Nat :=
  elemIndex e.elemBase ((p.rowIdx.getD c.r none).getD 0) e.rowStride (p.col0 + c.c)

/-- Stages 1 to 5 of Table 6.6. -/
def epiStages (j : Job) (x : JobTile) (e : Epi) (p : Place) (m : Mem) (cs : List Cell) : List Cell :=
  let on := fun (i : Nat) (f : Cell → Nat) (cs : List Cell) => if e.has i then cs.map fun c => { c with v := f c } else cs
  let cs := on 1 (fun c => f32Mul c.v (if e.scalar? then e.scalar else f32Cell (x.desc e.scale) 0 (p.colIn + c.c) m)) cs
  let cs := on 2 (fun c => f32Add c.v (f32Cell (x.desc e.bias) 0 (p.colIn + c.c) m)) cs
  let cs := on 3 (fun c => f32Add c.v (f32Cell (x.desc e.resid) (p.row0 + c.r) (p.colIn + c.c) m)) cs
  let cs := if e.has 4 then
      (if e.act == 4 then gatedSilu cs else cs.map fun c => { c with v := actValue e.act c.v }) else cs
  on 5 (fun c => dropout e.threshold e.dropScale (draw (diceKey j e p.tile 0) (cellIndex e p c)) c.v) cs

/-- h at run start (R525). -/
def digestSeed (t d : Nat) : Nat := mix (0x4c41594500000000 ^^^ (d <<< 16) ^^^ t)

/-- Fold a block into a layer digest (R525). -/
def foldDigest (h : Nat) (cs : List Cell) : Nat :=
  let blk := cs.foldl (fun b c => (b + mix ((c.r <<< 40) ^^^ (c.c <<< 32) ^^^ c.v)) % 2 ^ 64) 0
  mix (h ^^^ blk ^^^ (cs.length <<< 48 % 2 ^ 64))

/-- Stage 6 on a tile's digests. -/
def JobTile.fold (x : JobTile) (d : Nat) (cs : List Cell) : JobTile :=
  let h := match x.folded.find? fun p => p.1 == d with
    | some p => p.2.toNat
    | none => digestSeed x.tile d
  { x with folded := (d, BitVec.ofNat 64 (foldDigest h cs)) :: x.folded.filter fun p => p.1 != d }

/-- The draw of a stochastic rounding (R245). -/
def srDraw (j : Job) (e : Epi) (p : Place) (c : Cell) : Nat :=
  if e.round == 2 then draw (diceKey j e p.tile 1) (cellIndex e p c) else 0

/-- A converted block: elements and MX scale bytes to store. -/
structure Converted where
  elems : List (Nat × Nat × Nat)    -- row, column, encoding
  scales : List (Nat × Nat × Nat)   -- row, first column of the block, scale byte
  num : NumRec

/-- Convert 32 values of a row to MX (R241). -/
def convertBlock (f : Nat) (j : Job) (e : Epi) (p : Place) (cs : List Cell) (n : NumRec) : Converted :=
  let (x, vs) := mxConvert f e.round (cs.map fun c => ofF32 c.v) (cs.map (srDraw j e p))
  { elems := (cs.zip vs).map fun q => (p.row0 + q.1.r, p.col0 + q.1.c, q.2.code),
    scales := match cs with
      | c :: _ => [(p.row0 + c.r, p.col0 + c.c, x)]
      | [] => [],
    num := n.wroteBlock x vs }

/-- Stage 7 (R241 to R245): convert values of a block to format `f`; MX by rows, 32 columns a block. -/
def convertCells (f : Nat) (j : Job) (e : Epi) (p : Place) (cs : List Cell) (n : NumRec) : Converted :=
  if isMx f then
    let rows := (List.range 64).flatMap fun r => [(r, 0), (r, 1)]
    rows.foldl (fun a rb =>
      match cs.filter fun c => c.r == rb.1 && c.c / 32 == rb.2 with
      | [] => a
      | blk =>
        let b := convertBlock f j e p blk a.num
        ⟨a.elems ++ b.elems, a.scales ++ b.scales, b.num⟩) ⟨[], [], n⟩
  else
    cs.foldl (fun a c =>
      let v := convert f e.round (srDraw j e p c) e.sat (ofF32 c.v)
      ⟨a.elems ++ [(p.row0 + c.r, p.col0 + c.c, v.code)], a.scales, a.num.wrote f v⟩) ⟨[], [], n⟩

/-- The ranges that converted values are stored to. -/
def Converted.ranges (k : Converted) (d : Desc) : List (Nat × Nat) :=
  (k.elems.map fun q => d.span (d.place q.1 q.2.1).1 (d.place q.1 q.2.1).2 1) ++
    k.scales.map fun q => (d.scaleAddr (d.place q.1 q.2.1).1 ((d.place q.1 q.2.1).2 / 32), 1)

/-- Store converted values (R239, R275). -/
def Converted.store (k : Converted) (f : Nat) (d : Desc) (m : Mem) : Mem :=
  let m := k.elems.foldl (fun m q => wrElem f d (d.place q.1 q.2.1).1 (d.place q.1 q.2.1).2 q.2.2 m) m
  k.scales.foldl (fun m q =>
    wrByte (d.scaleAddr (d.place q.1 q.2.1).1 ((d.place q.1 q.2.1).2 / 32)) (BitVec.ofNat 8 q.2.2) m) m

/-- Gather words (address, value) into add-writes of 64 B lines, in order (R343). -/
def addWrites (part : Nat) (int : Bool) : List (Nat × Nat) → List AddWrite
  | [] => []
  | (a, v) :: r =>
    let line := a / 64 * 64
    let i := a % 64 / 4
    match addWrites part int r with
    | w :: ws =>
      if w.addr == line && !w.mask.testBit i then { w with mask := w.mask ||| 2 ^ i, vals := setAt w.vals i v } :: ws
      else { part, addr := line, mask := 2 ^ i, int, vals := setAt (List.replicate 16 0) i v } :: w :: ws
    | [] => [{ part, addr := line, mask := 2 ^ i, int, vals := setAt (List.replicate 16 0) i v }]

/-- The add-writes of an epilogue (R293, R343), each with the bridge credit it needs to reach the other die (R292). -/
def crossingAdds (t : Nat) (ws : List AddWrite) (s : State) : List AddWrite :=
  ws.map fun w => { w with die := if w.channel s / 128 == t / 512 then 2 else t / 512 }

/-- Add-writes stay within the partition's stack memory (R316). -/
def addsBound (part : Nat) (ws : List AddWrite) (s : State) : Option Stop :=
  (ws.find? fun w => !inside w.addr 64 (jobRange part s)).map fun w => ⟨0x000B, w.addr⟩

/-- The place of an operation's block (R275). -/
def placeOf (x : JobTile) (f : MacFields) (e : Epi) (xv : Nat) (rows : List (Option Nat)) : Place :=
  let gated := e.has 4 && e.act == 4
  let group := (f.bCol + xv) % 2 ^ 16
  { tile := x.tile, row0 := f.aRow * f.nrows, colIn := group * f.ncols, col0 := group * (if gated then 32 else f.ncols), rowIdx := rows }

/-- The elements of the scale, bias and residual that an epilogue reads. -/
def epiReads (x : JobTile) (e : Epi) (p : Place) (cs : List Cell) : List (Nat × Nat) :=
  let at' := fun (d : Desc) (r c : Nat) => d.spans (d.place r c).1 (d.place r c).2 1
  (if e.has 1 && !e.scalar? then cs.flatMap fun c => at' (x.desc e.scale) 0 (p.colIn + c.c) else []) ++
    (if e.has 2 then cs.flatMap fun c => at' (x.desc e.bias) 0 (p.colIn + c.c) else []) ++
    (if e.has 3 then cs.flatMap fun c => at' (x.desc e.resid) (p.row0 + c.r) (p.colIn + c.c) else [])

/-- The epilogue of an operation (R224, R275): stages 1 to 8 of its entry; its add-writes wait in the instruction for their credits
(R293). -/
def epilogueOf (j : Job) (x : JobTile) (w : W128) (xv : Nat) (a : AccSet) (e : Epi) (s : State) : Except Stop State :=
  let p := placeOf x (macFields w) e xv a.rowIdx
  let cs := epiInput a
  let num := x.num.saw (cs.map Cell.v)
  let out := x.desc e.out
  match checkReads j x.tile (epiReads x e p cs) s with
  | some st => .error st
  | none =>
    let s := countSpill j x.tile false (epiReads x e p cs) s
    let cs := epiStages j x e p s.mem cs
    let tileWith := fun (n : NumRec) (y : JobTile) => { (if e.has 6 then y.fold e.digest cs else y) with num := n }
    let fmt := if e.has 7 then e.conv else 0
    let k := convertCells fmt j e p cs num
    if e.has 8 && e.addWrite then
      let ws := addWrites j.part false (cs.map fun c =>
        let (l, i) := out.place (p.row0 + c.r) (p.col0 + c.c)
        ((out.lineAddr l + 4 * i) % 2 ^ 48, c.v))
      match addsBound j.part ws s with
      | some st => .error st
      | none =>
        let ws := crossingAdds x.tile ws s
        .ok (feedTile j.part j.num x.tile (onTile j x.tile (fun y =>
          { tileWith ((num.staged false k.num).added (cs.map Cell.v)) y with
            arrays := match y.arrays with
              | h :: r => { h with held := ws } :: r
              | [] => [] }) s))
    else if e.has 8 then
      let d := { out with format := fmt }
      let rs := k.ranges d
      match checkWrites j.part x.tile rs s with
      | some st => .error st
      | none =>
        let s := prepareWrites j x.tile rs s
        .ok (finishWrites j.part rs s.mem { (onTile j x.tile (tileWith (num.staged true k.num)) s) with
                                            mem := k.store fmt d s.mem })
    else .ok (onTile j x.tile (tileWith (num.staged false k.num)) s)

/-! Reads that follow a write of the same tile (R220). -/

/-- The bytes of OUT that a MAC's epilogue stores: the lines of its block. -/
def outRanges (x : JobTile) (e : Entry) : List (Nat × Nat) :=
  let f := macFields e.word
  match x.epi f.epi with
  | some ep =>
    if f.epi == 0xFF || !ep.has 8 || ep.addWrite then []
    else
      let p := placeOf x f ep e.x []
      let n := if ep.has 4 && ep.act == 4 then 32 else f.ncols
      let d := { x.desc ep.out with format := if ep.has 7 then ep.conv else 0 }
      if d.kdim then (List.range n).flatMap fun c => d.spans (p.col0 + c) p.row0 f.nrows
      else (List.range f.nrows).flatMap fun r => d.spans (p.row0 + r) p.col0 n
  | none => []

/-- Some range holds core-store bytes that a MAC of the tile, issued and not ended, still has to store (R220). -/
def JobTile.owes (x : JobTile) (rs : List (Nat × Nat)) : Bool :=
  x.arrays.any fun e => !e.ended && (outRanges x e).any fun w => inCoreWindow w.1 && rs.any (overlap w)

/-- A tile's instruction may read ranges now: the bridge takes its accesses (R292, R311), no earlier write is outstanding (R220), and no bank or
lane that they reach is under test (R530). -/
def mayRead (j : Job) (x : JobTile) (rs : List (Nat × Nat)) (s : State) : Bool :=
  crossRoom x.tile (accessClass j.part x.tile rs s) s && !x.owes rs && !testHolds rs s

end Sys2Proof.Machine
end

