-- ==== Sys2Proof/Machine/Crc.lean ====
section
/-! DEFINITION. Machine/Crc.lean: the CRC-32 of R620, and the records of the flash that carry it: activation header copies
(R585, R586) and update journal entries (R587). -/
namespace Sys2Proof.Machine

/-- One bit step of R620. -/
def crcStep (c : W32) : W32 := if c.getLsbD 0 then (c >>> 1) ^^^ 0xEDB88320 else c >>> 1

/-- One byte of R620: eight bit steps. -/
def crcByte (c : W32) (b : Byte) : W32 :=
  let c := c ^^^ b.setWidth 32
  crcStep (crcStep (crcStep (crcStep (crcStep (crcStep (crcStep (crcStep c)))))))

/-- CRC-32 of bytes in ascending address order (R620). -/
def crc32 (bs : List Byte) : W32 := ~~~ (bs.foldl crcByte 0xFFFFFFFF)

/-- CHECK of a record of words: the CRC of all bytes before the last word (R585: bytes 0 to 119, R587: 0 to 247). -/
def checkOf (ws : List W64) : Nat := (crc32 (ofWords ws)).toNat

end Sys2Proof.Machine
end

