-- ==== Sys2Proof/Machine/Fabric.lean ====
section
/-! DEFINITION. Machine/Fabric.lean: the fabric below its messages (12_dranto_fabric.md): flits, credits and retry, route tables,
packets and messages to pod members, DMT flows, link failure, handover and training. A packet begins in slot 1 of a flit. -/
namespace Sys2Proof.Machine

/-- Link `k`. -/
def linkOf (k : Nat) (s : State) : Link := s.fab.links.getD k {}

/-- Change the fabric. -/
def onFab (f : Fabric → Fabric) (s : State) : State := { s with fab := f s.fab }

/-- Change link `k`. -/
def onLink (k : Nat) (f : Link → Link) (s : State) : State := onFab (fun b => { b with links := upd b.links k f }) s

/-- The blueprint's word of link `k`. -/
def linkCfg (k : Nat) (s : State) : LinkCfg := (linkCfgs s).getD k ⟨0, 0, 0, 0, 0, false⟩

/-- The module's seat, and its pod and member. -/
def seatOf (s : State) : Nat := match topo? s with
  | some t => t.seat
  | none => 0

/-- The seat of a member of the module's own pod (R53). -/
def memberSeat (d : Nat) (s : State) : Nat := seatOf s / 64 * 64 + d

/-- POD_MEMBERS. -/
def podMembers? (s : State) : Nat := match topo? s with
  | some t => t.podMembers
  | none => 1

/-- FORWARD_ENABLE. -/
def forwardEnable (s : State) : Bool := match topo? s with
  | some t => t.forwardEnable
  | none => false

/-- The partition that holds a link. -/
def partOfLink (k : Nat) (s : State) : Option Nat := (partCfgs s).findIdx? fun p => p.links.testBit k

/-- A partition holds link `k`. -/
def partHolds (n k : Nat) (s : State) : Bool := match (partCfgs s)[n]? with
  | some p => p.links.testBit k
  | none => false

/-- Link `k` is in the route table in force (R442). -/
def inForce (l : Link) (s : State) : Bool := if s.fab.tableB then l.inB else l.inA

/-- A link that carries traffic of the routes: ACTIVE, or NARROWING, which stays in the tables (R443, R470). -/
def Link.carries (l : Link) : Bool := l.state == 4 || l.state == 5

/-! Packets. -/

/-- VL, OPCODE, DST_MEMBER, SRC_MEMBER, LEN and KEY of a packet (Table 12.6). -/
def Packet.vl (p : Packet) : Nat := fld p.h0 63 61
/-- OPCODE. -/
def Packet.opcode (p : Packet) : Nat := fld p.h0 60 53
/-- DST_MEMBER. -/
def Packet.dst (p : Packet) : Nat := fld p.h0 52 47
/-- SRC_MEMBER. -/
def Packet.src (p : Packet) : Nat := fld p.h0 46 41
/-- LEN. -/
def Packet.len (p : Packet) : Nat := fld p.h0 40 35
/-- FWD. -/
def Packet.fwd (p : Packet) : Bool := bit p.h0.toNat 32
/-- KEY. -/
def Packet.key (p : Packet) : Nat := fld p.h0 31 0
/-- ADDRESS. -/
def Packet.addr (p : Packet) : Nat := fld p.h1 63 16
/-- TAG. -/
def Packet.tag (p : Packet) : Nat := fld p.h1 15 0

/-- Slots of a packet: its header and its payload; a READ has none (R432). -/
def Packet.slots (p : Packet) : Nat := 1 + (if p.opcode == 0x01 then 0 else p.len)

/-- Fill bytes up to whole slots. -/
def padSlots (b : List Byte) : List Byte := b ++ List.replicate ((16 - b.length % 16) % 16) 0

/-- Build a packet (Table 12.6). -/
def packet (vl op dst src len : Nat) (first last : Bool) (key addr tag : Nat) (data : List Byte) : Packet :=
  { h0 := pack [(vl, 61, 3), (op, 53, 8), (dst, 47, 6), (src, 41, 6), (len, 35, 6), (b2n first, 34, 1), (b2n last, 33, 1),
                (key, 0, 32)],
    h1 := pack [(addr, 16, 48), (tag, 0, 16)], data := padSlots data }

/-- A packet with FWD set (R444). -/
def Packet.forwarded (p : Packet) : Packet := { p with h0 := p.h0 ||| BitVec.ofNat 64 (2 ^ 32) }

/-! Flits. -/

/-- The 32 words of a flit (R430): header with acknowledgement and credits, CRC of R620, 15 slots. -/
def flitWords (l : Link) (ftype seq first : Nat) (slots : List W64) : List W64 :=
  let w0 := pack [(ftype, 60, 4), (seq, 48, 12), (l.rxSeq, 36, 12), (b2n l.rxValid, 35, 1), (b2n l.gap, 34, 1), (first, 30, 4),
                  (l.freed.getD 4 0 % 256, 22, 8)]
  let cr := [(l.freed.getD 0 0 % 256, 56, 8), (l.freed.getD 1 0 % 256, 48, 8), (l.freed.getD 2 0 % 256, 40, 8),
             (l.freed.getD 3 0 % 256, 32, 8)]
  let body := (slots ++ List.replicate 30 0).take 30
  let crc := (crc32 (ofWords (w0 :: pack cr :: body))).toNat
  w0 :: pack ((crc, 0, 32) :: cr) :: body

/-- Send an IDLE flit: acknowledgements and credits only (R430). -/
def sendIdle (k : Nat) (s : State) : State := send (.flit k (flitWords (linkOf k s) 0 0 0 [])) s

/-- Send one DATA flit. -/
def sendFlit (k : Nat) (f : TxFlit) (s : State) : State :=
  send (.flit k (flitWords (linkOf k s) 1 f.seq (b2n f.head.isSome) f.slots)) s

/-- The DATA flits of a packet (R433): it begins in slot 1, and unused slots follow one PAD header. -/
def packetFlits (seq : Nat) (p : Packet) : List TxFlit :=
  let ws := p.h0 :: p.h1 :: toWords p.data
  let n := (ws.length + 29) / 30
  (List.range n).map fun i =>
    { seq := (seq + i) % 4096, slots := (ws.drop (30 * i)).take 30, head := if i == 0 then some p else none }

/-- The receiver has room for the whole packet, and the retry buffer too (R431, R435). -/
def Link.sendable (l : Link) (p : Packet) : Bool :=
  (l.state == 4 || (l.state == 3 && p.vl == 4)) && p.slots ≤ l.avail.getD p.vl 0 &&
    l.retry.length + (p.slots + 14) / 15 ≤ 512

/-- The first packet of a virtual lane that waits. -/
def Link.headOf (l : Link) (v : Nat) : Option Packet := l.txq.find? fun p => p.vl == v

/-- The next packet by deficit round robin over VL0 to VL3 with a quantum of 32 slots (R436). -/
def Link.roundRobin : Nat → Link → Option (Packet × Link)
  | 0, _ => none
  | n + 1, l =>
    let v := l.ptr
    let next := { l with ptr := (v + 1) % 4, deficit := upd l.deficit ((v + 1) % 4) (· + 32) }
    match l.headOf v with
    | none => roundRobin n { next with deficit := setAt next.deficit v 0 }
    | some p =>
      if !l.sendable p then roundRobin n { next with deficit := setAt next.deficit v (min 32 (l.deficit.getD v 0)) }
      else if p.slots ≤ l.deficit.getD v 0 then some (p, { l with deficit := upd l.deficit v (· - p.slots) })
      else roundRobin n next

/-- The next packet a transmitter chooses (R436): VL4 first, in no more than one flit of every 16 while another lane can send. -/
def Link.choose (l : Link) : Option (Packet × Link) :=
  match l.headOf 4, l.roundRobin 12 with
  | some p, some r => if l.sendable p && l.hold4 == 0 then some (p, l) else some r
  | some p, none => if l.sendable p then some (p, l) else none
  | none, r => r

/-! Atomics (R441): the new value of an element. -/

/-- Bytes of an element of ATYPE: 0 INT32, 1 INT64, 2 FP32, 3 DX32. -/
def atypeBytes (ty : Nat) : Nat := if ty == 1 then 8 else 4

/-- A signed element as an integer. -/
def sint (n v : Nat) : Int := if v < 2 ^ (8 * n - 1) then v else (v : Int) - 2 ^ (8 * n)

/-- The new value of an element (Table 12.9); `cmp` is the compare value of a compare-and-swap. -/
def atomicValue (aop ty old v cmp : Nat) : Nat :=
  let n := atypeBytes ty
  match aop with
  | 0 => if ty == 2 then f32Add old v else (old + v) % 2 ^ (8 * n)
  | 1 => if ty == 2 then f32Min old v else if sint n v < sint n old then v else old
  | 2 => if ty == 2 then f32Max old v else if sint n old < sint n v then v else old
  | 3 => if old == cmp then v else old
  | _ => v

/-- Take one packet out of the waiting ones. -/
def dropFirst (p : Packet) : List Packet → List Packet
  | [] => []
  | q :: r => if q == p then r else q :: dropFirst p r

/-- Send waiting packets as far as credit and the retry buffer go. -/
def drainLink (k : Nat) : Nat → State → State
  | 0, s => s
  | n + 1, s =>
    match (linkOf k s).choose with
    | none => s
    | some (p, l) =>
      let fs := packetFlits l.txSeq p
      let q := dropFirst p l.txq
      let s := onLink k (fun _ => { l with
        txq := q, txSeq := (l.txSeq + fs.length) % 4096, retry := l.retry ++ fs, avail := upd l.avail p.vl (· - p.slots),
        hold4 := if p.vl == 4 then 15 * fs.length else l.hold4 - fs.length,
        sat := if q.any fun x => x.vl == p.vl then l.sat else l.sat.filter (· != p.vl) }) s
      drainLink k n (fs.foldl (fun s f => sendFlit k f s) s)

/-- Drain a link as far as it goes. -/
def drainAll (k : Nat) (s : State) : State := drainLink k (linkOf k s).txq.length s

/-- Put a packet on a link. -/
def putPacket (k : Nat) (p : Packet) (s : State) : State := drainAll k (onLink k (fun l => { l with txq := l.txq ++ [p] }) s)

/-! The crossbar (R450 to R452). -/

/-- The opcode that answers a request (Table 12.8). -/
def answerOpcode (op : Nat) : Nat :=
  if op == 0x01 then 0x80 else if op == 0x02 then 0x81 else if op == 0x03 then 0x84 else if op % 2 == 1 then 0x83 else 0x82

/-- FIRST. -/
def Packet.first (p : Packet) : Bool := bit p.h0.toNat 34
/-- LAST. -/
def Packet.last (p : Packet) : Bool := bit p.h0.toNat 33

/-- A response with another destination member and tag. -/
def Packet.to (p : Packet) (d tag : Nat) : Packet :=
  { p with h0 := BitVec.ofNat 64 (p.h0.toNat - p.dst * 2 ^ 47 + d * 2 ^ 47), h1 := BitVec.ofNat 64 (p.h1.toNat / 2 ^ 16 * 2 ^ 16 + tag) }

/-- Opcodes that combine: READ (R450); fetch-add, min and max of INT32, INT64 or DX32 with RET 0 (R451). -/
def combines (op : Nat) : Bool := op == 0x01 || (inRange op 0x40 0x57 && op % 2 == 0 && op / 2 % 4 != 2)

/-- The operands of two atomics of one opcode as one, element by element (R451). -/
def combineData (op : Nat) (a b : List Byte) : List Byte :=
  let ty := op / 2 % 4
  let n := atypeBytes ty
  let w := fun (l : List Byte) i => leNat ((l.drop (n * i)).take n)
  (List.range (a.length / n)).flatMap fun i => leBytes n (atomicValue ((op - 0x40) / 8) ty (w a i) (w b i) 0)

/-- An entry that a request combines with (R450 to R452): 16 requests at most. -/
def Combine.takes (c : Combine) (p : Packet) (t : W64) : Bool :=
  c.opcode == p.opcode && c.member == p.dst && c.key == p.key && c.addr == p.addr && c.len == p.len && (t - c.since).toNat ≤ 64 &&
    c.others.length < 15

/-- The packet of an entry, as it waits in an output queue. -/
def Combine.isOf (c : Combine) (q : Packet) : Bool := q.vl == 0 && q.src == c.src && q.tag == c.tag && q.opcode == c.opcode

/-- A packet goes through the crossbar to link `k` (R450 to R452): a READ combines with one that awaits its data, an atomic with one that
waits in the same output queue; a request that finds the table of 512 full goes on uncombined. -/
def crossbar (k : Nat) (p : Packet) (s : State) : State :=
  let live := s.fab.combines.filter fun c => !c.others.isEmpty || (now s - c.since).toNat ≤ 64
  if !(p.vl == 0 && combines p.opcode) || (live.any fun c => c.isOf p) then putPacket k p s
  else match live.find? fun c => c.takes p (now s) && (p.opcode == 0x01 || (linkOf k s).txq.any c.isOf) with
    | some c =>
      let s := onFab (fun f => { f with
        combines := live.map fun x => if x == c then { x with others := x.others ++ [(p.src, p.tag)] } else x,
        combinedReads := f.combinedReads + b2n (p.opcode == 0x01), combinedAtomics := f.combinedAtomics + b2n (p.opcode != 0x01) }) s
      if p.opcode == 0x01 then s
      else
        let join := fun q : Packet => if c.isOf q then { q with data := combineData p.opcode q.data p.data } else q
        onLink k (fun l => { l with txq := l.txq.map join }) s
    | none =>
      let e : Combine := { src := p.src, tag := p.tag, member := p.dst, opcode := p.opcode, key := p.key, addr := p.addr, len := p.len,
                           since := now s }
      putPacket k p (onFab (fun f => { f with combines := if live.length < 512 then live ++ [e] else live }) s)

/-! Routes. -/

/-- Links in force to member `d` that satisfy a condition (R443 point 1). -/
def directLinks (d : Nat) (f : Nat → Bool) (s : State) : List Nat :=
  (List.range 36).filter fun k =>
    let c := linkCfg k s
    let l := linkOf k s
    c.mode == 1 && c.role == 0 && c.peerSeat % 64 == d && f k && inForce l s && l.carries

/-- Links in force to the external switch (R443 point 2). -/
def switchLinks (f : Nat → Bool) (s : State) : List Nat :=
  if ((topo? s).map TopoCfg.topology).getD 0 < 2 then []
  else (List.range 36).filter fun k =>
    (linkCfg k s).mode == 1 && (linkCfg k s).role == 1 && f k && inForce (linkOf k s) s && (linkOf k s).carries

/-- The lowest-numbered peer that forwards to `d` (R443 point 3). -/
def forwarder (n d : Nat) (s : State) : Option Nat :=
  (List.range (podMembers? s)).find? fun p => (directLinks p (partHolds n · s) s).any fun k =>
    (linkOf k s).reach.toNat.testBit d && (linkOf k s).peerForward

/-- The route of a partition to a member (R443): its links, and whether packets leave with FWD set (R444). -/
def routeTo (n d : Nat) (s : State) : Option (List Nat × Bool) :=
  match directLinks d (partHolds n · s) s with
  | k :: r => some (k :: r, false)
  | [] => match switchLinks (partHolds n · s) s with
    | k :: r => some (k :: r, true)
    | [] => (forwarder n d s).map fun p => (directLinks p (partHolds n · s) s, false)

/-- i of R317 for a memory-semantic request. -/
def memoryHash (a : Nat) : Nat := (a >>> 12) ^^^ (a >>> 21) ^^^ (a >>> 30)

/-- Send a packet to a member over link i % n of the route (R317, R444): none when there is no route. -/
def routePacket (n d i : Nat) (p : Packet) (s : State) : Option State :=
  (routeTo n d s).map fun r =>
    crossbar (r.1.getD (i % (max 1 r.1.length)) 0) (if r.2 then p.forwarded else p) s

/-- The link index of a Jacks message (R317): by token and choice when it carries a row. -/
def jacksIndex (h : List W64) : Nat :=
  let t := fld (h.getD 0 0) 63 60
  if t == 2 || t == 3 || t == 6 || t == 7 then fld (h.getD 1 0) 50 32 + 8 * fld (h.getD 0 0) 26 24
  else 0

/-- i of R317 for a packet that begins a message: a memory-semantic request by its address, and a response by that of its request; a channel
entry or credit by SRC_TILE and SRC_INDEX; a Jacks message by its header; a collective one by its chunk. -/
def packetIndex (p : Packet) : Nat :=
  match p.vl with
  | 0 => if p.opcode == 0x03 then p.key / 2 ^ 18 else memoryHash p.addr
  | 1 => if p.opcode == 0x85 then p.key / 2 ^ 18 else memoryHash p.addr
  | 2 => jacksIndex (toWords (p.data.take 16))
  | 3 => fld ((toWords (p.data.take 16)).getD 1 0) 38 19
  | _ => 0

/-- A packet of a message that has its header in its first packet. -/
def Packet.inMessage (p : Packet) : Bool := p.vl == 2 || p.vl == 3

/-- The message of a packet, among those under way. -/
def Packet.streamIs (p : Packet) (e : Nat × Nat × Nat × Nat) : Bool := e.1 == p.src && e.2.1 == p.key && e.2.2.1 == p.vl

/-- i of R317 for a packet: later packets of a message go where its first went (R433). -/
def indexOf (p : Packet) (s : State) : Nat :=
  if p.inMessage && !p.first then ((s.fab.streams.find? p.streamIs).map fun e => e.2.2.2).getD 0 else packetIndex p

/-- Keep where a message goes from its first packet to its last. -/
def noteStream (p : Packet) (s : State) : State :=
  if !p.inMessage then s
  else
    let i := indexOf p s
    onFab (fun f => { f with streams := (if p.last then [] else [(p.src, p.key, p.vl, i)]) ++ f.streams.filter fun e => !p.streamIs e }) s

/-- The link that carried the request of a response to be forwarded (R317). -/
def carriedBy (p : Packet) (s : State) : Option Nat :=
  if p.vl == 1 && p.opcode != 0x85 then (s.fab.carried.find? fun e => e.1 == p.dst && e.2.1 == p.tag).map fun e => e.2.2 else none

/-- Keep what a forwarded packet of link `k` leaves for those that follow it: its message's link, its request's link. -/
def noteForward (k : Nat) (p : Packet) (s : State) : State :=
  let s := noteStream p s
  if p.vl == 0 then onFab (fun f => { f with
    carried := (p.src, p.tag, k) :: f.carried.filter fun e => !(e.1 == p.src && e.2.1 == p.tag) }) s
  else if (carriedBy p s).isSome then onFab (fun f => { f with carried := f.carried.filter fun e => !(e.1 == p.dst && e.2.1 == p.tag) }) s
  else s

/-- A packet that has no route and is not a VL0 request (R445). -/
def noRoute (n d : Nat) (s : State) : State := raiseP n 0x8009 (unitPart n) (BitVec.ofNat 64 d) s

/-- A packet other than a request that came or left on link `k` is dropped for want of a route (R445): counted and reported. -/
def dropPacket (k : Nat) (p : Packet) (s : State) : State :=
  let s := onLink k (fun l => { l with noRouteDrops := l.noRouteDrops + 1 }) s
  match partOfLink k s with
  | some n => noRoute n p.dst s
  | none => s

/-- An answer packet: STATUS in the KEY field, the request's address and tag. -/
def answerPacket (own : Nat) (p : Packet) (status : Nat) (data : List Byte) : Packet :=
  packet 1 (answerOpcode p.opcode) p.src own ((data.length + 15) / 16) true true (status * 2 ^ 24) p.addr p.tag data

/-- A packet of the failed link `k` is sent again over the new routes (R469): the module's own on the routes of the link's partition, one
that it forwards on the forwarding routes. Where there is none, R445 applies, but that a request of the module's own stays unanswered, is
counted in RETRY_ABANDONED and falls under R453 (DEDUCED from R469, log 133). -/
def resend (k : Nat) (s : State) (p : Packet) : State :=
  let own := seatOf s % 64
  match (partOfLink k s).filter fun _ => p.src == own with
  | some n => match routePacket n p.dst (indexOf p s) p (noteStream p s) with
    | some s => s
    | none => if p.vl == 0 then onLink k (fun l => { l with retryAbandoned := l.retryAbandoned + 1 }) s else dropPacket k p s
  | none => match directLinks p.dst (fun _ => true) s with
    | l :: r => crossbar ((l :: r).getD (indexOf p s % (r.length + 1)) l) p (noteForward l p s)
    | [] =>
      if p.vl != 0 then dropPacket k p s
      else match directLinks p.src (fun _ => true) s with
        | l :: _ => putPacket l (answerPacket own p 0x06 []) s
        | [] => s

/-- A message as packets of at most 512 B on one link (R433). -/
def messagePackets (vl op dst src stream : Nat) (b : List Byte) : List Packet :=
  let n := max 1 ((b.length + 511) / 512)
  (List.range n).map fun i =>
    let d := (b.drop (512 * i)).take 512
    packet vl op dst src ((d.length + 15) / 16) (i == 0) (i + 1 == n) stream (512 * i) 0 d

/-- Send a message on VL2 or VL3 to a pod member: header words and bytes (R396, R433, R485). -/
def sendMessage (n d vl op i : Nat) (words : List W64) (data : List Byte) (s : State) : State :=
  match routeTo n d s with
  | none => noRoute n d s
  | some (ks, fwd) =>
    let ps := messagePackets vl op d (seatOf s % 64) s.fab.nextStream (padSlots (ofWords words ++ data))
    let s := onFab (fun b => { b with nextStream := (b.nextStream + 1) % 2 ^ 32 }) s
    ps.foldl (fun s p => putPacket (ks.getD (i % (max 1 ks.length)) 0) (if fwd then p.forwarded else p) s) s

/-- An agent message to a pod member on the partition's route (R457). DESIGN CHOICE: the payload layout, which belongs to the
agents' firmware. -/
def sendAgent (n d subtype : Nat) (words : List W64) (s : State) : State :=
  let p := packet 4 0xC3 d (seatOf s % 64) ((words.length + 1) / 2) true true (subtype * 2 ^ 24) 0 0 (ofWords words)
  (routePacket n d 0 p s).getD (noRoute n d s)

/-- An agent message on one link. -/
def sendAgentOn (k subtype : Nat) (words : List W64) (s : State) : State :=
  putPacket k (packet 4 0xC3 ((linkCfg k s).peerSeat % 64) (seatOf s % 64) ((words.length + 1) / 2) true true
    (subtype * 2 ^ 24) 0 0 (ofWords words)) s

/-! DMT (R458 to R466). -/

/-- The ACTIVE Ethernet-mode links of a partition, ascending (R461). -/
def dmtLinks (n : Nat) (s : State) : List Nat :=
  (List.range 36).filter fun k => (linkCfg k s).mode == 2 && (linkOf k s).state == 4 && partHolds n k s

/-- The link a flow is bound to (R461). -/
def flowLink (n flow : Nat) (s : State) : Option Nat :=
  let l := dmtLinks n s
  if l.isEmpty then none else l[flow % l.length]?

/-- The UDP source port of a flow (R459). -/
def udpSource (flow : Nat) : Nat := 0xC000 ||| (flow % 0x4000)

/-- The first three words of a DMT header (Table 12.18). -/
def dmtHeader (type cls : Nat) (last retx : Bool) (src dst flow psn ack : Nat) (sack : W64) (window : Nat) : List W64 :=
  [pack [(1, 60, 4), (type, 56, 4), (cls, 53, 3), (b2n last, 52, 1), (b2n retx, 51, 1), (src, 36, 12), (dst, 24, 12), (flow, 0, 24)],
   pack [(psn, 32, 32), (ack, 0, 32)], sack, pack [(window, 32, 32)]]

/-- The module can address a seat (R465): the link has a next hop, or the fabric manager has given the seat's IP address. -/
def addressable (seat : Nat) (s : State) : Bool := s.fab.seats.any fun p => p.1 == seat

/-- Bytes of segments that a link's transmit store holds (R463). -/
def storeUsed (k : Nat) (s : State) : Nat :=
  (s.fab.tx.map fun f => if flowLink f.part f.flow s == some k then (f.segs.map fun g => if g.out then g.data.length + 16 else 0).sum
    else 0).sum

/-- Send one segment of a flow. -/
def sendSeg (f : TxFlow) (g : Seg) (retx : Bool) (s : State) : State :=
  match flowLink f.part f.flow s with
  | none => s
  | some k =>
    let s := if retx then onLink k (fun l => { l with dmtResent := l.dmtResent + 1 }) s else s
    send (.dmt k f.seat (udpSource f.flow)
      (dmtHeader 0 f.cls g.last retx (seatOf s) f.seat f.flow g.psn 0 0 0) [g.h0, g.h1] g.data) s

/-- Change a sending flow. -/
def onTx (part seat cls flow : Nat) (h : TxFlow → TxFlow) (s : State) : State :=
  onFab (fun b => { b with tx := b.tx.map fun f =>
    if f.part == part && f.seat == seat && f.cls == cls && f.flow == flow then h f else f }) s

/-- A PSN is at most another one, modulo 2^32 (R460, R462). -/
def seqLe (a b : Nat) : Bool := (b + 2 ^ 32 - a % 2 ^ 32) % 2 ^ 32 < 2 ^ 31

/-- Send what a flow may send (R462, R463, R465): within the window, the link's store, and with an address. -/
def pumpFlow (part seat cls flow : Nat) : Nat → State → State
  | 0, s => s
  | n + 1, s =>
    match s.fab.tx.find? fun f => f.part == part && f.seat == seat && f.cls == cls && f.flow == flow with
    | none => s
    | some f =>
      match f.segs.find? fun g => !g.out, flowLink part flow s with
      | some g, some k =>
        if seqLe g.psn f.window && storeUsed k s + g.data.length + 16 ≤ 4194304 && addressable seat s then
          let s := sendSeg f g false s
          let t := now s
          pumpFlow part seat cls flow n (onTx part seat cls flow (fun f =>
            { f with segs := f.segs.map fun x => if x.psn == g.psn then { x with out := true, sent := t, since := t } else x }) s)
        else s
      | _, _ => s

/-- The inner header of a segment (R459): that of the message with LEN 0, FIRST on its first segment and LAST on its last. -/
def segHeader (h0 : W64) (first last : Bool) : W64 :=
  pack [(fld h0 63 41, 41, 23), (b2n first, 34, 1), (b2n last, 33, 1), (fld h0 32 0, 0, 33)]

/-- Send a message on a flow in segments (R459, R460): the inner ADDRESS of each segment counts on from `base`. -/
def dmtSend (part seat cls flow base : Nat) (h0 : W64) (data : List Byte) (s : State) : State :=
  let open' := s.fab.tx.any fun f => f.part == part && f.seat == seat && f.cls == cls && f.flow == flow
  let s := if open' then s else onFab (fun b => { b with tx := b.tx ++ [{ part, seat, cls, flow }] }) s
  let z := s.fab.segment
  let t := now s
  let n := max 1 ((data.length + z - 1) / z)
  let s := onTx part seat cls flow (fun f => { f with
    next := (f.next + n) % 2 ^ 32,
    segs := f.segs ++ (List.range n).map fun i =>
      { psn := (f.next + i) % 2 ^ 32, last := i + 1 == n, since := t, h0 := segHeader h0 (i == 0) (i + 1 == n), h1 := pack [(base + i * z, 16, 48)], data := (data.drop (z * i)).take z } }) s
  pumpFlow part seat cls flow n s

/-- Every flow sends what it may (R462, R463, R465). -/
def pumpAll (s : State) : State := s.fab.tx.foldl (fun s f => pumpFlow f.part f.seat f.cls f.flow f.segs.length s) s

/-! Messages with a chunk (R495). -/

/-- A message with a chunk that has been sent is not free yet (R495): in the pod a packet of it waits for credit, over DMT its last segment is
not acknowledged (DEDUCED, log 229). -/
def isAhead (s : State) (a : Ahead) : Bool :=
  if a.dmt then s.fab.tx.any fun f => f.part == a.part && f.seat == a.seat && f.cls == 3 && f.flow == a.chunk && f.segs.any fun g => g.psn == a.id
  else s.fab.links.any fun l => l.txq.any fun p => p.vl == 3 && p.src == seatOf s % 64 && p.key == a.id

/-- Messages with a chunk that an engine sends ahead of what frees them (R495). -/
def chunkLimit : Nat := 64

/-- Send a collective message to a seat (R485): on VL3 in the pod, as DMT class 3 to other pods. -/
def sendToSeat (part seat chunk : Nat) (words : List W64) (data : List Byte) (s : State) : State :=
  if seat / 64 == seatOf s / 64 then sendMessage part (seat % 64) 3 0xA0 chunk words data s
  else dmtSend part seat 3 chunk 0 (packet 3 0xA0 (seat % 64) (seatOf s % 64) 0 true true 0 0 0 []).h0 (ofWords words ++ data) s

/-- What will free a message that is sent next: its stream, or the PSN of its last segment. -/
def aheadOf (c : Chunk) (old new : State) : Ahead :=
  if c.seat / 64 == seatOf old / 64 then ⟨c.die, c.part, c.seat, c.chunk, false, old.fab.nextStream⟩
  else ⟨c.die, c.part, c.seat, c.chunk, true,
    ((new.fab.tx.find? fun f => f.part == c.part && f.seat == c.seat && f.cls == 3 && f.flow == c.chunk).map fun f =>
      (f.next + 2 ^ 32 - 1) % 2 ^ 32).getD 0⟩

/-- One message that waits is sent, or goes on waiting while its engine is 64 messages ahead (R495). -/
def sendChunk (s : State) (c : Chunk) : State :=
  if chunkLimit ≤ (s.fab.ahead.filter fun a => a.die == c.die && isAhead s a).length then onFab (fun b => { b with chunks := b.chunks ++ [c] }) s
  else
    let t := sendToSeat c.part c.seat c.chunk c.words c.data s
    let a := aheadOf c s t
    onFab (fun b => { b with ahead := b.ahead ++ [a] }) t

/-- The engines send what waits, oldest first (R495): so no descriptor delays another by more than what it has queued already. -/
def pumpChunks (s : State) : State :=
  s.fab.chunks.foldl sendChunk (onFab (fun b => { b with chunks := [], ahead := b.ahead.filter (isAhead s) }) s)

/-- The messages of a job that wait are gone. -/
def dropChunks (part job : Nat) (s : State) : State :=
  onFab (fun b => { b with chunks := b.chunks.filter fun c => c.part != part || c.job != job }) s

/-- Every flow sends what it may, after the links of DMT changed from those of state `old` (R461): what was out of a flow that is bound to
another link now is resent on it. -/
def rebindFlows (old s : State) : State :=
  s.fab.tx.foldl (fun s f =>
    let s := if flowLink f.part f.flow old == flowLink f.part f.flow s then s
      else (f.segs.filter Seg.out).foldl (fun s g => sendSeg f g true s) s
    pumpFlow f.part f.seat f.cls f.flow f.segs.length s) s

/-- The flows of a partition but for sync, heartbeats and agent messages start again (R460): PSNs from 0, nothing under way. -/
def restartFlows (n : Nat) (s : State) : State :=
  pumpChunks (onFab (fun f => { f with
    tx := f.tx.filter (fun x => x.part != n || x.cls == 4), rx := f.rx.filter fun x => x.part != n || x.cls == 4 }) s)

/-! Training. -/

/-- Attempts start (R426, R429): numbers, credits and the peer's identity start again. -/
def startTraining (k : Nat) (s : State) : State :=
  onLink k (fun l =>
    { ({} : Link) with
      state := 1, stage := 1, cause := l.cause, downCount := l.downCount, attempts := l.attempts, nextHop := l.nextHop,
      protocolErrors := l.protocolErrors, lateResponses := l.lateResponses, noRouteDrops := l.noRouteDrops,
      retryAbandoned := l.retryAbandoned + (l.retry.filter fun f => f.head.isSome).length, resent := l.resent, fecCorrected := l.fecCorrected, dmtResent := l.dmtResent,
      dmtDiscards := l.dmtDiscards, inA := l.inA, inB := l.inB, switchAt := l.switchAt, txq := l.txq }) s

/-- Every link with a MODE starts training (R426, R429): when firmware starts. -/
def trainAll (s : State) : State :=
  (List.range 36).foldl (fun s k => if (linkCfg k s).mode == 0 then s else startTraining k s) s

/-- An attempt fails (R427): after 10 ms the next, after four FAILED. -/
def attemptFails (k : Nat) (s : State) : State :=
  let l := linkOf k s
  let s := onLink k (fun l => { l with attempts := satInc 255 l.attempts, tries := l.tries + 1, waiting := true }) s
  if l.tries + 1 < 4 then s
  else
    let s := onLink k (fun l => { l with state := 7, cause := 7, stage := 0, waiting := false }) s
    raiseM (partOfLink k s) 0x8002 (unitLink k) (BitVec.ofNat 64 l.stage) s

/-- The identity flit of this end (R428). -/
def sendIdentity (k : Nat) (s : State) : State :=
  let c := linkCfg k s
  send (.identity k (seatOf s) k c.mode c.narrowAllowed (forwardEnable s) (linkOf k s).lanePair) s

/-- A link in training goes on to its next stage (Table 12.4). -/
def nextStage (k : Nat) (s : State) : State :=
  let l := linkOf k s
  if l.stage == 2 then sendIdentity k (onLink k (fun l => { l with stage := 3, state := 2 }) s)
  else if l.stage == 5 then onLink k (fun l => { l with stage := 0, state := 3 }) s
  else onLink k (fun l => { l with stage := l.stage + 1 }) s

/-! Failure and handover. -/

/-- Write the table not in force as the one in force without some links and with others, and put it in force (R469, R471). -/
def flipTables (out add : List Nat) (s : State) : State :=
  let b := s.fab.tableB
  onFab (fun f => { f with
    tableB := !b,
    links := f.links.zipIdx.map fun p =>
      let cur := if b then p.1.inB else p.1.inA
      let v := (cur && !out.contains p.2) || add.contains p.2
      if b then { p.1 with inA := v } else { p.1 with inB := v } }) s

/-- What follows a handover (R469): packets that still wait take the new routes; training, but for causes 5 and 6. -/
def afterDown (k : Nat) (s : State) : State :=
  let l := linkOf k s
  let s := onLink k (fun l => { l with handover := false, retry := [], txq := [] }) s
  let s := pumpChunks (l.txq.foldl (resend k) s)
  if l.cause == 5 then onLink k (fun l => { l with state := 0 }) s
  else if l.cause == 6 then s
  else startTraining k s

/-- The retry buffer is given up (R469): its packets are counted. -/
def abandonRetry (k : Nat) (s : State) : State :=
  let n := ((linkOf k s).retry.filter fun f => f.head.isSome).length
  afterDown k (onLink k (fun l => { l with retryAbandoned := l.retryAbandoned + n }) s)

/-- A link enters DOWN (R468, R469): failure flip, link-down, HANDOVER over the new route. Nothing was carried by a link in
STANDBY, so no flip and no handover run for it. -/
def failLink (k cause : Nat) (s : State) : State :=
  let l := linkOf k s
  if (linkCfg k s).mode != 1 || !(inRange l.state 3 5) then s
  else
    let s := onLink k (fun l => { l with state := 6, cause, downCount := satInc 0xFFFF l.downCount, rxLeft := 0, handover := true }) s
    let s := if l.carries then flipTables [k] [] s else s
    let s := raiseM (partOfLink k s) 0x8003 (unitLink k) (BitVec.ofNat 64 cause) s
    let d := (linkCfg k s).peerSeat % 64
    let words := [BitVec.ofNat 64 (linkCfg k s).peerLink, BitVec.ofNat 64 l.rxWhole]
    if !l.carries || (linkCfg k s).role == 1 then abandonRetry k s
    else match partOfLink k s, directLinks d (fun _ => true) s with
      | some n, _ => if (routeTo n d s).isNone then abandonRetry k s else sendAgent n d 0x02 words s
      | none, i :: _ => sendAgentOn i 0x02 words s
      | none, [] => abandonRetry k s

/-- An Ethernet-mode link leaves the DMT flows (R461, R473). -/
def leaveFlows (k cause : Nat) (s : State) : State :=
  let s := onLink k (fun l => { l with state := 6, cause, downCount := satInc 0xFFFF l.downCount }) s
  raiseM (partOfLink k s) 0x8003 (unitLink k) (BitVec.ofNat 64 cause) s

/-- A link is disabled or enabled by an order (R473, R475). -/
def orderLink (k : Nat) (enable : Bool) (s : State) : State :=
  let l := linkOf k s
  let m := (linkCfg k s).mode
  if m == 0 then s
  else if enable then (if l.state == 0 || l.state == 7 then startTraining k s else s)
  else if l.state == 0 then s
  else if m == 2 then
    if l.state == 4 then
      rebindFlows s (onLink k (fun l => { l with state := 0 }) (leaveFlows k 5 s))
    else onLink k (fun l => { l with state := 0, cause := 5, stage := 0, waiting := false }) s
  else if l.carries then
    onLink k (fun l => { l with state := 0 }) (failLink k 5 s)
  else onLink k (fun l => { l with state := 0, cause := 5, stage := 0, waiting := false }) s

/-- Links at entry to the clock-loss wait (R474): DOWN with cause 9, in no route, buffers and requests discarded. A link that is
DISABLED or FAILED stays so (DEDUCED from Table 12.3). -/
def linksClockLost (s : State) : State :=
  onFab (fun f => { f with
    reqs := [], combines := [], copies := [], carried := [], streams := [], chunks := [], ahead := [], tx := f.tx.map (fun t => { t with segs := [] }), resolves := [],
    links := f.links.zipIdx.map fun p =>
      let l := p.1
      let l := { l with inA := false, inB := false, retry := [], txq := [], handover := false }
      if (linkCfg p.2 s).mode == 0 || l.state == 0 || l.state == 7 then l
      else { l with state := 6, cause := 9, stage := 0, waiting := false,
                    downCount := if l.state == 6 then l.downCount else satInc 0xFFFF l.downCount } }) s

/-- Links train after the clock-loss wait (R123, R474). -/
def linksClockBack (s : State) : State :=
  (List.range 36).foldl (fun s k => if (linkOf k s).state == 6 && (linkOf k s).cause == 9 then startTraining k s else s) s

/-! Outstanding requests. -/

/-- Requests of a partition are abandoned (R454), those that DMT carries too: later answers are discarded under R437. -/
def abandonRequests (n : Nat) (s : State) : State := onFab (fun f => { f with
  reqs := f.reqs.filter (fun r => r.part != n), chunks := f.chunks.filter (fun c => c.part != n),
  tx := f.tx.map fun x => if x.part == n && x.cls != 4 then { x with segs := [] } else x }) s

/-- A tag that no outstanding request has (R432). -/
def freeTag (s : State) : Nat :=
  (((List.range (s.fab.reqs.length + 1)).map fun i => (s.fab.nextTag + i) % 65536).find? fun t =>
    !s.fab.reqs.any fun r => r.tag == t).getD 0

/-- LINK_STATUS (R476). -/
def linkStatus (k : Nat) (s : State) : W64 :=
  let l := linkOf k s
  pack [(l.state, 60, 4), (l.cause, 56, 4), ((linkCfg k s).mode, 54, 2), (l.lanePair, 51, 2), (b2n (inForce l s), 50, 1),
        (l.peerSeat, 38, 12), (l.peerLink, 32, 6), (l.downCount, 16, 16), (l.attempts, 8, 8)]

/-- FABRIC_STATUS (R477). -/
def fabricStatus (s : State) : W64 :=
  let pending := s.fab.links.any fun l => l.switchAt.isSome
  match topo? s with
  | none => 0
  | some t =>
    pack [(t.seat, 52, 12), (t.podMembers, 45, 7), (b2n s.fab.tableB, 44, 1), (b2n pending, 43, 1),
          (s.fab.links.zipIdx.foldl (fun n p => if p.1.state == 4 then n + 2 ^ p.2 else n) 0, 0, 36)]

end Sys2Proof.Machine
end

