-- ==== Sys2Proof/Machine/Pools.lean ====
section
/-! DEFINITION. Machine/Pools.lean: the Toybox pools (09 R329 to R339). -/
namespace Sys2Proof.Machine

/-- The pool entry of pool number `k` in the locked blueprint (R58). -/
def poolCfg (k : Nat) (s : State) : Option PoolCfg := match s.boot.shadow with
  | some b => b.pools.find? fun p => p.pool == k
  | none => none

/-- Pool `k`. -/
def poolOf (k : Nat) (s : State) : Pool := s.pools.getD k {}

/-- Change pool `k`. -/
def onPool (k : Nat) (f : Pool → Pool) (s : State) : State := { s with pools := upd s.pools k f }

/-- The in-use count U (R330): buffers allocated plus reserved. -/
def Pool.inUse (p : Pool) : Nat := p.buffers.length

/-- Buffers charged to a requester (R333). -/
def Pool.charged (p : Pool) (req : Nat) : Nat := (p.buffers.filter fun b => b.requester == req).length

/-- The lowest-numbered free buffer (R331). -/
def Pool.lowestFree (p : Pool) (c : PoolCfg) : Option Nat :=
  (List.range (min c.bufferCount (p.buffers.length + 1))).find? fun i => p.buffers.all fun b => b.num != i

/-- The quota allows one more buffer (R333). -/
def quotaAllows (c : PoolCfg) (p : Pool) (req : Nat) : Bool :=
  c.quota == 0 || p.charged req < c.bufferCount * c.quota / 256

/-- The pool's state serves this kind of request (R334): RESERVE waits in HOLD and REFUSE, ALLOC in REFUSE. -/
def stateServes (p : Pool) (alloc : Bool) : Bool := if alloc then p.state != 3 else p.state < 2

/-- A request that is not CREDITED is eligible (R333 to R335). -/
def eligible (c : PoolCfg) (p : Pool) (r : PoolReq) : Bool :=
  stateServes p r.alloc && quotaAllows c p r.requester && (p.lowestFree c).isSome

/-- The state after the thresholds are evaluated on U (R334). -/
def nextPoolState (c : PoolCfg) (st u : Nat) : Nat :=
  if poolThreshold c c.refuse ≤ u then 3
  else if poolThreshold c c.hold ≤ u then (if st == 3 then 3 else 2)
  else if poolThreshold c c.watch ≤ u then (if st == 2 then 2 else 1)
  else 0

/-- Evaluate the thresholds at the end of a cycle (R331, R334): PEAK, the state, one event for an entry. -/
def evalPool (k : Nat) (s : State) : State :=
  match poolCfg k s with
  | none => s
  | some c =>
    let p := poolOf k s
    let u := p.inUse
    let st := nextPoolState c p.state u
    let entered := st != p.state && st != 0
    let s := onPool k (fun p => { p with
      state := st, satRaised := p.satRaised && poolThreshold c c.hold ≤ u,
      audit := { p.audit with
        peak := max p.audit.peak u
        holds := if entered && 2 ≤ st then count32 p.audit.holds 1 else p.audit.holds
        refuses := if entered && st == 3 then count32 p.audit.refuses 1 else p.audit.refuses } }) s
    if entered then raiseP c.partition (0x5003 + st) (unitPool k) (BitVec.ofNat 64 u) s else s

/-- AGE_BASE (Table 9.10): the Clockwork count shifted right by 16. -/
def ageBase (s : State) : Nat := (now s).toNat / 65536 % 2 ^ 36

/-- Insert a buffer in number order. -/
def insertBuffer (b : Buffer) : List Buffer → List Buffer
  | [] => [b]
  | x :: r => if b.num < x.num then b :: x :: r else x :: insertBuffer b r

/-! Credits against reservations (R332, R434). -/

/-- The link whose receiver a requester code names (Table 9.8). -/
def receiverLink (req : Nat) : Option Nat := if inRange req 0x410 0x433 then some (req - 0x410) else none

/-- The fabric-receive pool of the partition that holds link `k` (R485): its lowest-numbered one of PURPOSE 0. -/
def receivePool (k : Nat) (s : State) : Option PoolCfg := (partOfLink k s).bind fun n =>
  let ps := (poolsOf n s).filter fun c => c.purpose == 0
  ((ps.map PoolCfg.pool).min?).bind fun i => ps.find? fun c => c.pool == i

/-- Reservations that the receiver of link `k` holds in that pool. -/
def receiverRoom (k : Nat) (s : State) : Nat := match receivePool k s with
  | some c => (poolOf c.pool s).buffers.countP fun b => !b.allocated && b.requester == 0x410 + k
  | none => 0

/-- Slots of a buffer. -/
def bufferSlots (k : Nat) (s : State) : Nat := match receivePool k s with
  | some c => 2 ^ c.bufferLog2 / 16
  | none => 0

/-- Return VL3 credits, oldest packet first, as far as the reservations of the link's receiver reach (R332, R434). -/
def returnVl3 (k : Nat) : Nat → State → State
  | 0, s => s
  | n + 1, s =>
    let l := linkOf k s
    match l.owed with
    | [] => s
    | h :: r =>
      if (receivePool k s).isNone || l.given + h ≤ receiverRoom k s * bufferSlots k s then
        returnVl3 k n (onLink k (fun l => { l with owed := r, given := l.given + h, freed := upd l.freed 3 (· + h) }) s)
      else s

/-- A reservation of requester `req` has come or gone: its link's credits follow. -/
def settleVl3 (req : Nat) (used : Bool) (s : State) : State := match receiverLink req with
  | some k =>
    let s := if used then onLink k (fun l => { l with given := l.given - bufferSlots k s }) s else s
    returnVl3 k (linkOf k s).owed.length s
  | none => s

/-- Serve an eligible request (R330, R331, R336). -/
def serveRequest (k : Nat) (r : PoolReq) (s : State) : State :=
  match poolCfg k s with
  | none => s
  | some c =>
    match (poolOf k s).lowestFree c with
    | none => s
    | some i =>
      let b : Buffer := { num := i, requester := r.requester, owner := if c.multiOwner then r.owner else r.requester,
                          allocated := r.alloc, handedOff := false, age := ageBase s }
      let s := evalPool k (onPool k (fun p => { p with
        buffers := insertBuffer b p.buffers,
        audit := if r.alloc then { p.audit with allocs := count32 p.audit.allocs 1 } else p.audit }) s)
      if r.alloc then s else settleVl3 r.requester false s

/-- A request arrives (R333 to R335): served at once when eligible and no waiting request is, else it waits. -/
def request (k : Nat) (r : PoolReq) (s : State) : State :=
  match poolCfg k s with
  | none => s
  | some c =>
    let p := poolOf k s
    if eligible c p r && p.waiting.all (fun w => !eligible c p w) then serveRequest k r s
    else onPool k (fun p => { p with
      waiting := p.waiting ++ [r],
      audit := if !quotaAllows c p r.requester
        then { p.audit with quotaWaits := satInc 0xFFFF p.audit.quotaWaits } else p.audit }) s

/-- RESERVE (R330). -/
def execReserve (pool requester : Nat) (s : State) : Host.Outcome State Fault Refusal :=
  .next (request pool ⟨false, requester, requester⟩ s)

/-- A CREDITED ALLOC (R330, R332): the requester's lowest-numbered reservation becomes allocated, whatever the state. -/
def creditedAlloc (k req owner : Nat) (s : State) : State :=
  match poolCfg k s with
  | none => s
  | some c =>
    match (poolOf k s).buffers.find? fun b => !b.allocated && b.requester == req with
    | none => s
    | some b =>
      settleVl3 req true <| evalPool k (onPool k (fun p => { p with
        buffers := p.buffers.map fun x =>
          if x.num == b.num then { x with allocated := true, age := ageBase s, owner := (if c.multiOwner then owner else req) } else x,
        audit := { p.audit with allocs := count32 p.audit.allocs 1 } }) s)

/-- ALLOC (R330, R332, R335). -/
def execAlloc (pool requester owner : Nat) (credited : Bool) (s : State) : Host.Outcome State Fault Refusal :=
  .next (if credited then creditedAlloc pool requester owner s else request pool ⟨true, requester, owner⟩ s)

/-- A FREE or HANDOFF is refused (R336): counted, and free-refused names pool, buffer, unit and cause. The cause has no codes:
a free value. -/
def refuseFree (k unit buf : Nat) (c : PoolCfg) (s : State) : State :=
  let (v, s) := freeWord s
  let s := onPool k (fun p => { p with audit := { p.audit with refused := satInc 0xFFFF p.audit.refused } }) s
  raiseP c.partition 0x5007 (unitPool k) (pack [(buf, 32, 32), (unit, 16, 12), (v.toNat, 0, 4)]) s

/-- Take buffers out of a pool (R336, R338). -/
def dropBuffers (k : Nat) (gone : Buffer → Bool) (leak : Bool) (s : State) : State :=
  let n := ((poolOf k s).buffers.filter gone).length
  evalPool k (onPool k (fun p => { p with
    buffers := p.buffers.filter fun b => !gone b,
    audit := { p.audit with frees := count32 p.audit.frees n,
                            leaked := if leak then count32 p.audit.leaked n else p.audit.leaked } }) s)

/-- The owner's buffer, allocated (R336). -/
def ownedBuffer (k unit buf : Nat) (s : State) : Option Buffer :=
  (poolOf k s).buffers.find? fun b => b.num == buf && b.allocated && b.owner == unit

/-- FREE (R336). -/
def freeBuffer (k unit buf : Nat) (s : State) : State :=
  match poolCfg k s with
  | none => s
  | some c =>
    match ownedBuffer k unit buf s with
    | some _ => dropBuffers k (fun b => b.num == buf) false s
    | none => refuseFree k unit buf c s

/-- FREE. -/
def execFree (pool unit buffer : Nat) (s : State) : Host.Outcome State Fault Refusal := .next (freeBuffer pool unit buffer s)

/-- HANDOFF (R336): the named last owner names another. -/
def handOff (k unit buf owner : Nat) (s : State) : State :=
  match poolCfg k s with
  | none => s
  | some c =>
    match c.multiOwner, ownedBuffer k unit buf s with
    | true, some _ => onPool k (fun p => { p with buffers := p.buffers.map fun b =>
        if b.num == buf then { b with owner := owner, handedOff := true } else b }) s
    | _, _ => refuseFree k unit buf c s

/-- HANDOFF. -/
def execHandoff (pool unit buffer owner : Nat) (s : State) : Host.Outcome State Fault Refusal :=
  .next (handOff pool unit buffer owner s)

/-- Remove the first entry that holds. -/
def eraseFirst {α : Type} (f : α → Bool) : List α → List α
  | [] => []
  | a :: r => if f a then r else a :: eraseFirst f r

/-- The oldest eligible waiting request is served (R335). -/
def serveWaiting (k : Nat) (s : State) : State :=
  match poolCfg k s with
  | none => s
  | some c =>
    let p := poolOf k s
    match p.waiting.find? (eligible c p) with
    | none => s
    | some r => serveRequest k r (onPool k (fun p => { p with waiting := eraseFirst (eligible c p) p.waiting }) s)

/-- POOL_WAIT_SERVED. -/
def execPoolWaitServed (pool : Nat) (s : State) : Host.Outcome State Fault Refusal := .next (serveWaiting pool s)

/-- U has stayed at or above HOLD for SATURATION_WINDOW_US (R335): sustained-saturation names the pool, once for an entry. -/
def poolSaturation (k : Nat) (s : State) : State :=
  match poolCfg k s with
  | none => s
  | some c =>
    let p := poolOf k s
    if poolThreshold c c.hold ≤ p.inUse && !p.satRaised then
      raiseP c.partition 0x4003 (unitPool k) 0 (onPool k (fun p => { p with satRaised := true }) s)
    else s

/-- POOL_SATURATION_TIMEOUT. -/
def execPoolSaturationTimeout (pool : Nat) (s : State) : Host.Outcome State Fault Refusal := .next (poolSaturation pool s)

/-- The owners that hold allocated buffers for which `f` holds, each once, ascending. -/
def owners (bs : List Buffer) : List Nat := (List.range 4096).filter fun o => bs.any fun b => b.owner == o

/-- w3 of buffer-leak and buffer-age: owner, count, oldest AGE_BASE. -/
def leakWord (bs : List Buffer) (o : Nat) : W64 :=
  let own := bs.filter fun b => b.owner == o
  let oldest := own.foldl (fun m b => min m b.age) (2 ^ 36 - 1)
  pack [(o, 52, 12), (own.length, 36, 16), (oldest, 0, 36)]

/-- The leak audit's sweep of one pool (R338): owners but job slots with a buffer older than 10 s, that is 10^10 ck. -/
def sweepPool (s : State) (c : PoolCfg) : State :=
  let old := (poolOf c.pool s).buffers.filter fun b => b.age * 65536 + 10000000000 < (now s).toNat
  (owners old).foldl (fun s o =>
    if inRange o 0x480 0x4BF then s
    else raiseP c.partition 0x5009 (unitPool c.pool) (leakWord (poolOf c.pool s).buffers o) s) s

/-- BUFFER_AGE_SWEEP (R338). -/
def execBufferAgeSweep (s : State) : Host.Outcome State Fault Refusal :=
  .next (match s.boot.shadow with
    | some b => b.pools.foldl sweepPool s
    | none => s)

/-- Free the buffers that some tiles of a run own, at the run's end (R338): a buffer-leak event for each pool and owner. -/
def reclaim (part : Nat) (tiles : List Nat) (s : State) : State :=
  (poolsOf part s).foldl (fun s c =>
    let bs := (poolOf c.pool s).buffers
    let lost := bs.filter fun b => tiles.contains b.owner
    let s := (owners lost).foldl (fun s o => raiseP part 0x5008 (unitPool c.pool) (leakWord bs o) s) s
    if lost.isEmpty then s else dropBuffers c.pool (fun b => tiles.contains b.owner) true s) s

/-- Free the buffers of a job slot (R338, at UNLOAD_JOB). -/
def freeSlot (part slot : Nat) (s : State) : State :=
  (poolsOf part s).foldl (fun s c =>
    if (poolOf c.pool s).buffers.any fun b => b.owner == 0x480 + slot then
      dropBuffers c.pool (fun b => b.owner == 0x480 + slot) false s
    else s) s

/-- Empty a partition's pools and their audit (R189, R338); the reservations of its links' receivers go with them. -/
def emptyPools (part : Nat) (s : State) : State :=
  let s := (poolsOf part s).foldl (fun s c => onPool c.pool (fun _ => {}) s) s
  (List.range 36).foldl (fun s k => if partHolds part k s then onLink k (fun l => { l with given := 0 }) s else s) s

/-! Pool metadata in the spill reserve (R319, R331, R337). -/

/-- The metadata of a partition's pools, in ascending pool number, each with its first byte: the free store bitmap, then the audit words. -/
def metaStarts (n : Nat) (s : State) : List (PoolCfg × Nat) :=
  let ps := poolsOf n s
  let order := (List.range 256).filterMap fun i => ps.find? fun c => c.pool == i
  (order.foldl (fun (q : List (PoolCfg × Nat) × Nat) c =>
    (q.1 ++ [(c, q.2)], q.2 + (c.bufferCount + 7) / 8 + 8 * c.bufferCount)) ([], 0)).1

/-- The start of the metadata in the reserve. -/
def metaBase (n : Nat) (s : State) : Nat := reserveBase n s + 16777216 * ((partCfg n s).map fun p => (clustersHeld p).length).getD 0

/-- The pool and the place in its metadata of an address of the reserve. -/
def metaAt (n a : Nat) (s : State) : Option (PoolCfg × Nat) :=
  let o := a - metaBase n s
  if inside a 1 (reserveBase n s, reserveSize n s) then
    ((metaStarts n s).find? fun q => metaBase n s ≤ a && q.2 ≤ o && o < q.2 + (q.1.bufferCount + 7) / 8 + 8 * q.1.bufferCount).map
      fun q => (q.1, o - q.2)
  else none

/-- The audit word of a buffer in use (Table 9.10). -/
def Buffer.auditWord (b : Buffer) : W64 :=
  pack [(b.requester, 52, 12), (b.owner, 40, 12), (b2n b.allocated, 39, 1), (b2n (!b.allocated), 38, 1), (b2n b.handedOff, 37, 1), (b.age, 0, 36)]

/-- A buffer from its audit word. -/
def bufferOfWord (num : Nat) (w : W64) : Buffer :=
  { num, requester := fld w 63 52, owner := fld w 51 40, allocated := fld w 39 39 == 1, handedOff := fld w 37 37 == 1, age := fld w 35 0 }

/-- The audit word of buffer `i` of a pool; zero while it is free (R337). -/
def Pool.auditWord (p : Pool) (i : Nat) : W64 := match p.buffers.find? fun b => b.num == i with
  | some b => b.auditWord
  | none => 0

/-- A byte of a pool's metadata. DESIGN CHOICE (log 213): bit i % 8 of byte i / 8 of the free store is 1 while buffer i is free. -/
def metaByte (c : PoolCfg) (p : Pool) (o : Nat) : Byte :=
  let z := (c.bufferCount + 7) / 8
  if o < z then
    BitVec.ofNat 8 (((List.range 8).filter fun i => 8 * o + i < c.bufferCount && p.buffers.all fun b => b.num != 8 * o + i).foldl
      (fun t i => t + 2 ^ i) 0)
  else (leBytes 8 (p.auditWord ((o - z) / 8)).toNat).getD ((o - z) % 8) 0

/-- A host writes a byte of a pool's metadata (R319): a bit of the free store frees or takes its buffer, a byte of the audit word of a buffer in
use changes the buffer. -/
def writeMetaByte (c : PoolCfg) (o : Nat) (v : Byte) (p : Pool) : Pool :=
  let z := (c.bufferCount + 7) / 8
  if o < z then
    (List.range 8).foldl (fun p i =>
      let k := 8 * o + i
      let used := p.buffers.any fun b => b.num == k
      if c.bufferCount ≤ k then p
      else if v.toNat.testBit i then { p with buffers := p.buffers.filter fun b => b.num != k }
      else if used then p
      else { p with buffers := insertBuffer (bufferOfWord k 0) p.buffers }) p
  else
    let k := (o - z) / 8
    { p with buffers := p.buffers.map fun b =>
        if b.num == k then bufferOfWord k (BitVec.ofNat 64 (leNat ((leBytes 8 b.auditWord.toNat).set ((o - z) % 8) v))) else b }

/-- Bytes of the reserve, or of any other memory, as a host reads them. -/
def hostBytes (n a len : Nat) (s : State) : List Byte := (rdBytes a len s.mem).zipIdx.map fun p => match metaAt n (a + p.2) s with
  | some (c, o) => metaByte c (poolOf c.pool s) o
  | none => p.1

/-- Bytes that a host writes into a pool's metadata. -/
def hostMetaWrite (n a : Nat) (bs : List Byte) (s : State) : State :=
  bs.zipIdx.foldl (fun s p => match metaAt n (a + p.2) s with
    | some (c, o) => evalPool c.pool (onPool c.pool (writeMetaByte c o p.1) s)
    | none => s) s

/-- The pool audit record (Table 9.11). -/
def auditWords (p : Pool) : List W64 :=
  let a := p.audit
  let oldest := p.buffers.foldl (fun m b => min m b.age) (2 ^ 36)
  [pack [(a.allocs, 32, 32), (a.frees, 0, 32)], pack [(a.peak, 32, 32), (a.leaked, 0, 32)],
   pack [(a.refused, 48, 16), (satAdd 0xFFFF a.holds 0, 32, 16), (satAdd 0xFFFF a.refuses 0, 16, 16), (a.quotaWaits, 0, 16)],
   if p.buffers.isEmpty then 0 else BitVec.ofNat 64 (oldest * 65536)]

end Sys2Proof.Machine
end

