-- ==== Sys2Proof/Machine/RouteViews.lean ====
section
/-! DEFINITION. Machine/RouteViews.lean: section 0x08 of a package (R383 to R393, Tables 11.2 to 11.6, 11.14) and the records of
the Jacks engines as words (Tables 11.9, 11.10). -/
namespace Sys2Proof.Machine

/-- The eight words of entry `i` of section 0x08. -/
def Job.jentry (j : Job) (i : Nat) : List W64 := (j.jsection.drop (8 * i)).take 8

/-- MAP_COUNT, QUEUE_COUNT and JDESC_COUNT (R383). -/
def Job.mapCount (j : Job) : Nat := fld (j.jsection.getD 0 0) 63 54
/-- QUEUE_COUNT. -/
def Job.queueCount (j : Job) : Nat := fld (j.jsection.getD 0 0) 53 42
/-- JDESC_COUNT. -/
def Job.jdescCount (j : Job) : Nat := fld (j.jsection.getD 0 0) 41 28

/-- Header words of map `i` (R384). -/
def Job.rmap (j : Job) (i : Nat) : List W64 := j.jentry (1 + 17 * i)
/-- Placement word of expert `e` in map `i` (R384). -/
def Job.placement (j : Job) (i e : Nat) : Nat :=
  fld (j.jsection.getD (8 * (2 + 17 * i) + e / 4) 0) (16 * (e % 4) + 15) (16 * (e % 4))
/-- Words of queue entry `i` (R386). -/
def Job.rqueue (j : Job) (i : Nat) : List W64 := j.jentry (1 + 17 * j.mapCount + i)
/-- The 16 words of Jacks descriptor `i` (R391, R419). -/
def Job.jdesc (j : Job) (i : Nat) : List W64 :=
  (j.jsection.drop (8 * (1 + 17 * j.mapCount + j.queueCount + 2 * i))).take 16

/-- EXPERTS of a map. -/
def mExperts (m : List W64) : Nat := fld (m.getD 0 0) 63 54
/-- LOCAL. -/
def mLocal (m : List W64) : Bool := bit (m.getD 0 0).toNat 53
/-- RECORDED. -/
def mRecorded (m : List W64) : Bool := bit (m.getD 0 0).toNat 52
/-- REPLAY_MEMBER. -/
def mReplay (m : List W64) : Nat := fld (m.getD 0 0) 51 46
/-- LOCAL_QUEUE0. -/
def mQueue0 (m : List W64) : Nat := fld (m.getD 0 0) 45 34
/-- LAYER. -/
def mLayer (m : List W64) : Nat := fld (m.getD 0 0) 33 24
/-- The members of GROUP, ascending. -/
def mGroup (m : List W64) : List Nat := setBits (m.getD 1 0).toNat 64
/-- NOMINAL. -/
def mNominal (m : List W64) : Nat := fld (m.getD 2 0) 63 32
/-- FACTOR. -/
def mFactor (m : List W64) : Nat := fld (m.getD 2 0) 31 16
/-- ADVICE_THRESHOLD. -/
def mThreshold (m : List W64) : Nat := fld (m.getD 2 0) 15 0
/-- ADVICE_STEPS. -/
def mAdviceSteps (m : List W64) : Nat := fld (m.getD 3 0) 63 32

/-- Fields of a queue entry (Table 11.3). -/
def qLayer (q : List W64) : Nat := fld (q.getD 0 0) 63 54
/-- LOCAL_EXPERT. -/
def qLocal (q : List W64) : Nat := fld (q.getD 0 0) 53 45
/-- POOL. -/
def qPool (q : List W64) : Nat := fld (q.getD 0 0) 44 41
/-- FRAMES. -/
def qFrames (q : List W64) : Nat := fld (q.getD 0 0) 40 37
/-- GRAD_SHARED. -/
def qShared (q : List W64) : Bool := bit (q.getD 0 0).toNat 36
/-- FILL_EMPTY. -/
def qFill (q : List W64) : Bool := bit (q.getD 0 0).toNat 35
/-- RELEASERS. -/
def qReleasers (q : List W64) : Nat := fld (q.getD 0 0) 34 24
/-- BUFFER0. -/
def qBuffer0 (q : List W64) : Nat := fld (q.getD 0 0) 23 0
/-- CAP. -/
def qCap (q : List W64) : Nat := fld (q.getD 1 0) 63 48
/-- OUT_BASE. -/
def qOut (q : List W64) : Nat := fld (q.getD 1 0) 47 0
/-- DX_BASE. -/
def qDx (q : List W64) : Nat := fld (q.getD 2 0) 47 0
/-- OCC_BASE. -/
def qOcc (q : List W64) : Nat := fld (q.getD 3 0) 47 0
/-- COUNT_ADDR. -/
def qCount (q : List W64) : Nat := fld (q.getD 4 0) 47 0
/-- RECORD_ADDR. -/
def qRecord (q : List W64) : Nat := fld (q.getD 5 0) 47 0
/-- XSAVE_BASE. -/
def qXsave (q : List W64) : Nat := fld (q.getD 6 0) 47 0

/-- Fields of a Jacks descriptor (Tables 11.5, 11.14). -/
def dKind (d : List W64) : Nat := fld (d.getD 0 0) 63 62
/-- K of KIND 0. -/
def dK (d : List W64) : Nat := fld (d.getD 0 0) 61 58
/-- MODE of KIND 2. -/
def dMode (d : List W64) : Nat := fld (d.getD 0 0) 61 60
/-- FORMAT. -/
def dFormat (d : List W64) : Nat := fld (d.getD 0 0) 57 54
/-- LAYER. -/
def dLayer (d : List W64) : Nat := fld (d.getD 0 0) 53 44
/-- MAP. -/
def dMap (d : List W64) : Nat := fld (d.getD 0 0) 43 34
/-- MICRO_SLOTS. -/
def dSlots (d : List W64) : Nat := fld (d.getD 0 0) 33 30
/-- STREAM. -/
def dStream (d : List W64) : Nat := fld (d.getD 0 0) 29 28
/-- TRAIN. -/
def dTrain (d : List W64) : Bool := bit (d.getD 0 0).toNat 27
/-- KEYS. -/
def dKeys (d : List W64) : Bool := bit (d.getD 0 0).toNat 26
/-- LIMIT of KIND 2. -/
def dLimit (d : List W64) : Nat := fld (d.getD 0 0) 31 0
/-- ROW_BYTES; GROUP_BYTES of KIND 2. -/
def dRowBytes (d : List W64) : Nat := fld (d.getD 1 0) 63 32
/-- TOKENS of KIND 0; LIST_STRIDE of KIND 2. -/
def dTokens (d : List W64) : Nat := fld (d.getD 1 0) 31 0
/-- QUEUE of KIND 1. -/
def dQueue (d : List W64) : Nat := fld (d.getD 1 0) 31 20
/-- The address in word `i`. -/
def dAddr (d : List W64) (i : Nat) : Nat := fld (d.getD i 0) 47 0

/-- The map that serves a layer. -/
def Job.mapOf (j : Job) (layer : Nat) : Option Nat := (List.range j.mapCount).find? fun i => mLayer (j.rmap i) == layer

/-- ROW_BYTES of a layer (R387): that of its Jacks descriptors of KIND 0 or 1. -/
def Job.rowBytes (j : Job) (layer : Nat) : Nat :=
  match (List.range j.jdescCount).find? fun i => dLayer (j.jdesc i) == layer && dKind (j.jdesc i) < 2 with
  | some i => dRowBytes (j.jdesc i)
  | none => 0

/-- The capacity C of a queue (R387). -/
def Job.capacity (j : Job) (q : Nat) : Nat :=
  let e := j.rqueue q
  if qCap e != 0 then qCap e
  else match j.mapOf (qLayer e) with
    | some m => ((mNominal (j.rmap m) * mFactor (j.rmap m) + 255) / 256 + 15) / 16 * 16
    | none => 0

/-- Pool geometry: BASE and log2 of a buffer. -/
def poolBase (k : Nat) (s : State) : Nat × Nat := match s.boot.shadow with
  | some b => match b.pools.find? fun p => p.pool == k with
    | some p => (p.base, p.bufferLog2)
    | none => (0, 0)
  | none => (0, 0)

/-- Buffers of an area (R387). -/
def Job.areaBuffers (j : Job) (q : Nat) (s : State) : Nat :=
  let e := j.rqueue q
  let sz := 2 ^ (poolBase (qPool e) s).2
  (j.capacity q * (j.rowBytes (qLayer e) + 8) + sz - 1) / sz

/-- Address of the area of a use in frame `f` (R387, R389). -/
def Job.areaBase (j : Job) (q f : Nat) (grad : Bool) (s : State) : Nat :=
  let e := j.rqueue q
  let n := j.areaBuffers q s
  let (base, lg) := poolBase (qPool e) s
  base + (qBuffer0 e + f * n * (if qShared e then 1 else 2) + (if grad && !qShared e then n else 0)) * 2 ^ lg

/-- Address of slot `s` of an area, and of its tag (R387). -/
def Job.slotAddr (j : Job) (q base slot : Nat) : Nat := base + slot * j.rowBytes (qLayer (j.rqueue q))
/-- Address of a slot's tag. -/
def Job.tagAddr (j : Job) (q base slot : Nat) : Nat :=
  base + j.capacity q * j.rowBytes (qLayer (j.rqueue q)) + 8 * slot

/-- The eight words of a queue record (Table 11.9). -/
def QueueRec.words (r : QueueRec) : List W64 :=
  [pack [(r.routed, 32, 32), (r.accepted, 0, 32)], pack [(r.dropped, 32, 32), (r.empty, 0, 32)],
   pack [(r.peak, 32, 32), (r.uses, 0, 32)], pack [(r.waitUs, 32, 32), (r.dropUses, 0, 32)], 0, 0, 0, 0]

/-- The eight words of a token-side record (Table 11.10). -/
def TokenRec.words (r : TokenRec) : List W64 :=
  [pack [(r.sent, 32, 32), (r.dropped, 0, 32)], pack [(r.bad, 32, 32), (r.waitUs, 0, 32)],
   pack [(r.zeroed, 32, 32), (r.slotWaits, 0, 32)], 0, 0, 0, 0, 0]

/-- The eight words of the record of an index copy (Table 11.14). -/
def CopyRec.words (r : CopyRec) : List W64 := [pack [(r.used, 32, 32), (r.dropped, 0, 32)], 0, 0, 0, 0, 0, 0, 0]

/-- Entry of key `k`, or the default. -/
def find0 {α : Type} (d : α) (k : Nat) (l : List (Nat × α)) : α := match l.find? fun p => p.1 == k with
  | some p => p.2
  | none => d

/-- Change the entry of key `k`. -/
def on0 {α : Type} (d : α) (k : Nat) (f : α → α) (l : List (Nat × α)) : List (Nat × α) :=
  (k, f (find0 d k l)) :: l.filter fun p => p.1 != k

/-- Write the records of the Jacks engines to memory (R407, R408): every queue and every KIND 0 and KIND 2 descriptor has one. -/
def writeRouteRecords (j : Job) (s : State) : State :=
  let s := (List.range j.queueCount).foldl (fun s q =>
    jobStore j (qRecord (j.rqueue q)) (ofWords (find0 {} q j.route.qrecs).words) s) s
  (List.range j.jdescCount).foldl (fun s i =>
    let d := j.jdesc i
    match dKind d with
    | 0 => jobStore j (dAddr d 8) (ofWords (find0 {} i j.route.trecs).words) s
    | 2 => jobStore j (dAddr d 8) (ofWords (find0 {} i j.route.crecs).words) s
    | _ => s) s

end Sys2Proof.Machine
end

