-- ==== Sys2Proof/Machine/Optimiser.lean ====
section
/-! DEFINITION. Machine/Optimiser.lean: the schedule unit in binary64 and the update equations of the lanes in FP32 (10 R357 to
R368). -/
namespace Sys2Proof.Machine

/-- binary64. -/
def lF64 : Layout := ⟨11, 52, 1023, true, 0x7FEFFFFFFFFFFFFF, 0x7FF8000000000000⟩

/-- One rounding to nearest even into a layout with infinities (R235, R357). -/
def Layout.rne (l : Layout) : Val → Nat
  | .nan => l.nan
  | .inf s => l.infinity s
  | .fin s m e => let c := l.roundCode m e 0 0; if l.maxCode < c then l.infinity s else l.sign s + c

/-- Quotient of magnitudes, with a last bit that tells whether more follows: enough places for any rounding here. -/
def quotient (m : Nat) (e : Int) (n : Nat) (f : Int) : Nat × Int :=
  let k := 80 + n.log2
  let q := m * 2 ^ k / n
  (2 * q + (if m * 2 ^ k % n == 0 then 0 else 1), e - f - k - 1)

/-- IEEE 754 division before rounding (R358, R359): a zero divisor gives the infinity of the sign, 0 / 0 a NaN. -/
def Val.div : Val → Val → Val
  | .nan, _ => .nan
  | _, .nan => .nan
  | .inf _, .inf _ => .nan
  | .inf a, .fin b _ _ => .inf (a != b)
  | .fin a _ e, .inf b => .fin (a != b) 0 e
  | .fin a m e, .fin b n f =>
    if n == 0 then (if m == 0 then .nan else .inf (a != b))
    else let (q, g) := quotient m e n f; .fin (a != b) q g

/-- IEEE 754 square root before rounding: negative numbers give a NaN, a zero itself. -/
def Val.sqrt : Val → Val
  | .nan => .nan
  | .inf s => if s then .nan else .inf false
  | .fin s m e =>
    if m == 0 then .fin s 0 0
    else if s then .nan
    else
      let (m', e') := if e % 2 == 0 then (m, e) else (2 * m, e - 1)
      let n := m' * 2 ^ 160
      let r := isqrt n (n.log2 / 2 + 1) 0
      .fin false (2 * r + (if r * r == n then 0 else 1)) (e' / 2 - 81)

/-- binary64 operations on encodings. -/
def f64Val (w : Nat) : Val := lF64.decode w
/-- Sum. -/
def f64Add (a b : Nat) : Nat := lF64.rne ((f64Val a).add (f64Val b))
/-- Difference. -/
def f64Sub (a b : Nat) : Nat := lF64.rne ((f64Val a).add (f64Val b).neg)
/-- Product. -/
def f64Mul (a b : Nat) : Nat := lF64.rne ((f64Val a).mul (f64Val b))
/-- Quotient. -/
def f64Div (a b : Nat) : Nat := lF64.rne ((f64Val a).div (f64Val b))
/-- Square root. -/
def f64Sqrt (a : Nat) : Nat := lF64.rne (f64Val a).sqrt
/-- A count in binary64. -/
def f64OfNat (n : Nat) : Nat := lF64.rne (Val.ofInt n)
/-- FP32 widened exactly. -/
def f64Of32 (w : Nat) : Nat := lF64.rne (ofF32 w)
/-- Rounded once to FP32. -/
def f32Of64 (w : Nat) : Nat := toF32 (f64Val w)
/-- 1.0 and 0.5. -/
def f64One : Nat := 0x3FF0000000000000
/-- 0.5. -/
def f64Half : Nat := 0x3FE0000000000000

/-- c[k] of R358: (-1)^k / (2k)! rounded. -/
def cosCoeff (k : Nat) : Nat :=
  let fact := (List.range (2 * k)).foldl (fun p i => p * (i + 1)) 1
  lF64.rne ((Val.fin (k % 2 == 1) 1 0).div (.fin false fact 0))

/-- cos_series (R358). -/
def cosSeries (tau : Nat) : Nat :=
  let a := f64Mul 0x400921fb54442d18 tau
  let y := f64Mul a a
  (List.range 11).foldl (fun acc i => f64Add (f64Mul acc y) (cosCoeff (10 - i))) (cosCoeff 11)

/-- pow (R359): `fuel` bits of t at most. -/
def powF64 : Nat → Nat → Nat → Nat → Nat
  | 0, r, _, _ => r
  | fuel + 1, r, x, t =>
    if t == 0 then r
    else powF64 fuel (if t % 2 == 1 then f64Mul r x else r) (f64Mul x x) (t / 2)

/-- A schedule entry and its points: KIND, POINTS, LR_PEAK, LR_MIN, WARMUP, DECAY_STEPS (Tables 10.5 and 10.6). -/
def schedPoint (pts : List W64) (i : Nat) : Nat × Nat := (fld (pts.getD i 0) 31 0, fld (pts.getD i 0) 63 32)

/-- The schedule value L of step n (R357), times LR_MULT. -/
def schedule (s pts : List W64) (lrMult n : Nat) : Nat :=
  let s0 := s.getD 0 0
  let kind := fld s0 63 60
  let count := fld s0 59 53
  let peak := f64Of32 (fld s0 31 0)
  let lo := f64Of32 (fld (s.getD 1 0) 63 32)
  let w := fld (s.getD 1 0) 31 0
  let decay := fld (s.getD 2 0) 63 32
  let ws := f64OfNat (n + 1)
  let l :=
    if kind == 4 then
      let (s0, l0) := schedPoint pts 0
      let (sn, ln) := schedPoint pts (count - 1)
      if n ≤ s0 then f64Of32 l0
      else if sn ≤ n then f64Of32 ln
      else match (List.range (count - 1)).find? fun i => (schedPoint pts i).1 ≤ n && n < (schedPoint pts (i + 1)).1 with
        | some i =>
          let (sa, la) := schedPoint pts i
          let (sb, lb) := schedPoint pts (i + 1)
          f64Add (f64Of32 la) (f64Mul (f64Sub (f64Of32 lb) (f64Of32 la)) (f64Div (f64OfNat (n - sa)) (f64OfNat (sb - sa))))
        | none => f64Of32 ln
    else if kind == 0 || w ≤ n + 1 then
      if kind == 2 then
        let q := f64Div (f64OfNat (n + 1 - w)) (f64OfNat (max decay 1))
        let tau := if (f64Val q).lt (f64Val f64One) then q else f64One
        f64Add lo (f64Mul (f64Mul f64Half (f64Sub peak lo)) (f64Add f64One (cosSeries tau)))
      else if kind == 3 then f64Mul peak (f64Sqrt (f64Div (f64OfNat (max w 1)) ws))
      else peak
    else f64Mul peak (f64Div ws (f64OfNat w))
  f64Mul l (f64Of32 lrMult)

/-- Fields of a segment entry (Table 10.7). -/
structure SegFields where
  opt : Nat
  nesterov : Bool
  avg : Bool
  expert : Bool
  copySr : Bool
  momentSr : Bool
  initSlot : Bool
  sched : Nat
  seedSlot : Nat
  layer : Nat
  site : Nat
  countIndex : Nat
  fieldBase : Nat
  elements : Nat
  wd : Nat
  b1 : Nat
  b2 : Nat
  eps : Nat
  avgDecay : Nat
  avgStart : Nat
  normNum : Nat
  lrMult : Nat
deriving DecidableEq, Repr

/-- Read a segment entry. -/
def segFields (w : List W64) : SegFields :=
  let e := fun i => w.getD i 0
  { opt := fld (e 0) 63 62, nesterov := bit (e 0).toNat 61, avg := bit (e 0).toNat 60, expert := bit (e 0).toNat 59,
    copySr := bit (e 0).toNat 58, momentSr := bit (e 0).toNat 57, initSlot := bit (e 0).toNat 56, sched := fld (e 0) 55 52,
    seedSlot := fld (e 0) 51 49, layer := fld (e 0) 48 39, site := fld (e 0) 38 29, countIndex := fld (e 0) 12 0,
    fieldBase := fld (e 1) 47 0, elements := fld (e 2) 63 32, wd := fld (e 2) 31 0, b1 := fld (e 3) 63 32,
    b2 := fld (e 3) 31 0, eps := fld (e 4) 63 32, avgDecay := fld (e 4) 31 0, avgStart := fld (e 5) 63 32,
    normNum := fld (e 5) 31 0, lrMult := fld (e 6) 63 32 }

/-- The FP32 step scalars (R359). -/
structure Scalars where
  lr : Nat
  keep : Nat
  omb1 : Nat
  omb2 : Nat
  ibc1 : Nat
  ibc2 : Nat
  omad : Nat
  gs : Nat
deriving DecidableEq, Repr

/-- 1 / (1 - pow(b, t)) in FP32 (R359); +infinity when the difference is zero. -/
def biasCorrection (b t : Nat) : Nat :=
  let d := f64Sub f64One (powF64 65 f64One b t)
  if (f64Val d).isZero then lF32.infinity false else f32Of64 (f64Div f64One d)

/-- The step scalars of a segment for step n, clip scale `clip` and token count (R359). -/
def scalars (g : SegFields) (sched pts : List W64) (n clip count : Nat) : Scalars :=
  let l := schedule sched pts g.lrMult n
  let b1 := f64Of32 g.b1
  let b2 := f64Of32 g.b2
  { lr := f32Of64 l, keep := f32Of64 (f64Sub f64One (f64Mul l (f64Of32 g.wd))),
    omb1 := f32Of64 (f64Sub f64One b1), omb2 := f32Of64 (f64Sub f64One b2),
    ibc1 := biasCorrection b1 (n + 1), ibc2 := biasCorrection b2 (n + 1),
    omad := f32Of64 (f64Sub f64One (f64Of32 g.avgDecay)),
    gs := if g.expert && !(ofF32 g.normNum).isZero && count != 0
      then f32Of64 (f64Div (f64Mul (f64Of32 clip) (f64Of32 g.normNum)) (f64OfNat count)) else clip }

/-- The clip scale of a step (R360); a CLIP_MAX that is a NaN gives a free value. -/
def clipScale (clipMax norm : Nat) : Nat :=
  if clipMax == 0 || (ofF32 norm).nonfinite then 0x3F800000
  else if ofF32 clipMax == .nan then (Config.clipOfNan clipMax norm).toNat
  else if !(ofF32 clipMax).lt (ofF32 norm) then 0x3F800000
  else toF32 ((ofF32 clipMax).div (ofF32 norm))

/-- The fields of one element, FP32 encodings. -/
structure Element where
  w : Nat
  m : Nat
  v : Nat
  a : Nat
deriving DecidableEq, Repr

/-- sign of R364. -/
def f32Sign (c : Nat) : Nat := match ofF32 c with
  | .nan => lF32.nan
  | x => if x.isZero then 0 else if x.isNeg then 0xBF800000 else 0x3F800000

/-- The moments and master of one element after an update (R361 to R364). -/
def updateElement (g : SegFields) (k : Scalars) (acc : Nat) (x : Element) : Element :=
  let gr := f32Mul acc k.gs
  match g.opt with
  | 0 =>
    let m := f32Add (f32Mul g.b1 x.m) (f32Mul k.omb1 gr)
    let v := f32Add (f32Mul g.b2 x.v) (f32Mul k.omb2 (f32Mul gr gr))
    let u := toF32 ((ofF32 (f32Mul m k.ibc1)).div
      (ofF32 (f32Add (toF32 (ofF32 (f32Mul v k.ibc2)).sqrt) g.eps)))
    { x with m, v, w := f32Sub (f32Mul x.w k.keep) (f32Mul k.lr u) }
  | 1 =>
    let m := f32Add (f32Mul g.b1 x.m) (f32Mul k.omb2 gr)
    let d := if g.nesterov then f32Add gr (f32Mul g.b1 m) else m
    { x with m, w := f32Sub (f32Mul x.w k.keep) (f32Mul k.lr d) }
  | _ =>
    let c := f32Add (f32Mul g.b1 x.m) (f32Mul k.omb1 gr)
    let m := f32Add (f32Mul g.b2 x.m) (f32Mul k.omb2 gr)
    { x with m, w := f32Sub (f32Mul x.w k.keep) (f32Mul k.lr (f32Sign c)) }

/-- The weight average after an update of the master (R365). -/
def averageElement (g : SegFields) (k : Scalars) (n : Nat) (x : Element) : Element :=
  if !g.avg then x
  else if n < g.avgStart then { x with a := x.w }
  else { x with a := f32Add (f32Mul g.avgDecay x.a) (f32Mul k.omad (f32Sub x.w x.a)) }

/-- Decay only (R366). -/
def decayElement (k : Scalars) (x : Element) : Element := { x with w := f32Mul x.w k.keep }

end Sys2Proof.Machine
end

