-- ==== Sys2Proof/Machine/Segments.lean ====
section
/-! DEFINITION. Machine/Segments.lean: the placement of parameter segments (10 R348, R349), their elements, copies and digests, the step's
scalars, and what an update that was stopped part-way leaves (R375). -/
namespace Sys2Proof.Machine

/-- The bundle stride of a partition (R315): c * 64 KiB for its c = 16 h channels. -/
def bundleStride (n : Nat) (s : State) : Nat := popcount (((partCfg n s).map PartCfg.halves).getD 0) 16 * 16 * 65536

/-- Round up to a multiple. -/
def roundUp (n b : Nat) : Nat := if b == 0 then n else (n + b - 1) / b * b

/-- The arrays of a field area (Table 10.2): whether each is BF16. -/
def segArrays (early mom16 : Bool) : List Bool :=
  let slot := [false, mom16, mom16, false]
  [false, true] ++ slot ++ (if early then slot else [])

/-- Starts of the arrays from FIELD_BASE on (R348), and the end of the field area. -/
def arrayStarts (n b : Nat) : Nat → List Bool → List Nat
  | a, [] => [a]
  | a, h :: r => a :: arrayStarts n b (a + roundUp ((if h then 2 else 4) * n) b) r

/-- Early mode and BF16 moments of a partition's training policy (R61). -/
def earlyMode (n : Nat) (s : State) : Bool := (trainCfg n s).earlyMode
/-- MOMENT_FORMAT 1. -/
def momentBf16 (n : Nat) (s : State) : Bool := (trainCfg n s).momentBf16

/-- The starts of a segment's arrays. -/
def segStarts (part : Nat) (g : SegFields) (s : State) : List Nat :=
  arrayStarts g.elements (bundleStride part s) g.fieldBase (segArrays (earlyMode part s) (momentBf16 part s))

/-- Bytes of a segment's field area (R348). -/
def segArea (part : Nat) (g : SegFields) (s : State) : Nat × Nat :=
  (g.fieldBase, (segStarts part g s).getLastD g.fieldBase - g.fieldBase)

/-- Address of element e of an array (R349). -/
def elemAddr (half : Bool) (arr b e : Nat) : Nat :=
  let q := b / 4096
  let j := e / 1024
  if half then arr + 4096 * (j % q + q * (j / (2 * q))) + 2048 * (j / q % 2) + 2 * (e % 1024) else arr + 4 * e

/-- Array `i` of Table 10.2 of a segment, at element e: address and bytes. -/
def fieldAt (part : Nat) (g : SegFields) (i e : Nat) (s : State) : Nat × Nat :=
  let half := (segArrays (earlyMode part s) (momentBf16 part s)).getD i false
  (elemAddr half ((segStarts part g s).getD i 0) (bundleStride part s) e, if half then 2 else 4)

/-- The first array of a slot: master, first, second, average follow one another. -/
def slotArray (slot : Bool) : Nat := if slot then 6 else 2

/-- Read a field as FP32: BF16 moments widen exactly. -/
def readField (part : Nat) (g : SegFields) (i e : Nat) (s : State) : Nat :=
  let (a, n) := fieldAt part g i e s
  let v := rdNat a n s.mem
  if n == 2 then v <<< 16 else v

/-- The four fields of an element in a slot. -/
def readElement (part : Nat) (g : SegFields) (slot : Bool) (e : Nat) (s : State) : Element :=
  let i := slotArray slot
  ⟨readField part g i e s, readField part g (i + 1) e s, readField part g (i + 2) e s, readField part g (i + 3) e s⟩

/-- The draw of a lane's stochastic rounding (R365): `which` 0 copy, 1 first moment, 2 second moment. -/
def laneDraw (j : Job) (g : SegFields) (n : W64) (which e : Nat) : Nat :=
  draw { seed := j.seeds.getD g.seedSlot 0, step := n, purpose := 3, site := g.site, layer := g.layer, tile := which } e

/-- FP32 to BF16 by RNE or stochastically (R365). -/
def toBf16 (sr : Bool) (u v : Nat) : Nat := (convert 0x1 (if sr then 2 else 0) u false (ofF32 v)).code

/-- The code a moment is stored as (R365): in BF16 a value that is already one, such as a moment copied unchanged (R366), keeps its bits. -/
def momentCode (half : Bool) (g : SegFields) (u v : Nat) : Nat :=
  if half then (if v % 65536 == 0 then v >>> 16 else toBf16 g.momentSr u v) else v

/-- Write a field; a BF16 moment is rounded. -/
def writeField (part : Nat) (g : SegFields) (i e v u : Nat) (s : State) : State :=
  let (a, n) := fieldAt part g i e s
  { s with mem := wrNat a n (momentCode (n == 2) g u v) s.mem }

/-- Write those of the four fields of an element to a slot, and of the copy, whose bit of `mask` is set: bits 0 to 3 the fields in the order
of Table 10.2, bit 4 the copy (R365). -/
def writeParts (j : Job) (g : SegFields) (slot : Bool) (n : W64) (mask e : Nat) (x : Element) (s : State) : State :=
  let i := slotArray slot
  let s := if mask.testBit 0 then writeField j.part g i e x.w 0 s else s
  let s := if mask.testBit 1 then writeField j.part g (i + 1) e x.m (laneDraw j g n 1 e) s else s
  let s := if mask.testBit 2 then writeField j.part g (i + 2) e x.v (laneDraw j g n 2 e) s else s
  let s := if mask.testBit 3 then writeField j.part g (i + 3) e x.a 0 s else s
  if mask.testBit 4 then
    let (a, _) := fieldAt j.part g 1 e s
    { s with mem := wrNat a 2 (toBf16 g.copySr (laneDraw j g n 0 e) x.w) s.mem }
  else s

/-- The bytes of an array that hold elements, block by block (R349). -/
def arrayRanges (part : Nat) (g : SegFields) (i : Nat) (s : State) : List (Nat × Nat) :=
  (List.range ((g.elements + 1023) / 1024)).map fun b =>
    let (a, n) := fieldAt part g i (1024 * b) s
    (a, n * min 1024 (g.elements - 1024 * b))

/-- Emit the compute copy again from the master of a slot (R373, R376): lines written whole lose their poison (R326). -/
def emitCopy (j : Job) (g : SegFields) (slot : Bool) (n : W64) (s : State) : State :=
  liftPoison (arrayRanges j.part g 1 s) ((List.range g.elements).foldl (fun s e =>
    let (a, _) := fieldAt j.part g 1 e s
    { s with mem := wrNat a 2 (toBf16 g.copySr (laneDraw j g n 0 e) (readField j.part g (slotArray slot) e s)) s.mem }) s)

/-- Write +0 to every accumulator word (R371 to R373); lines written whole lose their poison (R326). -/
def clearAcc (g : SegFields) (s : State) : State :=
  liftPoison [(g.fieldBase, 4 * g.elements)] { s with mem := zeroRange g.fieldBase (4 * g.elements) s.mem }

/-- Block j of the state digest (R378). -/
def digestBlock (part : Nat) (g : SegFields) (slot : Bool) (b : Nat) (s : State) : Nat :=
  let es := (List.range 1024).filterMap fun i => if 1024 * b + i < g.elements then some (1024 * b + i) else none
  (List.range 4).foldl (fun h f => es.foldl (fun h e =>
    let (a, n) := fieldAt part g (slotArray slot + f) e s
    mix (h + rdNat a n s.mem)) h) (mix (b ^^^ 0x5744494700000000))

/-- The state digest of a slot (R378). -/
def stateDigest (part : Nat) (g : SegFields) (slot : Bool) (s : State) : W64 :=
  let blocks := (List.range ((g.elements + 1023) / 1024)).map fun b => digestBlock part g slot b s
  BitVec.ofNat 64 (mix ((blocks.sum % 2 ^ 64) ^^^ g.elements))

/-- Segment `i` of a job. -/
def Job.seg (j : Job) (i : Nat) : Option Segment := j.segs.find? fun g => g.index == i

/-- Change a segment. -/
def onSeg (j : Job) (i : Nat) (f : Segment → Segment) (s : State) : State :=
  onJob j.part j.num (fun j => { j with segs := j.segs.map fun g => if g.index == i then f g else g }) s

/-- The optimiser table's header word `i` as the engines hold it for the run (R350). -/
def heldWord (j : Job) (i : Nat) : W64 := match j.table with
  | some t => t.header.getD i 0
  | none => 0

/-- The optimiser table's header word `i`, read afresh (R350): NORM, NORM_STEP and COUNT_STEP lie in words 2 and 3. -/
def tableWord (j : Job) (i : Nat) (s : State) : W64 := match j.table with
  | some t => BitVec.ofNat 64 (rdNat (t.base + 8 * i) 8 s.mem)
  | none => 0

/-- NORM is valid for step n (R352). -/
def normValid (j : Job) (s : State) : Bool := fld (tableWord j 2 s) 31 0 == fld j.step 31 0

/-- The counts are valid for step n (R352). -/
def countsValid (j : Job) (s : State) : Bool := fld (tableWord j 2 s) 63 32 == fld j.step 31 0

/-- The token count of an EXPERT segment. -/
def segCount (j : Job) (g : SegFields) (s : State) : Nat := rdNat (fld (heldWord j 1) 47 0 + 4 * g.countIndex) 4 s.mem

/-- CLIP_MAX as the engines hold it. -/
def clipMax (j : Job) : Nat := fld (heldWord j 3) 31 0

/-- The clip scale in force (R360, R370): that of NORM when valid, else the provisional 1.0; and whether it is provisional. -/
def clipOf (j : Job) (s : State) : Nat × Bool :=
  if normValid j s then (clipScale (clipMax j) (fld (tableWord j 3 s) 63 32), false) else (0x3F800000, true)

/-- One element's update (R361 to R367): its new fields; with `kind` 0 the optimiser, 1 decay only. -/
def newElement (g : SegFields) (k : Scalars) (n kind acc : Nat) (x : Element) : Element :=
  averageElement g k n (if kind == 1 then decayElement k x else updateElement g k acc x)

/-- An update reads and writes a segment's second moment (R363, R364, R366, R367): the optimiser AdamW, or early mode. -/
def usesSecond (early : Bool) (g : SegFields) (kind : Nat) : Bool := early || (kind == 0 && g.opt == 0)

/-- The arrays that an update reads (R361 to R367): `kind` 0 the optimiser, 1 decay only, 2 skipped. -/
def updateReads (early : Bool) (g : SegFields) (slot : Bool) (kind : Nat) : List Nat :=
  let i := slotArray slot
  if kind == 2 then []
  else (if kind == 0 then [0] else []) ++ [i, i + 3] ++ (if kind == 0 || early then [i + 1] else []) ++
    if usesSecond early g kind then [i + 2] else []

/-- The fields that an update writes for an element, as FP32 encodings (R365 to R368). -/
def fieldsWritten (j : Job) (g : SegFields) (early half : Bool) (kind e : Nat) (y : Element) : List Nat :=
  let m := fun (which v : Nat) => if half then momentCode true g (laneDraw j g j.step which e) v <<< 16 else v
  [y.w, y.a, toBf16 g.copySr (laneDraw j g j.step 0 e) y.w <<< 16] ++ (if kind == 0 || early then [m 1 y.m] else []) ++
    if usesSecond early g kind then [m 2 y.v] else []

/-- Count elements whose g, or a field written, is infinite or a NaN (R368). -/
def nonfinite32 (ws : List Nat) : Bool := ws.any fun w => (ofF32 w).nonfinite

/-- A segment is untouched for the step (R366). -/
def untouched (j : Job) (g : SegFields) (s : State) : Bool := g.expert && segCount j g s == 0

/-- What an update of a segment does in its job's step: 0 the optimiser, 1 decay only, 2 nothing (R366). -/
def updateKind (j : Job) (g : SegFields) (s : State) : Nat :=
  if !untouched j g s then 0 else if (trainCfg j.part s).untouchedDecay then 1 else 2

/-- The job as of the step of a segment's update: in deferred mode, and after a COMMIT with FLIP_PENDING, the job has gone on (R506). -/
def Job.during (j : Job) (g : Segment) : Job := { j with step := g.step }

/-- The arrays of a slot that an update writes (R361 to R367), as the mask of writeParts; bit 5 is the accumulator, which deferred mode clears in
the same pass (R372). -/
def updateMask (early : Bool) (g : SegFields) (kind : Nat) : Nat :=
  if kind == 2 then (if early then 0 else 32)
  else 1 + 8 + 16 + (if kind == 0 || early then 2 else 0) + (if usesSecond early g kind then 4 else 0) + if early then 0 else 32

/-- The scalars of a segment's update in its job's step (R359). -/
def updateScalars (j : Job) (g : SegFields) (s : State) : Scalars :=
  let t := j.table.getD { base := 0, header := [], scheds := [], points := [] }
  scalars g (t.scheds.getD g.sched []) (t.points.getD g.sched []) j.step.toNat (clipOf j s).1 (segCount j g s)

/-- The scalars of a segment's update are there (R366, R370): the counts of an EXPERT segment, and in deferred mode the clip scale. -/
def scalarsReady (j : Job) (sg : Segment) (s : State) : Bool :=
  let k := j.during sg
  (!(segFields sg.words).expert || countsValid k s) && (earlyMode j.part s || clipMax k == 0 || normValid k s)

/-- What an update leaves that stops part-way, at line boundaries (R373, R375): a mixture of old and new lines. DESIGN CHOICE (log 215): which
lines are new is a free value for each 16 elements and array; the poison of lines stays. -/
def mixUpdate (j : Job) (sg : Segment) (s : State) : State :=
  let g := segFields sg.words
  let early := earlyMode j.part s
  let j := j.during sg
  let kind := updateKind j g s
  let k := updateScalars j g s
  let (v, s) := freeWord s
  let mask := fun e => (Config.freeByte v.toNat (e / 16)).toNat &&& updateMask early g kind
  (List.range g.elements).foldl (fun s e =>
    let y := newElement g k j.step.toNat kind (readField j.part g 0 e s) (readElement j.part g sg.slot e s)
    let s := writeParts j g (if early then !sg.slot else sg.slot) j.step (mask e) e y s
    if (mask e).testBit 5 then { s with mem := wrNat (fieldAt j.part g 0 e s).1 4 0 s.mem } else s) s

/-- Every lane of a run stops at a line boundary (R375): segments that are RUNNING become FAILED, with a mixture in their arrays. -/
def stopLanes (j : Job) (s : State) : State :=
  (j.segs.filter fun g => g.upd == 2).foldl (fun s g => onSeg j g.index (fun g => { g with upd := 4 }) (mixUpdate j g s)) s

end Sys2Proof.Machine
end

