-- ==== Sys2Proof/Machine/RunControl.lean ====
section
/-! DEFINITION. Machine/RunControl.lean: what ends a run: statistics, layer digests, stopping and unloading (R299 to R301,
R307, R309, R324, R338, R525, R526), and what a partition reset does to jobs and stores (R189). -/
namespace Sys2Proof.Machine

/-- Statistics block of a tile (R299): sequencer record, array activity record, numeric record, extra record. -/
def tileBlock (x : JobTile) (state : Nat) : List W64 :=
  (x.seq.map fun n => BitVec.ofNat 64 n) ++ [0, 0] ++ x.act.words ++ x.num.words ++ x.extra.wordsAt state

/-- The job record (Table 8.20); `left` is LEFTOVER. -/
def jobRecord (j : Job) (left : Nat) : List W64 :=
  match j.run with
  | none => []
  | some r =>
    [j.step, r.start, BitVec.ofNat 64 r.ended,
     pack [((j.tiles.filter JobTile.variedRun).length, 32, 32), (r.saturations, 0, 32)], pack [(left, 32, 32), (r.stuck, 0, 32)],
     0, 0, 0]

/-- The job spill summary (Table 9.5). -/
def spillSummary (j : Job) (s : State) : List W64 :=
  let core := j.ext.filter fun e => inCoreWindow e.addr
  let near := fun d => (core.filter fun e => match e.near with
    | some p => p.1 == d
    | none => false).length
  let (hr, hw) := match j.run with
    | some r => (r.hostRead, r.hostWrite)
    | none => (0, 0)
  [pack [(near 0, 32, 32), (near 1, 0, 32)], BitVec.ofNat 64 (core.filter fun e => e.near == none).length,
   BitVec.ofNat 64 hr, BitVec.ofNat 64 hw, BitVec.ofNat 64 (reserveSize j.part s), 0, 0, 0]

/-- Write words to device memory. -/
def storeWords (a : Nat) (ws : List W64) (s : State) : State := store a (ofWords ws) s

/-- Entries of a channel that no RECV took (R307). -/
def Channel.leftover (h : Channel) : Nat := h.arrived - h.taken

/-- LEFTOVER of a run (Table 8.20). -/
def Job.leftover (j : Job) : Nat := (j.channels.map Channel.leftover).sum

/-- LAST_INDEX of a job's tiles outlives the job (R299). -/
def keepLastIndex (j : Job) (s : State) : State :=
  { s with dp := { s.dp with lastIndex := j.tiles.foldl (fun l x => assign0 x.tile x.extra.last l) s.dp.lastIndex } }

/-- Write the statistics of a run (R299, R301, R324). -/
def writeStats (j : Job) (left : Nat) (s : State) : State :=
  let s := j.tiles.foldl (fun s x => storeWords (j.stats + 0x41000 + 32 * x.tile) x.spill.words
    (storeWords (j.stats + 256 * x.tile) (tileBlock x (seqState j x s)) s)) s
  let s := storeWords (j.stats + 0x40000) (jobRecord j left) s
  let s := storeWords (j.stats + 0x40040) (spillSummary j s) s
  let s := writeRouteRecords j s
  (List.range 16).foldl (fun s k =>
    let own := (poolsOf j.part s).any fun c => c.pool == k
    storeWords (j.stats + 0x40400 + 32 * k) (if own then auditWords (poolOf k s) else [0, 0, 0, 0]) s) s

/-- dig[d] of a run (R525): chained over the tiles that folded into the slot, ascending. -/
def layerDigest (j : Job) (d : Nat) : W64 :=
  BitVec.ofNat 64 (j.tiles.foldl (fun h x => match x.folded.find? fun p => p.1 == d with
    | some p => mix (h + p.2.toNat)
    | none => h) (mix d))

/-- The slots folded into, ascending. -/
def foldedSlots (j : Job) : List Nat := (List.range 256).filter fun d => j.tiles.any fun x => x.folded.any fun p => p.1 == d

/-- Place the layer digests of a run in the partition's telemetry (R526). -/
def publishDigests (j : Job) (s : State) : State :=
  onPart j.part (fun p => { p with digests := { job := j.num, step := j.step,
                                                digests := (foldedSlots j).map fun d => (d, layerDigest j d) } }) s

/-- A partition fails (R93): it takes no submissions until the next module reset; partition-start-failed names the unit. -/
def failPartition (n unit : Nat) (s : State) : State :=
  let s := onPart n (fun p => { p with state := 4 }) { s with boot := { s.boot with
    failed := s.boot.failed ||| 2 ^ n, ready := (s.boot.ready ||| 2 ^ n) - 2 ^ n } }
  raiseM (some n) 0x1002 unit (BitVec.ofNat 64 n) s

/-- The partition that holds a core position (R38). -/
def partOfCore (c : Nat) (s : State) : Option Nat :=
  if c % 528 < 512 then partOfCluster (32 * (c / 528) + c % 528 / 16) s else none

/-- Once no run of a partition is left, a position without a core fails it (R539). -/
def failLost (n : Nat) (s : State) : State :=
  if (s.jobs.any fun j => j.part == n && j.running) || (partOf n s).state == 4 then s
  else match s.faults.lost.find? fun c => partOfCore c s == some n with
    | some c => failPartition n (unitCore c) s
    | none => s

/-- The START_JOB of a run completes (R172): RESULT is the Clockwork count, SPILLED and VARIED of the run. -/
def completeRun (j : Job) (status : Nat) (s : State) : State :=
  match j.run with
  | none => s
  | some r =>
    let s := endCommand r.port r.qp r.seq status (now s) (j.tiles.any fun x => x.spill.host != 0) (j.tiles.any JobTile.variedRun) s
    failLost j.part (onFab (fun f => { f with resolves := f.resolves.filter fun q => !(q.part == j.part && q.job == j.num) })
      (onJob j.part j.num (fun j => { j with run := none, decls := if r.started then j.decls else [], coll := { j.coll with startWait := false } }) s))

/-- A tile stops (R309): issue stops, queued instructions are discarded, strings are not posted. -/
def JobTile.stopped (x : JobTile) : JobTile :=
  { x with state := 6, fetcher := [], arrays := [], vector := [], jacks := [], domino := [], refill := false }

/-- The arrays that an operation uses: A0 alone in emulation (R210). -/
def usedArrays (f : MacFields) (e : Entry) (pos : Nat) : Nat := if f.shared && emulatesOn pos e.core then 1 else 4

/-- The position whose work a core does now. -/
def positionServed (core : Nat) (s : State) : Nat := (servedBy core s).getD core

/-- A tile's array operation ends without a next one: its arrays spin or, in a gap of R217, stop. -/
def endArrays (e : Entry) (gap : Bool) (s : State) : State :=
  idleArrays e.core (usedArrays (macFields e.word) e (positionServed e.core s)) gap s

/-- The array operation that a tile executes is finished, its epilogue with it, before the tile stops (R309); what its epilogue may not
reach is left out. DESIGN CHOICE (log 208): its add-writes enter their queues whatever their credits. -/
def finishMac (part num t : Nat) (gap : Bool) (s : State) : State :=
  match jobOf part num s with
  | none => s
  | some j => match j.tile t with
    | none => s
    | some x => match x.arrays with
      | [] => s
      | e :: r =>
        let s := match e.acc, x.epi (macFields e.word).epi with
          | some a, some ep =>
            if e.ended || x.state == 7 || (macFields e.word).epi == 0xFF then s
            else match epilogueOf j { x with arrays := { e with ended := true } :: r } e.word e.x a ep s with
              | .ok s => s
              | .error _ => s
          | _, _ => s
        let s := if e.acc.isSome && !e.ended then endArrays e gap s else s
        match (jobOf part num s).bind fun j => (j.tile t).bind fun x => x.arrays.head? with
        | some e => { s with addq := s.addq ++ e.held }
        | none => s

/-- The stall that is open when a run stops is counted (R300): its cause is known, its length is not given to the model, a free value. -/
def chargeOpenStall (j : Job) (s : State) (x : JobTile) : State :=
  let k := stallCause j x j.ctx s
  if inRange x.state 2 4 && !x.ending && k != 0 then
    let (v, s) := freeWord s
    onTile j x.tile (fun y => { y with seq := chargeStall y.seq k v.toNat }) s
  else s

/-- A stopped run's engine state (R410): open uses are discarded, their areas and maps are free; the records stay until the run's
completion writes them. -/
def RouteRun.stopped (r : RouteRun) : RouteRun :=
  { r with reqs := [], quses := [], tuses := [], counts := [], gradReqs := [] }

/-- A stopped run's collectives: the requests and the messages that waited for them are gone; a decision stands (R506). -/
def CollRun.stopped (c : CollRun) : CollRun := { c with runs := [], early := [], queries := [], asks := [] }

/-- Steps 1 and 2 of R309 on a run that has begun: open stalls are counted and the operations in execution finish. A partition reset and
the clock-loss wait leave no spinner operations (R217). -/
def finishUnits (j : Job) (status : Nat) (s : State) : State :=
  let s := j.tiles.foldl (chargeOpenStall j) s
  j.tiles.foldl (fun s x => finishMac j.part j.num x.tile (status == 0x0008 || status == 0x0009) s) s

/-- A run stops under R309 with a completion status; one whose set-up is over but that has not begun writes its statistics too. Statistics
are written and the leak audit runs except under a partition reset (R309, R338), whose own event completes the command. -/
def stopRun (j : Job) (status : Nat) (s : State) : State :=
  match j.run with
  | none => s
  | some r =>
    if !r.setup then
      if status == 0x0009 then s else completeRun j status s
    else
      let s := if r.started then finishUnits j status s else s
      let s := onJob j.part j.num (fun j =>
        { j with tiles := j.tiles.map JobTile.stopped, route := j.route.stopped, coll := j.coll.stopped, run := j.run.map fun r => { r with ended := (now s).toNat } })
          (dropChunks j.part j.num (stopLanes j s))
      if status == 0x0009 then s
      else match jobOf j.part j.num s with
        | none => s
        | some j =>
          let s := reclaim j.part (j.tiles.map JobTile.tile) s
          let s := if r.started then publishDigests j s else s
          completeRun j status (writeStats j j.leftover s)

/-- A stop of an instruction: BOUNDS raises partition-bound naming the tile and the address (R141); a poisoned line raises
device-memory-error (R326, PRESUMED from Table 14.15). -/
def stopAt (j : Job) (t : Nat) (st : Stop) (s : State) : State :=
  let s := if st.status == 0x000B then raiseJ j 0x3001 (unitTile t) (BitVec.ofNat 64 st.addr) s
           else if st.status == 0x000D then memoryError st.addr s else s
  stopRun j st.status s

/-- Unload a job (R170, R321, R338, R369): extension contents, its slot's buffers, its slot-pointer entries and near lines go. -/
def unloadJob (j : Job) (s : State) : State :=
  let s := keepLastIndex j (freeSlot j.part j.slot s)
  { s with jobs := s.jobs.filter fun k => !(k.part == j.part && k.num == j.num),
           mem := j.ext.foldl (fun m e => zeroRange e.addr 4096 m) s.mem }

/-- START_JOBs of a job that wait in their slots, as (port, queue pair, place). -/
def waitingStarts (n num : Nat) (s : State) : List (Nat × Nat × Nat) :=
  (portsOf n s).flatMap fun p => (List.range 16).flatMap fun q => match qpOf p q s with
    | some qp => (qp.slots.filter fun c => c.opcode == 2 && c.state == .started && c.job == num).map fun c => (p, q, c.seq)
    | none => []

/-- A job's run stops, and every START_JOB of it that has started completes ABORTED (R170, R166). -/
def abortStarts (j : Job) (s : State) : State :=
  let s := stopRun j 0x0007 s
  (waitingStarts j.part j.num s).foldl (fun s w => endCommand w.1 w.2.1 w.2.2 0x0007 0 false false s) s

/-- Abort and unload jobs that `f` picks (R150, R166). -/
def dropJobs (f : Job → Bool) (s : State) : State :=
  (s.jobs.filter f).foldl (fun s j =>
    let s := abortStarts j s
    match jobOf j.part j.num s with
    | some j => unloadJob j s
    | none => s) s

/-- The commands of a queue pair that name one of some jobs leave it without a completion entry (R166): LOAD_JOB, START_JOB, ABORT_JOB and
UNLOAD_JOB. -/
def QueuePair.without (js : List Nat) (p : QueuePair) : QueuePair :=
  let gone := fun (c : Command) => inRange c.opcode 1 4 && js.contains c.job
  let seqs := (p.slots.filter gone).map Command.seq
  { p with slots := p.slots.filter fun c => !gone c, endOrder := p.endOrder.filter fun q => !seqs.contains q }

/-- Every job in flight completes CLOCK_LOST (R121). -/
def endJobsClockLost (s : State) : State := s.jobs.foldl (fun s j => stopRun j 0x0008 s) s

/-- A divider change's pause, at most 64 core cycles, charged to a tile that has an instruction to issue, a HELD one included (R112,
R300). -/
def JobTile.paused (cycles : Nat) (x : JobTile) : JobTile :=
  if (inRange x.state 2 4 || x.state == 7) && !x.ending then { x with seq := chargeStall x.seq 12 (min 64 cycles) } else x

/-- Charge a divider change's pause to every tile's stall counter as CLOCK_CHANGE (R112, R300). -/
def chargeClockChange (cycles : Nat) (s : State) : State :=
  { s with jobs := s.jobs.map fun j => if j.running then { j with tiles := j.tiles.map (JobTile.paused cycles) } else j }

/-- Jobs loaded through a queue pair are stopped and unloaded; none of their commands fetched from it completes, and their START_JOBs
fetched from another complete there ABORTED (R166). -/
def dropJobsOfQp (port q : Nat) (s : State) : State :=
  let mine := fun (j : Job) => j.port == port && j.qp == q
  let nums := (s.jobs.filter mine).map Job.num
  onQp port q (QueuePair.without nums) (dropJobs mine s)

/-- The spill area of a port that enters reset is released (R322). -/
def SpillArea.release (port : Nat) (w : SpillArea) : SpillArea := if w.port == port then { w with released := true } else w

/-- Jobs loaded through a port's queue pairs are aborted and unloaded without completions; its spill area is released (R150,
R322). -/
def dropJobsOfPort (port : Nat) (s : State) : State :=
  let s := dropJobs (fun j => j.port == port) s
  { s with parts := s.parts.map fun p => { p with spill := p.spill.map (SpillArea.release port) } }

/-- The work of a partition stops at the start of its reset (R189): tiles, copies, engines and lanes. -/
def stopPartition (n : Nat) (s : State) : State :=
  (s.jobs.filter fun j => j.part == n).foldl (fun s j => stopRun j 0x0009 s) s

/-- Zero the core and cluster stores of a partition (R189). -/
def zeroStores (n : Nat) (s : State) : State := match partCfg n s with
  | none => s
  | some p => { s with mem := (clustersHeld p).foldl (fun m g =>
      zeroRange (coreWindow (16 * g)) (2 ^ 24) (zeroRange (clusterWindow g) (2 ^ 24) m)) s.mem }

/-- What the rows of 1 ms and later do to a partition's stores, pools, jobs and memory (R189). -/
def clearPartition (n : Nat) (scrub : Bool) (s : State) : State :=
  let s := emptyPools n (zeroStores n s)
  let s := (s.jobs.filter fun j => j.part == n).foldl (fun s j => keepLastIndex j s) s
  let s := stopArrays (fun c => partOfCore (positionServed c s) s == some n) s
  let s := { s with jobs := s.jobs.filter (fun j => j.part != n), addq := s.addq.filter (fun w => w.part != n) }
  if scrub then
    let (b, z) := stackRange n s
    { s with mem := zeroRange b z s.mem, poison := s.poison.filter fun l => !(inside (64 * l) 64 (b, z)) }
  else s

end Sys2Proof.Machine
end

