-- ==== Sys2Proof/Machine/Clocks.lean ====
section
/-! DEFINITION. Machine/Clocks.lean: operating points, references and the clock-loss wait, the Clockwork counter
(04_clocks_and_clockwork.md R108 to R140). -/
namespace Sys2Proof.Machine

/-- SOURCE of CLOCK_STATUS (Table 4.4). -/
def refCode : RefState → Nat
  | .onRefA => 0
  | .onRefB => 1
  | .toRefB => 2
  | .toRefA => 3
  | .clockLoss => 4

/-- Sync state codes (Table 4.7). -/
def syncCode : SyncState → Nat
  | .unsynced => 0
  | .acquiring => 1
  | .locked => 2
  | .coasting => 3

/-- The root divider of an operating point (Table 4.2). -/
def opDivider : Nat → Nat
  | 0 => 5
  | 1 => 6
  | 2 => 7
  | 3 => 8
  | 4 => 10
  | _ => 20

/-- The nominal core-rail voltage of an operating point in mV (Table 4.2, R110). -/
def opMillivolt : Nat → Nat
  | 0 => 880
  | 1 => 800
  | 2 => 740
  | 3 => 700
  | 4 => 650
  | _ => 600

/-- The frequency of a CLKMON source (R108, Table 2.9) in MHz, as a pair (numerator, denominator); source 0 is the core clock. -/
def clkmonFreq (source op : Nat) : Nat × Nat :=
  match source with
  | 0 => (10000, opDivider op)
  | 1 => (2500, 1)
  | 2 => (1250, 1)
  | 3 => (1000, 1)
  | 4 => (10000, 1)
  | _ => (15625, 100)

/-- CLKMON_LIMIT (R124): the divided frequency is above 312.5 MHz; CLKMON_N 0 holds the output low without the limit. -/
def clkmonLimited (c : ClockCfg) (op : Nat) : Bool :=
  let (n, d) := clkmonFreq c.clkmonSource op
  c.clkmonN != 0 && 3125 * d * 2 ^ c.clkmonN < 10 * n

/-- Judge CLKMON_LIMIT (R124): when the locked blueprint names the source, and again at each operating-point change. -/
def judgeClkmon (s : State) : State :=
  { s with clk := { s.clk with clkmonLimit := clkmonLimited (clocksCfg s) s.clk.opCurrent } }

/-- The CLKMON pin is held low (R124): CLKMON_N 0, the frequency limit, a gated source (the core, crossbar and fabric clocks of the
clock-loss wait), or a reference that shows no edges. -/
def clkmonHeldLow (s : State) : Bool :=
  let c := clocksCfg s
  c.clkmonN == 0 || s.clk.clkmonLimit || (s.clk.gated && c.clkmonSource ≤ 2) ||
    (c.clkmonSource == 5 && s.clk.noEdgesA) || (c.clkmonSource == 6 && s.clk.noEdgesB)

/-- A divider change to a point (R111, R112, R124): the arrays pause, CLKMON is judged again. -/
def changeDivider (op pause : Nat) (s : State) : State :=
  judgeClkmon (stopSpinners <| chargeClockChange pause
    { s with clk := { s.clk with opCurrent := op, pauses := s.clk.pauses + 1 } })

/-- Raise operating-point-change once a governor decision's step is complete (R560). -/
def opChanged (s : State) : State :=
  match s.clk.opFrom with
  | some old =>
    raiseM none 0xB004 0 (pack [(s.clk.opCurrent, 4, 4), (old, 0, 4)]) { s with clk := { s.clk with opFrom := none } }
  | none => s

/-- Start the next step towards the target when none is in progress (R111, R114, R122): faster first ramps, or only settles
when the rails already stand at the voltage; slower changes the divider first. -/
def startOpStep (pause : Nat) (s : State) : State :=
  match s.clk.opPhase with
  | .idle =>
    if s.clk.opHeld || s.clk.gated || s.clk.source == .clockLoss then s
    else if s.clk.opTarget < s.clk.opCurrent then
      { s with clk := { s.clk with opPhase := if s.clk.opVoltHigh then .settle else .ramp true } }
    else if s.clk.opCurrent < s.clk.opTarget then
      let s := changeDivider (s.clk.opCurrent + 1) pause s
      { s with clk := { s.clk with opPhase := .ramp false } }
    else s
  | _ => s

/-- Firmware gives a new target (R113, R114): refused when faster than MAX_OP, reserved, or outside what a failed step still
allows; a step in progress completes first. -/
def opTarget (index pause : Nat) (s : State) : State :=
  if index ≤ 5 && (clocksCfg s).maxOp ≤ index && s.clk.fastestAllowed ≤ index && index ≤ s.clk.slowestAllowed then
    startOpStep pause { s with clk := { s.clk with opTarget := index, opHeld := false } }
  else s

/-- OP_TARGET_REQUEST. -/
def execOpTargetRequest (index pause : Nat) (s : State) : Host.Outcome State Fault Refusal := .next (opTarget index pause s)

/-- Both rails report the voltage (R111): an upward ramp settles; a downward ramp completes its step. -/
def opReached (pause : Nat) (s : State) : State :=
  match s.clk.opPhase with
  | .ramp true => { s with clk := { s.clk with opPhase := .settle } }
  | .ramp false =>
    startOpStep pause (opChanged { s with clk := { s.clk with opPhase := .idle, opVoltHigh := false } })
  | _ => s

/-- OP_RAMP_REACHED. -/
def execOpRampReached (pause : Nat) (s : State) : Host.Outcome State Fault Refusal := .next (opReached pause s)

/-- The settle ends (R111): the divider changes, the step is complete, the sequencer heads on. -/
def opSettled (pause : Nat) (s : State) : State :=
  match s.clk.opPhase with
  | .settle =>
    let s := changeDivider (s.clk.opCurrent - 1) pause s
    startOpStep pause (opChanged { s with clk := { s.clk with opPhase := .idle, opVoltHigh := false } })
  | _ => s

/-- OP_SETTLE_END. -/
def execOpSettleEnd (pause : Nat) (s : State) : Host.Outcome State Fault Refusal := .next (opSettled pause s)

/-- A ramp misses twice its nominal time (R114): the sequencer holds; an upward failure forbids the failed point and faster
ones, a downward failure leaves OP_VOLT_HIGH and forbids slower points. -/
def opTimeout (s : State) : State :=
  match s.clk.opPhase with
  | .ramp up =>
    let c := s.clk
    let done := if up then c.opCurrent else c.opCurrent - 1
    let c := if up then { c with opPhase := .idle, opHeld := true, opFrom := none,
                                 fastestAllowed := max c.fastestAllowed c.opCurrent }
      else { c with opPhase := .idle, opHeld := true, opFrom := none, opVoltHigh := true,
                    slowestAllowed := min c.slowestAllowed c.opCurrent }
    raiseM none 0x2001 0 (pack [(c.opTarget, 4, 4), (done, 0, 4)]) { s with clk := c }
  | _ => s

/-- OP_RAMP_TIMEOUT. -/
def execOpRampTimeout (s : State) : Host.Outcome State Fault Refusal := .next (opTimeout s)

/-- The CLOCKWORK_SYNC register (R140). -/
def clockworkSync (s : State) : W64 :=
  let c := s.cwk
  pack [((BitVec.ofInt 32 c.offset).toNat, 32, 32), (syncCode c.state, 29, 3), ((clocksCfg s).role, 27, 2),
    (b2n c.syncinSeen, 26, 1), (c.refSeat, 12, 12), (c.coasts, 0, 12)]

/-- LOCKED goes to COASTING (R126): COASTS counts it, clockwork-coasting is raised. -/
def toCoasting (s : State) : State :=
  if s.cwk.state == .locked then
    let s := { s with cwk := { s.cwk with state := .coasting, coasts := satInc 0xFFF s.cwk.coasts, inBound := 0,
                                          filter := [], coastRaised := false } }
    raiseM none 0x2005 0 (clockworkSync s) s
  else s

/-- CLOCK_LOSS_ENTRY (R120, R121, R126): gates shut, links idle, stacks in self-refresh, domain clocks gated, jobs complete
CLOCK_LOST, reference-lost is raised, a LOCKED counter coasts; ready partitions show STATE 0x5 and running resets hold. -/
def clockLossEntry (s : State) : State :=
  let s := { s with
    clk := { s.clk with source := .clockLoss, dwell := false, gated := true },
    wake := { s.wake with gatesOpen := false, linksIdle := true, selfRefresh := true },
    parts := s.parts.map fun p =>
      let r := p.resetting.map fun q => { q with held := true }
      if p.state == 2 then { p with state := 5, resetting := r } else { p with resetting := r } }
  let s := toCoasting (linksClockLost (stopArrays (fun _ => true) (endJobsClockLost s)))
  if firmwareRuns' s then raiseM none 0x2003 0 0 s else s
where
  /-- firmware runs in the self-test, running and shelf stages -/
  firmwareRuns' (s : State) : Bool := s.boot.stage == 2 || s.boot.stage == 3 || s.boot.stage == 4

/-- A switch starts (R118). -/
def startSwitch (dest : RefState) (fromLoss : Bool) (s : State) : State :=
  { s with clk := { s.clk with source := dest, dwell := false, fromLoss } }

/-- What the reference state does about the qualifications as they stand (Table 4.4, R117, R119). -/
def refAct (s : State) : State :=
  let c := s.clk
  if !s.wake.pllLocked then s
  else match c.source with
    | .onRefA =>
      if c.qualA then s else if c.qualB then startSwitch .toRefB false s else lossThen s
    | .onRefB =>
      if c.qualB then { s with clk := { c with dwell := c.qualA } }
      else if c.qualA then startSwitch .toRefA false s else lossThen s
    | .clockLoss =>
      if c.qualA then startSwitch .toRefA true s else if c.qualB then startSwitch .toRefB true s else s
    | _ => s
where
  /-- enter the clock-loss wait -/
  lossThen (s : State) : State := clockLossEntry s

/-- A reference is disqualified (R115): its count starts again, and Table 4.4 acts. -/
def refDisqualified (r : RefId) (s : State) : State :=
  refAct { s with clk := match r with
    | .refA => { s.clk with qualA := false, goodA := 0, dwell := false, first := firstAfter s.clk.first false s.clk.qualB }
    | .refB => { s.clk with qualB := false, goodB := 0, first := firstAfter s.clk.first s.clk.qualA false } }

/-- Loss of signal on a reference (R115): disqualified at once; the running window does not count. It shows no edges (R124) until a
window measures its frequency in range again. -/
def refLos (r : RefId) (s : State) : State :=
  refDisqualified r { s with clk := match r with
    | .refA => { s.clk with losA := true, noEdgesA := true }
    | .refB => { s.clk with losB := true, noEdgesB := true } }

/-- REF_LOSS_OF_SIGNAL. -/
def execRefLossOfSignal (ref : RefId) (s : State) : Host.Outcome State Fault Refusal := .next (refLos ref s)

/-- REFB may be qualified (R115): until a blueprint is locked it counts as present. -/
def refbFitted (s : State) : Bool := (clocksCfg s).refbPresent

/-- The count of good windows and the qualification of one reference after a window (R115). -/
def windowEnd (good : Nat) (qual los inRange : Bool) : Nat × Bool :=
  if !inRange then (0, false)
  else if los then (0, qual)
  else (min 10 (good + 1), qual || good + 1 ≥ 10)

/-- A 1 ms window ends (R115, R116): both references are judged at once, then Table 4.4 acts. Windows run from the boot
oscillator's ready signal until the next power-down. -/
def refWindow (inRangeA inRangeB : Bool) (s : State) : State :=
  if !s.wake.bootOsc then s
  else
    let c := s.clk
    let (ga, qa) := windowEnd c.goodA c.qualA c.losA inRangeA
    let (gb, qb) := if refbFitted s then windowEnd c.goodB c.qualB c.losB inRangeB else (0, false)
    refAct { s with clk := { c with goodA := ga, qualA := qa, goodB := gb, qualB := qb, losA := false, losB := false,
                                    noEdgesA := c.noEdgesA && !inRangeA, noEdgesB := c.noEdgesB && !inRangeB,
                                    first := firstAfter c.first qa qb } }

/-- REF_WINDOW_END. -/
def execRefWindowEnd (inRangeA inRangeB : Bool) (s : State) : Host.Outcome State Fault Refusal :=
  .next (refWindow inRangeA inRangeB s)

/-- REFA has been qualified for 100 ms while on REFB (R117): the switch back starts. -/
def refaDwell (s : State) : State :=
  if s.clk.source == .onRefB && s.clk.qualA && s.clk.dwell then startSwitch .toRefA false s else s

/-- REFA_DWELL_END. -/
def execRefaDwellEnd (s : State) : Host.Outcome State Fault Refusal := .next (refaDwell s)

/-- A partition in reset abandons its outstanding requests, whose late answers are discarded, and the fabric agent tells the fabric
manager (R189), once. -/
def tellReset (n : Nat) (s : State) : State :=
  match (partOf n s).resetting with
  | some r =>
    if r.told then s
    else reportFm 7 [BitVec.ofNat 64 n] (abandonRequests n (onPart n (fun p => { p with resetting := some { r with told := true } }) s))
  | none => s

/-- CLOCK_LOSS_EXIT (R123): stacks leave self-refresh, clocks and gates open, partitions are ready again, held resets resume,
the sequencer heads for its target again (R122), links retrain, reference-restored is raised. Before the start-up self-test and in the
shelf state the gates stay shut, the links idle and the stacks in self-refresh (R67, R92). -/
def clockLossExit (ref : Nat) (s : State) : State :=
  let up := s.boot.stage == 2 || s.boot.stage == 3
  let s := { s with
    clk := { s.clk with gated := false, fromLoss := false },
    wake := if up then { s.wake with gatesOpen := true, linksIdle := false, selfRefresh := false } else s.wake,
    parts := s.parts.map fun p =>
      let r := p.resetting.map fun q => { q with held := false }
      if p.state == 5 then { p with state := 2, resetting := r } else { p with resetting := r } }
  let s := (List.range 4).foldl (fun s n => tellReset n s) s
  startOpStep 0 (raiseM none 0x2004 0 (BitVec.ofNat 64 ref) (if up then linksClockBack s else s))

/-- A switch completes (R117, R118, R119): the reference state, SWITCHES, reference-switch; then Table 4.4 acts on what
happened during the switch. -/
def switchEnd (s : State) : State :=
  let fin := fun (ok : Bool) (dest : RefState) (ref : Nat) =>
    let fl := s.clk.fromLoss
    let s := { s with clk := { s.clk with switches := satInc 0xFFFF s.clk.switches,
                                          source := if ok then dest else .clockLoss } }
    let s := raiseM none 0x2002 0 (BitVec.ofNat 64 (refCode s.clk.source)) s
    let s := if ok then if fl then clockLossExit ref s else s
      else if fl then { s with clk := { s.clk with fromLoss := false } } else clockLossEntry s
    refAct s
  match s.clk.source with
  | .toRefB => fin s.clk.qualB .onRefB 1
  | .toRefA => fin s.clk.qualA .onRefA 0
  | _ => s

/-! ### The Clockwork counter -/

/-- Own seat number. -/
def ownSeat (s : State) : Nat := ((topo? s).map TopoCfg.seat).getD 0

/-- Members of the pod. -/
def podMembers (s : State) : Nat := ((topo? s).map TopoCfg.podMembers).getD 1

/-- The module is its own reference (R126, R130): a system reference without SYNCIN, or a pod reference or the module of a
pod of one that hears no system reference. -/
def selfReference (s : State) : Bool :=
  let c := clocksCfg s
  if c.role == 2 then !c.syncinUse
  else (c.role == 1 || podMembers s == 1) && !s.cwk.hearsSystem

/-- One control-clock cycle (R125, R99): the counter advances by one count and its rate correction; the timekeeper by its
32,768 counts a second. This is what a step does with an empty queue. -/
def tick (s : State) : State :=
  let t := s.aon.tkFrac + 32768
  let s := { s with aon := { s.aon with tkFrac := t % 1000000000,
                                        timekeeper := s.aon.timekeeper + BitVec.ofNat 64 (t / 1000000000) } }
  if s.wake.pgood then
    let f := (s.cwk.frac : Int) + 2 ^ 32 + s.cwk.rate
    { s with cwk := { s.cwk with now := s.cwk.now + BitVec.ofInt 64 (f / 2 ^ 32), frac := (f % 2 ^ 32).toNat } }
  else s

/-- A slewing rate up to a limit with the sign of a correction (R127): how fast, the spec leaves open. -/
def slew (limit : Nat) (offset : Int) (s : State) : State :=
  let (f, s) := freeWord s
  let m : Int := (f.toNat % (limit + 1) : Nat)
  { s with cwk := { s.cwk with rate := if offset < 0 then -m else if offset == 0 then 0 else m } }

/-- 100 ppm in units of 2^-32 ck per cycle (R127). -/
def slewLocked : Nat := 2 ^ 32 / 10000

/-- 1/16 of the count rate (R127). -/
def slewAcquiring : Nat := 2 ^ 28

/-- The counter moved by an offset in 0.125 ns, an eighth of a ck (R131), its fraction of a ck kept. -/
def Cwk.moved (c : Cwk) (offset : Int) : Cwk :=
  let f := (c.frac : Int) + offset * 2 ^ 29
  { c with now := c.now + BitVec.ofInt 64 (f / 2 ^ 32), frac := (f % 2 ^ 32).toNat }

/-- LOCKED (R126), with a rate correction that was allowed in ACQUIRING cut to the 100 ppm of LOCKED (R127). -/
def Cwk.locked (c : Cwk) : Cwk := { c with state := .locked, rate := max (-(slewLocked : Int)) (min slewLocked c.rate) }

/-- Steer the counter by an offset in 0.125 ns (R127, R131): LOCKED slews; ACQUIRING steps forward when behind and slews when
ahead. OFFSET reports it. -/
def steer (offset : Int) (s : State) : State :=
  let s := { s with cwk := { s.cwk with offset } }
  match s.cwk.state with
  | .locked => slew slewLocked offset s
  | .acquiring =>
    if 0 < offset then { s with cwk := s.cwk.moved offset }
    else slew slewAcquiring offset s
  | _ => s

/-- A valid exchange with the reference (R126, R127, R131): `bound` is the bound of an exchange in 0.125 ns, `batch` how many
exchanges the filter gathers before the one of least round trip steers. -/
def exchange (x : Exchange) (bound : Int) (batch refSeat : Nat) (s : State) : State :=
  let s := { s with cwk := { s.cwk with refSeat, outstanding := none } }
  match s.cwk.state with
  | .unsynced =>
    { s with cwk := { s.cwk.moved x.offset with state := .acquiring, offset := x.offset, filter := [], inBound := 0 } }
  | .coasting => { s with cwk := { s.cwk with state := .acquiring, filter := [x], inBound := 0 } }
  | st =>
    if st == .locked && 8000 < x.offset.natAbs then
      { s with cwk := { s.cwk with state := .acquiring, filter := [], inBound := 0 } }
    else
      let f := s.cwk.filter ++ [x]
      let ok := x.offset.natAbs ≤ bound.natAbs
      let n := if ok then s.cwk.inBound + 1 else 0
      let s := { s with cwk := { s.cwk with inBound := min 16 n, filter := f } }
      let s := if batch ≤ f.length then
          let best := f.foldl (fun b e => if e.rtt < b.rtt then e else b) (f.headD x)
          steer best.offset { s with cwk := { s.cwk with filter := [] } }
        else s
      if s.cwk.state == .acquiring && 16 ≤ n then { s with cwk := s.cwk.locked } else s

/-- Four intervals without a valid exchange (R126). A module that is its own reference loses none. -/
def syncLoss (s : State) : State :=
  if selfReference s then s else toCoasting { s with cwk := { s.cwk with hearsSystem := false } }

/-- SYNC_LOSS_TIMEOUT. -/
def execSyncLossTimeout (s : State) : Host.Outcome State Fault Refusal := .next (syncLoss s)

/-- 64 intervals unsynchronised or COASTING (R126, R130): clockwork-unsynchronised once in each such stay. -/
def coastingLimit (s : State) : State :=
  if (s.cwk.state == .coasting || s.cwk.state == .unsynced) && !s.cwk.coastRaised then
    raiseM none 0x2006 0 (clockworkSync s) { s with cwk := { s.cwk with coastRaised := true } }
  else s

/-- COASTING_LIMIT_TIMEOUT. -/
def execCoastingLimitTimeout (s : State) : Host.Outcome State Fault Refusal := .next (coastingLimit s)

/-- The nearest whole second to a timestamp in 0.125 ns (R133). -/
def nearestSecond (at8 : Nat) : Nat := (at8 + 4000000000) / 8000000000 * 8000000000

/-- A SYNCIN edge at a local timestamp in 0.125 ns (R126, R133, R612): used only by a system reference with SYNCIN_USE 1. The count at
the first edge becomes a whole second. -/
def syncinEdge (at8 : W64) (s : State) : State :=
  let c := clocksCfg s
  if c.role == 2 && c.syncinUse then
    let m := nearestSecond at8.toNat
    let t := exchange { offset := (m : Int) - at8.toNat, rtt := 0 } 32 1 (ownSeat s) { s with cwk := { s.cwk with syncinSeen := true } }
    if s.cwk.state == .unsynced then
      { t with cwk := { t.cwk with now := s.cwk.now + BitVec.ofNat 64 (m / 8) - BitVec.ofNat 64 (at8.toNat / 8), frac := 0 } }
    else t
  else s

/-- No SYNCIN edge within 1.1 s (R133): counts as 4 sync intervals without a valid exchange. -/
def syncinAbsent (s : State) : State :=
  let c := clocksCfg s
  let s := { s with cwk := { s.cwk with syncinSeen := false } }
  if c.role == 2 && c.syncinUse then toCoasting s else s

/-- SYNCIN_ABSENT_TIMEOUT. -/
def execSyncinAbsentTimeout (s : State) : Host.Outcome State Fault Refusal := .next (syncinAbsent s)

/-- A resynchronisation order (R134): a system reference without SYNCIN completes with no change; every other module goes to
ACQUIRING, from whatever sync state, with its filter cleared and its counter kept. -/
def resync (s : State) : State :=
  let c := clocksCfg s
  if c.role == 2 && !c.syncinUse then s
  else { s with cwk := { s.cwk with state := .acquiring, filter := [], inBound := 0, coastRaised := false } }

end Sys2Proof.Machine
end

