-- ==== Sys2Proof/Machine/Sequencer.lean ====
section
/-! DEFINITION. Machine/Sequencer.lean: issue (08 R270 to R288), strings, index registers, loops, channels, barriers, branches:
the SYNC and CTRL classes, completion, and the timeouts of a run. A command of a tile names the tile, the context (R308) and
the stall cycles charged since the last issue, as (field of Table 8.18, cycles). -/
namespace Sys2Proof.Machine

/-- The instruction at the front of a tile's list issues now as `cls`, `op` (R284, R285): its job, its tile and its word. -/
def issuable (t : Nat) (c : Ctx) (cls op : Nat) (s : State) : Option (Job × JobTile × W128) :=
  match runOn t c s with
  | none => none
  | some (j, x) =>
    match x.word, j.run with
    | some w, some r =>
      if iclass w == cls && iop w == op && inRange x.state 1 3 && !x.refill && !x.ending && r.start ≤ now s
          && stringReady x w && postRoom x w && queueRoom x w c s && classReady j x w c s
          && (c == .normal || fillerMay t s) then some (j, x, w)
      else none
    | _, _ => none

/-- Issue order through loops (R283): after the instruction at `i`, the next index and the loops left. -/
def advance (i : Nat) : List Loop → Nat × List Loop
  | [] => (i + 1, [])
  | l :: r =>
    if i == l.last then (if 1 < l.left then (l.first, { l with left := l.left - 1 } :: r) else advance i r)
    else (i + 1, l :: r)

/-- Take an entry of WAIT_STR (R272). -/
def JobTile.take (x : JobTile) (w : W128) : JobTile :=
  if waitStr w == 15 then x else { x with posted := upd x.posted (waitStr w) (· - 1) }

/-- Reserve a place of POST_STR (R272). -/
def JobTile.reserve (x : JobTile) (w : W128) : JobTile :=
  if postStr w == 15 then x else { x with reserved := upd x.reserved (postStr w) (· + 1) }

/-- Completion posts the string (R272, R286). -/
def JobTile.post (x : JobTile) (p : Nat) : JobTile :=
  if p == 15 then x else { x with posted := upd x.posted p (· + 1), reserved := upd x.reserved p (· - 1) }

/-- Charge the stall cycles of a command (R300), to causes that its instruction can stall for. -/
def JobTile.charge (x : JobTile) (w : W128) (c : Ctx) (waits : List (Nat × Nat)) : JobTile :=
  { x with seq := waits.foldl (fun q p => if mayStall w c p.1 then chargeStall q p.1 p.2 else q) x.seq }

/-- The bookkeeping of an issue (R272, R296, R299): strings, ISSUED, VARIED, LAST_INDEX, the next index. -/
def JobTile.issued (x : JobTile) (w : W128) (c : Ctx) (waits : List (Nat × Nat)) : JobTile :=
  let x := ((x.charge w c waits).take w).reserve w
  let (n, ls) := advance x.next x.loops
  { x with
    state := 2, next := n, loops := ls, satRaised := x.satRaised.filter (fun k => k / 0x1000 == 4), seq := upd x.seq 0 (· + 1),
    extra := { x.extra with last := x.next, varied := if mayVary w then count32 x.extra.varied 1 else x.extra.varied },
    variedRun := x.variedRun || mayVary w }

/-- The issue of an instruction that a unit queue takes (R286). -/
def JobTile.enqueue (x : JobTile) (u : UnitId) (e : Entry) : JobTile := x.setQueue u (x.queue u ++ [e])

/-- The queue entry of an instruction. -/
def entryOf (x : JobTile) (w : W128) (left : Nat) (cross : List Nat := []) : Entry :=
  { index := x.next, word := w, x := x.xval w, post := postStr w, left := left, cross := cross }

/-- Issue into a unit: bookkeeping, and the entry at the end of the unit's queue, with the bridge credits it takes (R292). -/
def issueTo (u : UnitId) (left : Nat) (waits : List (Nat × Nat)) (j : Job) (x : JobTile) (w : W128) (s : State)
    (cross : List Nat := []) : State :=
  onTile j x.tile (fun y => (y.issued w j.ctx waits).enqueue u (entryOf y w left cross)) s

/-- Issue an instruction that completes at issue (R286): bookkeeping, and its string is posted. -/
def issueHere (waits : List (Nat × Nat)) (j : Job) (x : JobTile) (w : W128) (s : State) : State :=
  onTile j x.tile (fun y => (y.issued w j.ctx waits).post (postStr w)) s

/-- Run `f` when the instruction issues, else nothing changes. -/
def whenIssued (t : Nat) (c : Ctx) (cls op : Nat) (s : State) (f : Job → JobTile → W128 → State) : State :=
  match issuable t c cls op s with
  | some (j, x, w) => f j x w
  | none => s

/-- A request to an engine that has no free entry is put in line (R291); one that goes ahead leaves the line. -/
def noteWaiting (t : Nat) (c : Ctx) (w : W128) (s : State) : State :=
  let p := (engineKey t w, waiterKey t c)
  { s with dp := { s.dp with waits := if s.dp.waits.contains p then s.dp.waits else s.dp.waits ++ [p] } }

/-- A request leaves the line of its engine. -/
def leaveLine (t : Nat) (c : Ctx) (s : State) : State :=
  { s with dp := { s.dp with waits := s.dp.waits.filter fun p => p.2 != waiterKey t c } }

/-- Run `f` when a ROUTE or COLL instruction issues; one that only its full engine holds is put in line (R285, R291). -/
def whenRequested (t : Nat) (c : Ctx) (cls op : Nat) (s : State) (f : Job → JobTile → W128 → State → State) : State :=
  match issuable t c cls op s with
  | some (j, x, w) => f j x w (leaveLine t c s)
  | none => match runOn t c s with
    | some (j, x) => match x.word with
      | some w => if iclass w == cls && iop w == op && x.free && stallCause j x c s == 11 then noteWaiting t c w s else s
      | none => s
    | none => s

/-- Loop in progress, ENDED (R288): a tile whose END has issued is ENDED once its units are empty. -/
def JobTile.settle (x : JobTile) : JobTile := if x.ending && x.drained then { x with state := 5 } else x

/-- Every tile with a list is ENDED (R307). -/
def Job.allEnded (j : Job) : Bool := j.tiles.all fun x => x.state == 5

/-- Settle a tile, and note the count at which the last tile of the run ended (Table 8.20). -/
def settleTile (j : Job) (t : Nat) (s : State) : State :=
  onJob j.part j.num (fun j =>
    let j := j.onTile t JobTile.settle
    if j.allEnded then { j with run := j.run.map fun r => if r.ended == 0 then { r with ended := (now s).toNat } else r } else j) s

/-- A unit completes its oldest instruction (R286): what it waited for has come; its string is posted. -/
def completeOldest (t : Nat) (c : Ctx) (u : UnitId) (s : State) : State :=
  match runOn t c s with
  | none => s
  | some (j, x) =>
    match x.queue u with
    | e :: rest =>
      if e.left == 0 && (u != .arrays || (e.ended && e.held.isEmpty)) && x.state != 7 then
        settleTile j t (onTile j t (fun y => (y.setQueue u rest).post e.post) s)
      else s
    | [] => s

/-- CURTAIN (R282, R285, R137): issues once the counter has reached the count; one that is reached late, with no curtain wait
charged, counts as a late curtain and is reported. -/
def curtain (t : Nat) (c : Ctx) (waits : List (Nat × Nat)) (s : State) : State :=
  whenIssued t c 5 0 s fun j x w =>
    let s' := issueHere waits j x w s
    let s' := if ifld w 103 102 == 1 then onTile j t (fun y => { y with curtains := y.curtains + 1 }) s' else s'
    match curtainCount j x w with
    | some k =>
      if k < now s && !waits.any (fun p => p.1 == 6 && p.2 != 0) then
        let s' := onTile j t (fun y => { y with extra := { y.extra with late := count32 y.extra.late 1 } }) s'
        let s' := onPart j.part (fun p => { p with lateCurtains := p.lateCurtains + 1 }) s'
        raiseJ j 0x2008 (unitTile t) (now s - k) s'
      else s'
    | none => s'

/-- BARRIER (R285). -/
def barrier (t : Nat) (c : Ctx) (waits : List (Nat × Nat)) (s : State) : State :=
  whenIssued t c 5 1 s fun j x w =>
    let b := ifld w 103 98
    onTile j t (fun y => { y with barriers := assign0 b (y.barrierCount b + 1) y.barriers }) (issueHere waits j x w s)

/-- FENCE (R285): issues once every earlier SPACE 1 write and atomic is acknowledged. -/
def fence (t : Nat) (c : Ctx) (waits : List (Nat × Nat)) (s : State) : State :=
  whenIssued t c 5 4 s fun j x w => issueHere waits j x w s

/-- WAIT (R271): only its string holds it. -/
def waitString (t : Nat) (c : Ctx) (waits : List (Nat × Nat)) (s : State) : State :=
  whenIssued t c 5 5 s fun j x w => issueHere waits j x w s

/-- CTRL NOP (R271). -/
def ctrlNop (t : Nat) (c : Ctx) (waits : List (Nat × Nat)) (s : State) : State :=
  whenIssued t c 6 0 s fun j x w => issueHere waits j x w s

/-- LOOP (R283): COUNT iterations over the BODY instructions that follow. -/
def loop (t : Nat) (c : Ctx) (waits : List (Nat × Nat)) (s : State) : State :=
  whenIssued t c 6 1 s fun j x w =>
    onTile j t (fun y => { y with loops := ⟨x.next + 1, x.next + ifld w 71 56, ifld w 103 72⟩ :: y.loops })
      (issueHere waits j x w s)

/-- An instruction outside the instruction buffer of 2,048 instructions waits for the refill (R287). DESIGN CHOICE: the buffer
holds what lies less than 2,048 instructions from the one that issued last. -/
def outsideBuffer (i k : Nat) : Bool := i + 2048 ≤ k || k + 2048 ≤ i

/-- Continue issue at an index (R283, R287). -/
def JobTile.goTo (x : JobTile) (i k : Nat) : JobTile := { x with next := k, refill := outsideBuffer i k }

/-- JUMP (R283). -/
def jump (t : Nat) (c : Ctx) (waits : List (Nat × Nat)) (s : State) : State :=
  whenIssued t c 6 2 s fun j x w =>
    onTile j t (fun y => y.goTo x.next (ifld w 103 72)) (issueHere waits j x w s)

/-- BRANCH (R294 step 1): issue stops and the tile drains; its arrays issue no spinner operations meanwhile (R217). -/
def branch (t : Nat) (c : Ctx) (waits : List (Nat × Nat)) (s : State) : State :=
  whenIssued t c 6 3 s fun j _ w => stopSpinning t (onTile j t (fun y => { y.charge w c waits with state := 4 }) s)

/-- The condition of a BRANCH (R281): unsigned compare of the word in memory with VALUE. -/
def branchHolds (w : W128) (v : Nat) : Bool :=
  let k := ifld w 45 14
  match ifld w 47 46 with
  | 0 => v == k
  | 1 => v != k
  | 2 => v < k
  | _ => k ≤ v

/-- The drain ends (R294 steps 2 to 4): the condition word is read, TARGET or the next instruction chosen, and the cycles of
the drain are charged. -/
def branchDrainEnd (t : Nat) (c : Ctx) (cycles : Nat) (s : State) : State :=
  match runOn t c s with
  | none => s
  | some (j, x) =>
    match x.word with
    | some w =>
      if x.state == 4 && iclass w == 6 && iop w == 3 && x.drained then
        let d := x.desc (ifld w 71 64)
        let a := (d.base + 4 * ifld w 63 48) % 2 ^ 48
        match checkReads j t [(a, 4)] s with
        | some st => stopAt j t st s
        | none =>
          let s' := issueHere [(8, cycles)] j x w (countSpill j t false [(a, 4)] s)
          let s' := onTile j t (fun y => { y with extra := { y.extra with branches := count32 y.extra.branches 1 } }) s'
          if branchHolds w (rdNat a 4 s.mem) then onTile j t (fun y => y.goTo x.next (ifld w 103 72)) s' else s'
      else s
    | none => s

/-- SETX (R273). -/
def setx (t : Nat) (c : Ctx) (waits : List (Nat × Nat)) (s : State) : State :=
  whenIssued t c 6 4 s fun j x w =>
    onTile j t (fun y => { y with x := setAt y.x (ifld w 103 101) (BitVec.ofNat 32 (ifld w 100 69)) }) (issueHere waits j x w s)

/-- ADDX (R273): modulo 2^32. -/
def addx (t : Nat) (c : Ctx) (waits : List (Nat × Nat)) (s : State) : State :=
  whenIssued t c 6 5 s fun j x w =>
    onTile j t (fun y => { y with x := upd y.x (ifld w 103 101) (· + BitVec.ofNat 32 (ifld w 100 69)) }) (issueHere waits j x w s)

/-- TIME (R281): the Clockwork count as a u64 at index ROW of a core-store descriptor, through the fetcher. -/
def time (t : Nat) (c : Ctx) (waits : List (Nat × Nat)) (s : State) : State :=
  whenIssued t c 6 6 s fun j x w =>
    let d := x.desc (ifld w 103 96)
    let a := (d.base + 8 * ((ifld w 95 76 + x.xval w) % 2 ^ 20)) % 2 ^ 48
    match checkWrites j.part t [(a, 8)] s with
    | some st => stopAt j t st s
    | none =>
      let s' := issueTo .fetcher 0 waits j x w (prepareWrites j t [(a, 8)] s)
      finishWrites j.part [(a, 8)] s.mem { s' with mem := wrWords a [now s] s'.mem }

/-- END (R288, R307): no further instruction; the tile is ENDED once the earlier ones have completed. -/
def endList (t : Nat) (c : Ctx) (waits : List (Nat × Nat)) (s : State) : State :=
  whenIssued t c 6 7 s fun j x w =>
    settleTile j t (onTile j t (fun y => { y with ending := true, next := x.next }) (issueHere waits j x w s))

/-- The instruction buffer holds the chosen instruction: the wait counts as IFETCH (R287), after a BRANCH as branch drain (R294). -/
def refillDone (t : Nat) (c : Ctx) (cycles : Nat) (s : State) : State :=
  match runOn t c s with
  | some (j, x) =>
    if x.refill then onTile j t (fun y => { y with refill := false, seq := chargeStall y.seq (if y.branched then 8 else 9) cycles }) s else s
  | none => s

/-- The byte ranges and bytes of lines `l` to `l + n - 1` of a descriptor, one range a line (R289). -/
def lineRanges (d : Desc) (l n : Nat) : List (Nat × Nat) := (List.range n).map fun i => d.span (l + i) 0 d.lineLen

/-- The bytes of ranges, packed. -/
def gatherBytes (rs : List (Nat × Nat)) (m : Mem) : List Byte := rs.flatMap fun r => rdBytes r.1 r.2 m

/-- SEND (R289): takes a credit and writes its lines, packed, into the next entry. A remote channel's entry waits in the
channel's queue for the fabric: `sendRemote`. -/
def sendLocal (t : Nat) (waits : List (Nat × Nat)) (j : Job) (x : JobTile) (w : W128) (h : Channel) (s : State) : State :=
  let d := x.desc (ifld w 95 88)
  let rs := lineRanges d ((ifld w 87 68 + x.xval w) % 2 ^ 20) (ifld w 67 52)
  match checkReads j t rs s with
  | some st => stopAt j t st s
  | none =>
    let bs := gatherBytes rs s.mem
    let a := h.buffer + h.written % h.depth * h.entryBytes
    let wr := [(a, bs.length)]
    if !mayRead j x rs s then s
    else if h.entryBytes < bs.length then stopAt j t ⟨0x000B, a⟩ s
    else match checkWrites j.part h.dstTile wr s with
      | some st => stopAt j t st s
      | none =>
        let s := issueTo .fetcher 0 waits j x w (prepareWrites j t wr (countSpill j t false rs s))
          (wordClass j x w s ++ accessClass j.part t rs s)
        let s := onChannel j (fun k => k.srcTile == h.srcTile && k.srcIndex == h.srcIndex)
          (fun k => { k with credits := k.credits - 1, written := k.written + 1, arrived := k.arrived + 1 }) s
        finishWrites j.part wr s.mem { s with mem := wrBytes a bs s.mem }

/-- RECV (R289): takes the next entry, sets BASE of BIND to it, and returns the credit of the entry the previous RECV took.
`ret` sends a credit to a remote producer. -/
def recv (ret : Job → Channel → State → State) (t : Nat) (c : Ctx) (waits : List (Nat × Nat)) (s : State) : State :=
  whenIssued t c 5 3 s fun j x w =>
    match inChannel j t (ifld w 103 96) (ownSeatOf s) with
    | none => s
    | some h =>
      let same := fun k : Channel => k.dstTile == h.dstTile && k.dstIndex == h.dstIndex && k.dstSeat == h.dstSeat
      let b := ifld w 95 88
      let s := issueTo .fetcher 0 waits j x w s
      let s := onTile j t (fun y =>
        { y with binds := (b, h.buffer + h.taken % h.depth * h.entryBytes) :: y.binds.filter fun p => p.1 != b }) s
      let local? := (j.tile h.srcTile).isSome
      let s := onChannel j same (fun k => { k with
        taken := k.taken + 1, credits := if local? && k.taken != 0 then k.credits + 1 else k.credits }) s
      if !local? && h.taken != 0 then ret j h s else s

/-- A wait that the watchdog of R304 does not count: the clock-loss wait, a HELD tile, or a tile that waits for an agreed curtain count in
the future. -/
def watchdogRests (j : Job) (s : State) : Bool :=
  s.clk.gated || j.tiles.any fun x => x.state == 7 ||
    (stallCause j x j.ctx s == 6 && match x.word.bind fun w => curtainCount j x w with
      | some k => now s < k
      | none => false)

/-- No tile issues and no unit completes for STUCK_MS (R304): stuck-run names the oldest unissued instruction of the
lowest-numbered stalled tile, and its cause; the run stays. -/
def stuckRun (part num : Nat) (s : State) : State :=
  match jobOf part num s with
  | none => s
  | some j =>
    match j.tiles.find? fun x => inRange x.state 2 4 && !x.ending && stallCause j x j.ctx s != 0 with
    | some x =>
      if !j.running || watchdogRests j s then s
      else
        let s' := onJob part num (fun j => { j with run := j.run.map fun r => { r with stuck := r.stuck + 1 } }) s
        raiseJ j 0x4002 (unitTile x.tile) (pack [(x.next, 32, 32), (stallCause j x j.ctx s, 0, 4)]) s'
    | none => s

/-- What a tile is held by for R303: the channel of its SEND; its die's engine or, for its epilogue, the channel queue of its next add-write, as
unit codes of Table 14.13. -/
def saturationKey (j : Job) (x : JobTile) (c : Ctx) (s : State) : Option Nat :=
  match x.arrays.findSome? fun e => e.held.head? with
  | some a => some (unitChannel (a.channel s))
  | none => match stallCause j x c s, x.word with
    | 4, some w => some (ifld w 103 96)
    | 11, some w => some (if iclass w == 3 then unitJacks (x.tile / 512) else unitDomino (x.tile / 512))
    | _, _ => none

/-- SATURATION_WINDOW_US has passed while a tile was held on a channel, an engine or an add-write queue (R303): once for each
entry into the state. DESIGN CHOICE (log 80): an engine and an add-write queue are named in w3 by their codes of Table 14.13. -/
def tileSaturation (t : Nat) (c : Ctx) (s : State) : State :=
  match runOn t c s with
  | none => s
  | some (j, x) =>
    match saturationKey j x c s with
    | none => s
    | some k =>
      if x.satRaised.contains k then s
      else
        let s := onTile j t (fun y => { y with satRaised := k :: y.satRaised }) s
        let s := onJob j.part j.num (fun j => { j with run := j.run.map fun r => { r with saturations := r.saturations + 1 } }) s
        raiseJ j 0x4003 (unitTile t) (BitVec.ofNat 64 k) s

/-- INSTRUCTION_COMPLETE. -/
def execInstructionComplete (tile : Nat) (ctx : Ctx) (unit : UnitId) (s : State) : Host.Outcome State Fault Refusal :=
  .next (completeOldest tile ctx unit s)
/-- CURTAIN. -/
def execCurtain (tile : Nat) (ctx : Ctx) (waits : List (Nat × Nat)) (s : State) : Host.Outcome State Fault Refusal :=
  .next (curtain tile ctx waits s)
/-- BARRIER. -/
def execBarrier (tile : Nat) (ctx : Ctx) (waits : List (Nat × Nat)) (s : State) : Host.Outcome State Fault Refusal :=
  .next (barrier tile ctx waits s)
/-- FENCE. -/
def execFence (tile : Nat) (ctx : Ctx) (waits : List (Nat × Nat)) (s : State) : Host.Outcome State Fault Refusal :=
  .next (fence tile ctx waits s)
/-- WAIT. -/
def execWait (tile : Nat) (ctx : Ctx) (waits : List (Nat × Nat)) (s : State) : Host.Outcome State Fault Refusal :=
  .next (waitString tile ctx waits s)
/-- CTRL NOP. -/
def execCtrlNop (tile : Nat) (ctx : Ctx) (waits : List (Nat × Nat)) (s : State) : Host.Outcome State Fault Refusal :=
  .next (ctrlNop tile ctx waits s)
/-- LOOP. -/
def execLoop (tile : Nat) (ctx : Ctx) (waits : List (Nat × Nat)) (s : State) : Host.Outcome State Fault Refusal :=
  .next (loop tile ctx waits s)
/-- JUMP. -/
def execJump (tile : Nat) (ctx : Ctx) (waits : List (Nat × Nat)) (s : State) : Host.Outcome State Fault Refusal :=
  .next (jump tile ctx waits s)
/-- BRANCH. -/
def execBranch (tile : Nat) (ctx : Ctx) (waits : List (Nat × Nat)) (s : State) : Host.Outcome State Fault Refusal :=
  .next (branch tile ctx waits s)
/-- BRANCH_DRAIN_END. -/
def execBranchDrainEnd (tile : Nat) (ctx : Ctx) (cycles : Nat) (s : State) : Host.Outcome State Fault Refusal :=
  .next (branchDrainEnd tile ctx cycles s)
/-- SETX. -/
def execSetx (tile : Nat) (ctx : Ctx) (waits : List (Nat × Nat)) (s : State) : Host.Outcome State Fault Refusal :=
  .next (setx tile ctx waits s)
/-- ADDX. -/
def execAddx (tile : Nat) (ctx : Ctx) (waits : List (Nat × Nat)) (s : State) : Host.Outcome State Fault Refusal :=
  .next (addx tile ctx waits s)
/-- TIME. -/
def execTime (tile : Nat) (ctx : Ctx) (waits : List (Nat × Nat)) (s : State) : Host.Outcome State Fault Refusal :=
  .next (time tile ctx waits s)
/-- END. -/
def execEndList (tile : Nat) (ctx : Ctx) (waits : List (Nat × Nat)) (s : State) : Host.Outcome State Fault Refusal :=
  .next (endList tile ctx waits s)
/-- IFETCH_REFILL_DONE. -/
def execIfetchRefillDone (tile : Nat) (ctx : Ctx) (cycles : Nat) (s : State) : Host.Outcome State Fault Refusal :=
  .next (refillDone tile ctx cycles s)
/-- STUCK_RUN_TIMEOUT. -/
def execStuckRunTimeout (partition job : Nat) (s : State) : Host.Outcome State Fault Refusal := .next (stuckRun partition job s)
/-- TILE_SATURATION_TIMEOUT. -/
def execTileSaturationTimeout (tile : Nat) (ctx : Ctx) (s : State) : Host.Outcome State Fault Refusal :=
  .next (tileSaturation tile ctx s)

end Sys2Proof.Machine
end

