-- ==== Sys2Proof/Machine/Arrays.lean ====
section
/-! DEFINITION. Machine/Arrays.lean: the array operation and its end (06 R203 to R223, 07, 08 R274, 15 R554), the fill batcher's
deadline, array states, and the commands of the array family. -/
namespace Sys2Proof.Machine

/-- The value of element `i` of an operand line with its shared scale (R232, R238). -/
def Line.value (x : Line) (i : Nat) : Val := if isMx x.format then mxValue (x.scale i) (x.val i) else x.val i

/-- The exact product of two operand elements (R204, R240, R247): FP32 in three passes. -/
def product (a b : Line) (i k : Nat) : Val :=
  if a.format == 0 then threePass (a.at i) (b.at k) else (a.value i).mul (b.value k)

/-- One step of a cell (R204, R237): the exact step sum added to the accumulator with one rounding, or with i32 saturation;
the number of steps that saturated rises with it. A step without a product (absent keys) leaves the accumulator. -/
def cellStep (int : Bool) (acc : Nat × Nat) (products : List Val) : Nat × Nat :=
  let sum := Val.sum products
  if products.isEmpty then acc
  else if int then
    let t := signed 32 acc.1 + sum.at 0
    let r := satI32 t
    ((BitVec.ofInt 32 r).toNat, if r == t then acc.2 else acc.2 + 1)
  else (toF32 ((ofF32 acc.1).add sum), acc.2)

/-- Cut a list into steps of `n`. -/
def steps {α : Type} (n : Nat) (l : List α) : List (List α) := go l.length l
where
  /-- `fuel` bounds the number of steps. -/
  go : Nat → List α → List (List α)
    | 0, _ => []
    | fuel + 1, l => if l.isEmpty then [] else l.take (max n 1) :: go fuel (l.drop (max n 1))

/-- A B operand column: its elements and the K index of each (R249), absent for a key that is not there (R214). -/
structure Column where
  line : Line
  pos : List (Option Nat)
deriving DecidableEq, Repr

/-- The products of a cell, step by step, in ascending k (R203). -/
def cellProducts (chunk : Nat) (a : Line) (b : Column) : List (List Val) :=
  (steps chunk b.pos.zipIdx).map fun st => st.filterMap fun p => p.1.map fun i => product a b.line i p.2

/-- A cell over its whole reduction. -/
def cell (int : Bool) (chunk acc : Nat) (a : Line) (b : Column) : Nat × Nat :=
  (cellProducts chunk a b).foldl (cellStep int) (acc, 0)

/-- The ranges read for line `l` of a reduction of `n` from `i` on. -/
def kRanges (asRow : Bool) (d : Desc) (l i n : Nat) : List (Nat × Nat) :=
  if asRow != d.kdim then d.spans l i n else (List.range n).flatMap fun e => d.spans (i + e) l 1

/-- The ranges read for a column of B. -/
def bRanges (f : MacFields) (d : Desc) (n : Nat) : List (Nat × Nat) :=
  if d.sparse && f.transB then
    ((List.range f.k).flatMap fun c =>
      let col := f.kStart + c
      ((d.metaAddr (n / 4) + col / 2) % 2 ^ 48, 1) :: [2 * (n / 4), 2 * (n / 4) + 1].flatMap fun r =>
        d.spans (d.place r col).1 (d.place r col).2 1) ++
      (List.range (f.k / 4)).map fun h => ((d.transAddr n + (f.kStart / 4 + h) / 2) % 2 ^ 48, 1)
  else if d.sparse then
    kRanges false d n (f.kStart / 2) (f.k / 2) ++
      (List.range (f.k / 4)).map fun g => ((d.metaAddr (f.kStart / 4 + g) + n / 2) % 2 ^ 48, 1)
  else kRanges f.transB d n f.kStart f.k

/-- Column `n` of B (R208, R249 to R251): dense, 2:4, or transposed. -/
def bColumn (f : MacFields) (d : Desc) (n : Nat) (m : Mem) : Column :=
  if d.sparse && f.transB then let (l, p) := transRow d n f.kStart f.k m; ⟨l, p.map some⟩
  else if d.sparse then let (l, p) := sparseCol d n f.kStart f.k m; ⟨l, p.map some⟩
  else ⟨rdK f.transB d n f.kStart f.k m, (List.range f.k).map some⟩

/-- Kept elements of one step: p of Table 6.3; a 2:4 step takes whole groups (R249, R250). -/
def stepSize (format : Nat) (sparse : Bool) : Nat :=
  let p := packing ((fmtGroup format).getD 0)
  if sparse then max 2 p else p

/-- Array cycles of an operation (R207, Table 6.3): K over p, three passes for FP32, half for 2:4. -/
def opCycles (format : Nat) (sparse : Bool) (k : Nat) : Nat :=
  let c := if format == 0 then 3 * k else k / packing ((fmtGroup format).getD 0)
  if sparse then c / 2 else c

/-- The operands of an array operation: its A rows with their row indices (none for a masked row), its columns, the rows' and
columns' format, the elements a step takes. -/
structure Operands where
  rows : List (Option (Nat × Line))
  cols : List Column
  format : Nat
  sparse : Bool
deriving DecidableEq, Repr

/-- Rows of a row batch, masked to 16 (R211). -/
def batchRows (k0 : Nat) (b : List BRow) : List (Option (Nat × Line)) :=
  (List.range 16).map fun i => match b[i]? with
    | some r => r.a.map fun l => (r.row, { l with elems := l.elems.drop k0, scales := l.scales.drop (k0 / 32) })
    | none => none

/-- The operation's next batch of a stream: closed, or empty once all that the end mark counts has been issued; a counted key that has not
arrived holds its batch (R214). -/
def nextBatch (st : Option Stream) : Option (List BRow) := match st with
  | some s => match s.closed, s.ended with
    | b :: _, _ => some b
    | [], some n => if !s.keyed || n ≤ 16 * s.nextBatch then some [] else none
    | [], none => none
  | none => none

/-- The streams an operation takes (R209, R274). -/
def MacFields.streams (f : MacFields) : List Nat := if f.shared then [0, 1, 2, 3] else [f.stream]

/-- Take the first batch of the streams an operation uses. -/
def takeBatches (f : MacFields) (sts : List (Option Stream)) : List (Option Stream) :=
  f.streams.foldl (fun l i => upd l i (Option.map fun s => { s with closed := s.closed.drop 1 })) sts

/-- The element of a key row as one operand of a key batch (R275): row or column `i` over the keys, in the rows' own format; of an MX row
each element with the scale of its block. -/
def keyLine (b : List BRow) (second : Bool) (i : Nat) : Line :=
  let ls := b.map fun r => if second then r.b else r.a
  let fmt := match ls.findSome? id with
    | some l => l.format
    | none => 1
  { format := fmt, block := 1,
    scales := if isMx fmt then ls.map fun o => match o with
        | some l => l.scale i
        | none => 127
      else [],
    elems := ls.map fun o => match o with
      | some l => l.at i
      | none => 0 }

/-- The operands when they are all there; `none` while a batch is not closed. -/
def macOperands (f : MacFields) (x : JobTile) (m : Mem) : Option Operands :=
  let da := x.desc f.descA
  let db := x.desc f.descB
  let cols := (List.range f.ncols).map fun i => bColumn f db (f.bCol * f.ncols + i) m
  match f.batch with
  | 0 => some { rows := (List.range f.nrows).map fun i =>
                  let r := f.aRow * f.nrows + i
                  some (r, rdK true da r f.kStart f.k m),
                cols, format := da.format, sparse := db.sparse }
  | 1 =>
    match f.streams.mapM fun i => nextBatch (x.streams.getD i none) with
    | some bs => some { rows := bs.flatMap (batchRows f.kStart), cols, format := db.format, sparse := db.sparse }
    | none => none
  | _ =>
    match f.streams.mapM fun i => nextBatch (x.streams.getD i none) with
    | some bs =>
      let pos := (List.range 16).map fun i => if bs.all fun b => match b[i]? with
          | some r => r.a.isSome
          | none => false then some i else none
      let ka := fun i => keyLine (bs.getD (i / 16) (bs.headD [])) false (f.aRow * f.nrows + i)
      some { rows := (List.range f.nrows).map fun i => some (f.aRow * f.nrows + i, ka i),
             cols := (List.range f.ncols).map fun i => ⟨keyLine (bs.headD []) true (f.bCol * f.ncols + i), pos⟩,
             format := (ka 0).format, sparse := false }
    | none => none

/-- The ranges that an operation reads from memory. -/
def macRanges (f : MacFields) (x : JobTile) : List (Nat × Nat) :=
  let a := if f.batch == 0 then
      (List.range f.nrows).flatMap fun i => kRanges true (x.desc f.descA) (f.aRow * f.nrows + i) f.kStart f.k
    else []
  let b := if f.batch == 2 then []
    else (List.range f.ncols).flatMap fun i => bRanges f (x.desc f.descB) (f.bCol * f.ncols + i)
  a ++ b

/-- Compute the accumulator set (R203, R204, R237) from the accumulators kept when CONTINUE is set (R206): the set and the steps
that saturated. -/
def compute (f : MacFields) (o : Operands) (kept : Option AccSet) : AccSet × Nat :=
  let int := o.format == 0xA
  let old := fun i => match f.cont, kept with
    | true, some a => a.vals.getD i 0
    | _, _ => 0
  let chunk := stepSize o.format o.sparse
  let cells := (o.rows.zipIdx.map fun r => o.cols.zipIdx.map fun c =>
    let i := r.2 * f.ncols + c.2
    match r.1 with
    | some (_, l) => cell int chunk (old i) l c.1
    | none => (old i, 0)).flatten
  ({ nrows := f.nrows, ncols := f.ncols, int, vals := cells.map Prod.fst, rowIdx := o.rows.map (Option.map Prod.fst) },
   (cells.map Prod.snd).sum)

/-! The datapath arbiter (R196 to R198, R201) and the start of an operation. -/

/-- The arbiter of E grade (R197): at a grant the lowest credit of the cluster is taken from every tile's, and the tile that starts an
operation gains its length. -/
def grantCredit (t len : Nat) (s : State) : State :=
  if Config.gradeF then s
  else
    let ts := (List.range 16).map fun i => t / 16 * 16 + i
    let low := ts.foldl (fun m u => min m (lookup0 u s.dp.credits)) (lookup0 t s.dp.credits)
    let cs := ts.foldl (fun l u => assign0 u (lookup0 u l - low) l) s.dp.credits
    { s with dp := { s.dp with credits := assign0 t (satAdd 0xFFFFFFFF (lookup0 t cs) len) cs } }

/-- An operation of a tile that can start: the fields of its MAC. Its tile runs none (R207), its operands are there, the bridge takes its
reads (R292), no bank or lane that they reach is under test (R530); a HELD tile starts none (R534). -/
def readyOp (t : Nat) (c : Ctx) (s : State) : Option MacFields :=
  if tileBusy t s then none
  else match runOn t c s with
  | none => none
  | some (j, x) =>
    match x.arrays.find? fun e => e.acc == none && !e.ended && x.state != 7 with
    | none => none
    | some e =>
      let f := macFields e.word
      if (f.batch == 0 || f.streams.all fun i => (nextBatch (x.streams.getD i none)).isSome) &&
          crossRoom t (accessClass j.part t (macRanges f x) s) s && !testHolds (macRanges f x) s then some f else none

/-- The context of a tile that has an operation ready, and whether it is a shared-weight operation: the normal context first (R308). -/
def readyTile (t : Nat) (s : State) : Option (Ctx × Bool) :=
  match readyOp t .normal s, readyOp t .filler s with
  | some f, _ => some (.normal, f.shared)
  | none, some f => some (.filler, f.shared)
  | none, none => none

/-- A datapath that is in service and free. -/
def freeDatapath (pos : Nat) (s : State) : Option Nat :=
  (datapathAt pos s).bind fun c => if (opOn c s).isSome then none else some c

/-- Rows that the stores of an operation's streams lack (R211): padded streams of a row batch. -/
def paddedStreams (f : MacFields) (x : JobTile) : Nat :=
  if f.batch != 1 then 0
  else f.streams.countP fun i => match nextBatch (x.streams.getD i none) with
    | some b => b.length < 16
    | none => false

/-- A CONTINUE operation reloads its accumulators on E grade when another datapath holds them, or another tile's operation has come
between (R206). -/
def reloads (f : MacFields) (t core : Nat) (s : State) : Bool :=
  !Config.gradeF && f.cont && !(lookup0 core s.dp.last == t + 1 && lookup0 t s.dp.prev == core + 1)

/-- Start the oldest operation of a tile on the datapath of a core that works for a position (R203 to R211). -/
def startOp (t : Nat) (c : Ctx) (pos core : Nat) (s : State) : State :=
  match runOn t c s with
  | none => s
  | some (j, x) =>
    match x.arrays.zipIdx.find? fun p => p.1.acc == none && !p.1.ended with
    | none => s
    | some (e, i) =>
      let f := macFields e.word
      match checkReads j t (macRanges f x) s with
      | some st => stopAt j t st s
      | none =>
        match macOperands f x s.mem with
        | none => s
        | some o =>
          let kept := if i == 0 then x.acc else (x.arrays[i - 1]?).bind Entry.acc
          let (set, sats) := compute f o kept
          let masked := (o.rows.filter Option.isNone).length
          let emu := f.shared && emulatesOn pos core
          let cyc := opCycles o.format o.sparse f.kLen
          let cross := accessClass j.part t (macRanges f x) s
          let reload := if reloads f t core s then 16 else 0
          let s := grantCredit t (if emu then 4 * cyc else cyc)
            (startArrays core (if emu then 1 else 4) (countSpill j t false (macRanges f x) s))
          let s := { s with dp := { s.dp with last := assign0 core (t + 1) s.dp.last, prev := assign0 t (core + 1) s.dp.prev } }
          onTile j t (fun y => { y with
            arrays := upd y.arrays i fun e => { e with acc := some set, core := core, cycles := if emu then 4 * cyc else cyc, cross := cross }
            streams := if f.batch == 0 then y.streams else takeBatches f y.streams
            num := y.num.saturated sats
            act := { y.act with
              cycles := (y.act.cycles + (if emu then 4 * cyc else cyc)) % 2 ^ 64
              padRows := y.act.padRows + masked * cyc
              rotation := y.act.rotation + reload
              padded := count32 y.act.padded (paddedStreams f x)
              emulated := if emu then count32 y.act.emulated 1 else y.act.emulated } }) s

/-- A tile's ready operation starts on the datapath of a position, if that is free. -/
def startOn (t pos : Nat) (s : State) : State :=
  match readyTile t s, freeDatapath pos s with
  | some (c, _), some core => startOp t c pos core s
  | _, _ => s

/-- The tile with the lowest datapath credit, the lower slot on a tie (R197). -/
def lowestCredit (ts : List Nat) (s : State) : Option Nat :=
  ts.foldl (fun o t => match o with
    | some u => if lookup0 t s.dp.credits < lookup0 u s.dp.credits then some t else o
    | none => some t) none

/-- The tile of cluster g that the arbiter grants the datapath of a position (R197, R198): at position 0 or 1 a ready shared-weight
operation wins; elsewhere shared-weight operations run only when neither position is left (R539). -/
def grantTo (g pos : Nat) (s : State) : Option Nat :=
  let tiles := (List.range 16).map fun i => 16 * g + i
  let base := pos - pos % 528 % 16
  let shared := tiles.filter fun t => (readyTile t s).map Prod.snd == some true
  let others := tiles.filter fun t => (readyTile t s).map Prod.snd == some false
  let lost := (datapathAt base s).isNone && (datapathAt (base + 1) s).isNone
  if pos % 528 % 16 < 2 then (if shared.isEmpty then lowestCredit others s else lowestCredit shared s)
  else lowestCredit (if lost then tiles.filter fun t => shared.contains t || others.contains t else others) s

/-- The arbiter of E grade grants free datapaths, lowest position first, while a tile is ready (R197): `n` bounds the grants. -/
def arbitrate (g : Nat) : Nat → State → State
  | 0, s => s
  | n + 1, s =>
    match (datapathPositions false g).findSome? fun pos =>
        (freeDatapath pos s).bind fun core => (grantTo g pos s).map fun t => (t, pos, core) with
    | some (t, pos, core) => match readyTile t s with
      | some (c, _) => arbitrate g n (startOp t c pos core s)
      | none => s
    | none => s

/-- Operations of a tile that have become ready start (R196, R197): on F grade on its own datapath, on E grade as the arbiter grants. -/
def startWith (gradeF : Bool) (t : Nat) (s : State) : State :=
  if gradeF then startOn t (positionOf t) s else arbitrate (clusterOf t) 16 s

/-- Start what can start in a tile's cluster. -/
def startOps (t : Nat) (s : State) : State := startWith Config.gradeF t s

/-- MAC (R274): issues, and its operation starts when its operands are there and it has a datapath. -/
def mac (t : Nat) (c : Ctx) (waits : List (Nat × Nat)) (s : State) : State :=
  whenIssued t c 1 0 s fun j x w => startOps t (issueTo .arrays 0 waits j x w s)

/-- MAC. -/
def execMac (tile : Nat) (ctx : Ctx) (waits : List (Nat × Nat)) (s : State) : Host.Outcome State Fault Refusal :=
  .next (mac tile ctx waits s)

/-- The arrays that an operation uses run: none is held by the stagger. -/
def arraysRun (e : Entry) (s : State) : Bool :=
  (List.range (usedArrays (macFields e.word) e (positionServed e.core s))).all fun i => arrayState e.core i s == 1

/-- The epilogue of an operation that has ended; a bound fault stops the run. -/
def epilogue (j : Job) (x : JobTile) (e : Entry) (a : AccSet) (s : State) : State :=
  match x.epi (macFields e.word).epi with
  | some ep =>
    if (macFields e.word).epi == 0xFF then s
    else match epilogueOf j x e.word e.x a ep s with
      | .ok s => s
      | .error st => stopAt j x.tile st s
  | none => s

/-- The array at position `p` of a cluster with share L may start a step in frame cycle `i` (R554). -/
def stepAllowed (l p i : Nat) : Bool := ((i + 4 * p) % 64 + 1) * l / 64 != (i + 4 * p) % 64 * l / 64

/-- The cycles in which the issue-rate limiter holds an operation of `n` steps whose first could start in frame cycle `i` (R554, R555). -/
def heldCycles (l p : Nat) : Nat → Nat → Nat → Nat
  | 0, _, _ => 0
  | _, _, 0 => 0
  | fuel + 1, i, n + 1 => if stepAllowed l p (i % 64) then heldCycles l p fuel (i + 1) n else 1 + heldCycles l p fuel (i + 1) (n + 1)

/-- The limiter's cycles of an operation that ends (R555): those of the pattern of R554 at the share in force, from a frame cycle that
the model is not told, a free value, and those of droop holds (R561) and of waits that the pattern meets. -/
def limiterCycles (e : Entry) (others frame : Nat) (s : State) : Nat :=
  others + heldCycles (s.power.shares.getD (e.core / 16) 32) (e.core % 16) (64 * (e.cycles + 1)) (frame % 64) e.cycles

/-- What is charged when an operation ends (R227, R228). An operation shorter than 16 cycles costs the rest of a drain; on F grade no tile
waits for a datapath (R201). -/
def chargeOp (cyc spun rotation operand drain bank limiter : Nat) (r : ActRec) : ActRec :=
  { r with
    spinner := r.spinner + spun, rotation := r.rotation + (if Config.gradeF then 0 else rotation), operand := r.operand + operand
    drain := count32 r.drain (drain + (16 - cyc)), bank := count32 r.bank bank, limiter := count32 r.limiter limiter }

/-- An array operation ends (R207): its accumulators pass to the epilogue (R275), which runs; what is ready starts on the other set; the
cycles the operation lost are charged (R227, R228). It can end only once the previous set is drained. -/
def operationEnd (t : Nat) (c : Ctx) (spun rotation operand drain bank limiter : Nat) (s : State) : State :=
  match runOn t c s with
  | none => s
  | some (j, x) =>
    match x.arrays with
    | [] => s
    | e :: _ =>
      match e.acc with
      | none => s
      | some a =>
        if e.ended || x.state == 7 || !arraysRun e s then s
        else
          let (frame, s) := freeWord s
          let held := limiterCycles e limiter frame.toNat s
          let s := onTile j t (fun y => { y with
            acc := some a, arrays := upd y.arrays 0 fun e => { e with ended := true }
            act := chargeOp e.cycles spun rotation operand drain bank held y.act }) s
          let s := match runOn t c s with
            | some (j, x) => epilogue j x e a s
            | none => s
          let s := startOps t s
          if (opOn e.core s).isSome then s else endArrays e (x.state == 4) s

/-- ARRAY_OPERATION_END. -/
def execArrayOperationEnd (tile : Nat) (ctx : Ctx) (spun rotation operand drain bank limiter : Nat) (s : State) :
    Host.Outcome State Fault Refusal := .next (operationEnd tile ctx spun rotation operand drain bank limiter s)

/-- The run and tile that a datapath last worked for, the normal context first. -/
def tileOn (core : Nat) (s : State) : Option (Job × JobTile) :=
  match lookup0 core s.dp.last with
  | 0 => none
  | t + 1 => (runOn t .normal s).orElse fun _ => runOn t .filler s

/-- SPINNER_WINDOW cycles have passed since the last real operation (R216): the array stops; its spinner operations are counted for the
tile that the datapath last worked for. -/
def spinnerExpiry (core i : Nat) (s : State) : State :=
  if i < 4 && arrayState core i s == 2 then
    let window := (powerCfg s).spinnerWindow
    let s := { s with dp := { s.dp with arrays := assign0 (4 * core + i) 0 s.dp.arrays } }
    match tileOn core s with
    | some (j, x) => onTile j x.tile (fun y => { y with act := { y.act with spinner := y.act.spinner + window } }) s
    | none => s
  else s

/-- SPINNER_WINDOW_EXPIRY. -/
def execSpinnerWindowExpiry (core array : Nat) (s : State) : Host.Outcome State Fault Refusal :=
  .next (spinnerExpiry core array s)

/-- The stagger window of a cluster, 33 x die + cluster, has passed (R218): the next held start, in ascending position and array, is
granted; the cycles it was held are a stagger stall. -/
def staggerGrant (g cycles : Nat) (s : State) : State :=
  match (List.range 64).find? fun i => lookup0 (64 * g + i) s.dp.arrays == 3 with
  | none => s
  | some i =>
    let s := { s with dp := { s.dp with arrays := assign0 (64 * g + i) 1 s.dp.arrays } }
    match tileOn (16 * g + i / 4) s with
    | some (j, x) => onTile j x.tile (fun y => { y with act := { y.act with stagger := count32 y.act.stagger cycles } }) s
    | none => s

/-- ARRAY_START_STAGGER. -/
def execArrayStartStagger (cluster cycles : Nat) (s : State) : Host.Outcome State Fault Refusal :=
  .next (staggerGrant cluster cycles s)

end Sys2Proof.Machine
end

