-- ==== Sys2Proof/Machine/Fetch.lean ====
section
/-! DEFINITION. Machine/Fetch.lean: the fetcher and the fill batcher (06 R211 to R215, R223; 08 R276, R277): local COPY, MCAST,
GATHER, batches. -/
namespace Sys2Proof.Machine

/-- The elements of lines that a COPY moves (Table 8.10): first element and count of each line; COLS 0 = the rest of the line. -/
def copyCols (d : Desc) (col0 cols : Nat) : Nat := if cols == 0 then d.lineLen - col0 else cols

/-- Copy elements of one line, with the scale bytes of the MX blocks they lie in. DEDUCED: the scales move with their blocks, and
COL0 applies to both lines. -/
def copyLine (src dst : Desc) (l k col0 n : Nat) (m : Mem) : Mem :=
  let m' := (List.range n).foldl (fun m i => wrElem dst.format dst k (col0 + i) (rdElem src l (col0 + i) m) m) m
  if isMx src.format && n != 0 then
    (List.range ((col0 + n - 1) / 32 - col0 / 32 + 1)).foldl (fun m b =>
      wrByte (dst.scaleAddr k (col0 / 32 + b)) (rdByte (src.scaleAddr l (col0 / 32 + b)) m) m) m'
  else m'

/-- The ranges of `rows` lines from `l` on. -/
def copyRanges (d : Desc) (l rows col0 n : Nat) : List (Nat × Nat) := (List.range rows).flatMap fun i => d.spans (l + i) col0 n

/-- A local COPY (R276). -/
def copyLocal (t : Nat) (waits : List (Nat × Nat)) (j : Job) (x : JobTile) (w : W128) (s : State) : State :=
  let src := x.desc (ifld w 103 96)
  let dst := x.desc (ifld w 95 88)
  let l := (ifld w 87 68 + x.xval w) % 2 ^ 20
  let k := ifld w 67 48
  let rows := ifld w 47 32
  let col0 := ifld w 31 16
  let n := copyCols src col0 (ifld w 15 0)
  let rs := copyRanges src l rows col0 n
  let ws := copyRanges dst k rows col0 n
  match (checkReads j t rs s).orElse fun _ => checkWrites j.part t ws s with
  | some st => stopAt j t st s
  | none =>
    if !mayRead j x (rs ++ ws) s then s else
    let s := issueTo .fetcher 0 waits j x w (prepareWrites j t ws (countSpill j t false rs s)) (accessClass j.part t (rs ++ ws) s)
    finishWrites j.part ws s.mem { s with mem := (List.range rows).foldl (fun m i => copyLine src dst (l + i) (k + i) col0 n m) s.mem }

/-- The cluster store that bit `c` of CLUSTERS names on a die (R223): the spare cluster is bit 32. -/
def mcastWindow (die c : Nat) : Nat := if c == 32 then 0x010040000000 + 0x1000000 * die else clusterWindow (32 * die + c)

/-- MCAST (R223, R276): whole lines from SRC_ROW on, to line 0 on of DST, at its offset in each named cluster store. A cluster the
partition does not hold, or an address past the store, is out of reach. -/
def mcast (t : Nat) (c : Ctx) (waits : List (Nat × Nat)) (s : State) : State :=
  whenIssued t c 0 1 s fun j x w =>
    let die := t / 512
    let src := x.desc (ifld w 103 96)
    let dst := x.desc (ifld w 95 88)
    let l := (ifld w 87 68 + x.xval w) % 2 ^ 20
    let rows := ifld w 67 52
    let n := src.lineLen
    let rs := copyRanges src l rows 0 n
    let cs := setBits (ifld w 32 0) 33
    let held := fun c => match partCfg j.part s with
      | some p => (if die == 0 then p.clusters0 else p.clusters1).testBit c
      | none => false
    let at' := fun c => { dst with base := mcastWindow die c + dst.base % 2 ^ 24 }
    let ws := cs.flatMap fun c => copyRanges (at' c) 0 rows 0 n
    let bad := cs.findSome? fun c =>
      if !held c then some (mcastWindow die c)
      else (copyRanges (at' c) 0 rows 0 n).findSome? fun r =>
        if inside r.1 r.2 (mcastWindow die c, 2 ^ 24) then none else some r.1
    match checkReads j t rs s, bad with
    | some st, _ => stopAt j t st s
    | none, some a => stopAt j t ⟨0x000B, a⟩ s
    | none, none =>
      if !mayRead j x (rs ++ ws) s then s else
      let s := issueTo .fetcher 0 waits j x w (prepareWrites j t ws (countSpill j t false rs s)) (accessClass j.part t (rs ++ ws) s)
      finishWrites j.part ws s.mem { s with mem := cs.foldl (fun m c =>
        (List.range rows).foldl (fun m i => copyLine src (at' c) (l + i) i 0 n m) m) s.mem }

/-- Rows that a batcher holds (R215). -/
def batchedRows (x : JobTile) : Nat :=
  (x.streams.map fun st => match st with
    | some s => s.rows.length + (s.closed.map List.length).sum
    | none => 0).sum

/-- A row batch closes when 16 rows are present (R211). -/
def Stream.closeFull (st : Stream) : Stream :=
  if 16 ≤ st.rows.length then { st with closed := st.closed ++ [st.rows.take 16], rows := st.rows.drop 16 } else st

/-- The keys that batch `j` holds (R214): up to the end mark's count. -/
def Stream.keysOf (st : Stream) : List Nat :=
  ((List.range 16).map (16 * st.nextBatch + ·)).filter fun k => match st.ended with
    | some n => k < n
    | none => true

/-- Key batch j closes when all its keys are present (R214), a dropped key counted (R277). -/
def Stream.closeKeys : Nat → Stream → Stream
  | 0, st => st
  | fuel + 1, st =>
    let ks := st.keysOf
    if !ks.isEmpty && ks.all fun k => st.rows.any fun r => r.key == k then
      closeKeys fuel { st with
        closed := st.closed ++ [ks.filterMap fun k => st.rows.find? fun r => r.key == k],
        rows := st.rows.filter fun r => !ks.contains r.key, nextBatch := st.nextBatch + 1 }
    else st

/-- A row arrives in a stream (R211, R214). -/
def Stream.arrive (r : BRow) (st : Stream) : Stream :=
  let st := { st with rows := st.rows ++ [r] }
  if st.keyed then st.closeKeys 5 else st.closeFull

/-- The end mark (R211, R214). -/
def Stream.mark (count : Nat) (st : Stream) : Stream :=
  if st.keyed then ({ st with ended := some count }).closeKeys 5
  else { st with ended := some 0, closed := if st.rows.isEmpty then st.closed else st.closed ++ [st.rows], rows := [] }

/-- Change a stream that is open. DESIGN CHOICE (log 209): a row fed to a stream that no BATCH_OPEN has opened goes nowhere. -/
def JobTile.onStream (x : JobTile) (i : Nat) (f : Stream → Stream) : JobTile := { x with streams := upd x.streams i (Option.map f) }

/-- A stream as BATCH_OPEN opens it (R211 to R214). Batches of the stream that no operation has taken yet stay ahead of its own; DESIGN CHOICE
(log 210): rows of an earlier batch that its producer never marked ended close as one. -/
def openStream (w : W128) (old : Option Stream) : Stream :=
  let closed := match old with
    | some q => q.closed ++ if q.rows.isEmpty then [] else [q.rows]
    | none => []
  { keyed := bit w.toNat 85, deadline := ifld w 103 88, rows := [], closed := closed, nextBatch := 0, ended := none }

/-- A stream has an open batch: rows may still come to it. -/
def Stream.isOpen (q : Stream) : Bool := q.ended.isNone || !q.rows.isEmpty

/-- The fill batcher may open a batch (R215): one per activation stream on a tile of shared-weight mode, else one in all. DEDUCED: the
tile's SHARED_WEIGHT bit says the mode. -/
def JobTile.mayOpen (x : JobTile) (k : Nat) : Bool :=
  x.shared || x.streams.zipIdx.all fun p => p.2 == k || match p.1 with
    | some q => !q.isOpen
    | none => true

/-- BATCH_OPEN and BATCH_END take effect in the fetcher's order, after the rows of an earlier GATHER (R286): apply those at the
front of what still waits. A BATCH_OPEN that finds the batcher full holds the fetcher (R215). -/
def applyMarks : Nat → JobTile → JobTile
  | 0, x => x
  | fuel + 1, x =>
    match x.fetcher.zipIdx.find? fun p => p.1.left != 0 with
    | some (e, i) =>
      let x' := { x with fetcher := upd x.fetcher i fun e => { e with left := 0 } }
      let k := ifld e.word 87 86
      if iclass e.word == 0 && iop e.word == 3 then
        if x.mayOpen k then
          applyMarks fuel { x' with streams := setAt x'.streams k (some (openStream e.word (x'.streams.getD k none))) }
        else x
      else if iclass e.word == 0 && iop e.word == 4 then
        applyMarks fuel (x'.onStream k (Stream.mark (ifld e.word 83 52)))
      else x
    | none => x

/-- BATCH_OPEN (R211 to R215): the stream opens in its mode. -/
def batchOpen (t : Nat) (c : Ctx) (waits : List (Nat × Nat)) (s : State) : State :=
  whenIssued t c 0 3 s fun j x w => onTile j t (applyMarks 9) (issueTo .fetcher 1 waits j x w s)

/-- BATCH_END (R211, R214): the stream is marked ended; what closes may start. -/
def batchEnd (t : Nat) (c : Ctx) (waits : List (Nat × Nat)) (s : State) : State :=
  whenIssued t c 0 4 s fun j x w => startOps t (onTile j t (applyMarks 9) (issueTo .fetcher 1 waits j x w s))

/-- GATHER (R276, R277): its rows arrive one by one at the batcher (BATCH_ROW_ARRIVAL). -/
def gather (t : Nat) (c : Ctx) (waits : List (Nat × Nat)) (s : State) : State :=
  whenIssued t c 0 2 s fun j x w => issueTo .fetcher (ifld w 59 44) waits j x w s

/-- Entry `n` of an index tensor: its lines follow one another. -/
def flatPlace (d : Desc) (n : Nat) : Nat × Nat := if d.lineLen == 0 then (0, n) else (n / d.lineLen, n % d.lineLen)

/-- The next row of a GATHER arrives (R211, R277): an index not below ROWS names no row and is dropped and counted; in key
batching its key is kept. -/
def gatherRow (t : Nat) (j : Job) (x : JobTile) (e : Entry) (i : Nat) (s : State) : State :=
  let w := e.word
  let src := x.desc (ifld w 103 96)
  let idx := x.desc (ifld w 95 88)
  let n := ifld w 59 44 - e.left
  let (l, p) := flatPlace idx ((ifld w 79 60 + e.x) % 2 ^ 20 + n)
  let ir := idx.span l p 1
  let st := ifld w 43 42
  let key := (ifld w 31 0 + n) % 2 ^ 32
  let keyed := match x.streams.getD st none with
    | some q => q.keyed
    | none => false
  match checkReads j t [ir] s with
  | some sp => stopAt j t sp s
  | none =>
    let r := rdElem idx l p s.mem
    let done := fun (y : JobTile) => { y with fetcher := upd y.fetcher i fun e => { e with left := e.left - 1 } }
    let add := fun (b : BRow) (y : JobTile) => applyMarks 9 (done (y.onStream st (Stream.arrive b)))
    if src.rows ≤ r then
      onTile j t (fun y =>
        let y := { y with extra := { y.extra with dropped := count32 y.extra.dropped 1 } }
        if keyed then add ⟨key, r, none, none⟩ y else applyMarks 9 (done y)) s
    else
      let src2 := x.desc (ifld w 87 80)
      let two := ifld w 87 80 != 0xFF
      let rs := src.spans r 0 src.lineLen ++ (if two then src2.spans r 0 src2.lineLen else [])
      match checkReads j t rs s with
      | some sp => stopAt j t sp s
      | none =>
        let b : BRow := { key, row := r, a := some (rdLine src r 0 src.lineLen s.mem),
                          b := if two then some (rdLine src2 r 0 src2.lineLen s.mem) else none }
        onTile j t (add b) (countSpill j t false (ir :: rs) s)

/-- The fill deadline of a stream expires (R211, R212): an open row batch with rows issues as a padded tile. -/
def fillDeadline (t : Nat) (c : Ctx) (i : Nat) (s : State) : State :=
  match runOn t c s with
  | none => s
  | some (j, x) =>
    match x.streams.getD i none with
    | some st =>
      if st.keyed || st.rows.isEmpty then s
      else startOps t (onTile j t (fun y => y.onStream i fun q => { q with closed := q.closed ++ [q.rows], rows := [] }) s)
    | none => s

/-- MCAST. -/
def execMcast (tile : Nat) (ctx : Ctx) (waits : List (Nat × Nat)) (s : State) : Host.Outcome State Fault Refusal :=
  .next (mcast tile ctx waits s)
/-- GATHER. -/
def execGather (tile : Nat) (ctx : Ctx) (waits : List (Nat × Nat)) (s : State) : Host.Outcome State Fault Refusal :=
  .next (gather tile ctx waits s)
/-- BATCH_OPEN. -/
def execBatchOpen (tile : Nat) (ctx : Ctx) (waits : List (Nat × Nat)) (s : State) : Host.Outcome State Fault Refusal :=
  .next (batchOpen tile ctx waits s)
/-- BATCH_END. -/
def execBatchEnd (tile : Nat) (ctx : Ctx) (waits : List (Nat × Nat)) (s : State) : Host.Outcome State Fault Refusal :=
  .next (batchEnd tile ctx waits s)
/-- FILL_DEADLINE_EXPIRY. -/
def execFillDeadlineExpiry (tile : Nat) (ctx : Ctx) (stream : Nat) (s : State) : Host.Outcome State Fault Refusal :=
  .next (fillDeadline tile ctx stream s)

end Sys2Proof.Machine
end

