-- ==== Sys2Proof/Machine/Remote.lean ====
section
/-! DEFINITION. Machine/Remote.lean: memory semantics over the fabric (12 R437 to R454): COPY and ATOMIC with SPACE 1, the target's
checks, answers, tile channels between modules, dead targets. -/
namespace Sys2Proof.Machine

/-! Atomics (R441). -/

/-- Apply an atomic to `count` consecutive elements from `a` on, ascending (R441): the new memory and the old values. Operands are
(value, compare value). -/
def atomicApply (aop ty a : Nat) (ops : List (Nat × Nat)) (m : Mem) : Mem × List Nat :=
  let n := atypeBytes ty
  ops.zipIdx.foldl (fun acc p =>
    let b := a + n * p.2
    let old := rdNat b n acc.1
    (wrNat b n (atomicValue aop ty old p.1.1 p.1.2) acc.1, acc.2 ++ [old])) (m, [])

/-- Operands of a packet as (value, compare value); compare-and-swap carries the compare value first (R440). -/
def packetOperands (aop ty count : Nat) (data : List Byte) : List (Nat × Nat) :=
  let n := atypeBytes ty
  let w := fun i => leNat ((data.drop (n * i)).take n)
  (List.range count).map fun i => if aop == 3 then (w (2 * i + 1), w (2 * i)) else (w i, 0)

/-- Operands as packet data. -/
def operandBytes (aop ty : Nat) (ops : List (Nat × Nat)) : List Byte :=
  let n := atypeBytes ty
  ops.flatMap fun p => if aop == 3 then leBytes n p.2 ++ leBytes n p.1 else leBytes n p.1

/-! The target (R440, R448, R449). -/

/-- A region of a partition that holds a range. -/
def regionAt (n a len : Nat) (s : State) : Option RegionCfg := match s.boot.shadow with
  | some b => b.regions.find? fun r => r.partition == n && inside a len (r.base, r.size * 2 ^ 21)
  | none => none

/-- AOP, ATYPE and RET of an atomic opcode (Table 12.8). -/
def atomicCode (op : Nat) : Nat × Nat × Nat := ((op - 0x40) / 8, (op - 0x40) / 2 % 4, op % 2)

/-- Bytes that a request covers: `count` elements for an atomic. -/
def requestBytes (p : Packet) (count : Nat) : Nat :=
  if inRange p.opcode 0x40 0x67 then count * atypeBytes (atomicCode p.opcode).2.1 else 16 * p.len

/-- The limits of R440. -/
def malformed (p : Packet) (count : Nat) : Bool :=
  let len := requestBytes p count
  let cross := p.addr / 4096 != (p.addr + len - 1) / 4096
  if inRange p.opcode 0x40 0x67 then
    let (aop, ty, _) := atomicCode p.opcode
    let opb := len * (if aop == 3 then 2 else 1)
    count == 0 || 512 < opb || 16 * p.len < opb || 4 < aop || p.addr % atypeBytes ty != 0 || cross
  else !(inRange p.len 1 32) || p.addr % 16 != 0 || cross

/-- The first status of Table 12.10 that applies to a request at partition `n`. -/
def requestStatus (n : Nat) (p : Packet) (count : Nat) (s : State) : Nat :=
  let len := requestBytes p count
  let isAtomic := inRange p.opcode 0x40 0x67
  if malformed p count then 0x07
  else if (partOf n s).state == 3 then 0x05
  else match regionAt n p.addr len s with
    | none => 0x01
    | some r =>
      if r.key != p.key then 0x02
      else if !(if isAtomic then r.atomic else if p.opcode == 0x01 then r.read else r.write) then 0x03
      else if (isAtomic || p.opcode == 0x01) && (poisoned p.addr len s).isSome then 0x04
      else 0x00

/-- The target serves a request for partition `n` (R448, R449): the state after it, and the answer. Poisoned lines read as zero. -/
def serveRequest' (n : Nat) (p : Packet) (count : Nat) (s : State) : State × Packet :=
  let own := seatOf s % 64
  let st := requestStatus n p count s
  let s := if inRange st 1 3 then
      raiseP n 0x800B (unitPart n) (pack [(st, 8, 8), (p.src, 0, 6)]) s (BitVec.ofNat 64 p.addr)
    else s
  if p.opcode == 0x01 then
    let data := if st == 0 then rdBytes p.addr (16 * p.len) s.mem
      else if st == 4 then (List.range (16 * p.len)).map fun i => if (poisoned (p.addr + i) 1 s).isSome then 0 else rdByte (p.addr + i) s.mem
      else []
    (s, answerPacket own p st data)
  else if p.opcode == 0x02 then
    (if st == 0 then store p.addr (p.data.take (16 * p.len)) s else s, answerPacket own p st [])
  else
    let (aop, ty, ret) := atomicCode p.opcode
    if st == 0 then
      let (m, old) := atomicApply aop ty p.addr (packetOperands aop ty count p.data) s.mem
      ({ s with mem := m }, answerPacket own p st (if ret == 1 then old.flatMap (leBytes (atypeBytes ty)) else []))
    else (s, answerPacket own p st [])

/-- A protocol error (R439): counted and reported. -/
def protocolError (k : Nat) (p : Packet) (s : State) : State :=
  let s := onLink k (fun l => { l with protocolErrors := l.protocolErrors + 1 }) s
  raiseM (partOfLink k s) 0x8008 (unitLink k) (pack [(p.opcode, 8, 8), (p.vl, 0, 3)]) s

/-- An opcode with a meaning on VL0. -/
def isRequest (op : Nat) : Bool := inRange op 0x01 0x03 || inRange op 0x40 0x67

/-- A packet for another member (R444, R445): forwarded once, or a request is answered NO_ROUTE and anything else dropped. A response takes
the link that carried its request, any other packet the link of R317 for its kind. -/
def forwardPacket (k : Nat) (p : Packet) (s : State) : State :=
  let fwd := p.fwd || (linkCfg k s).role == 1
  let ks := directLinks p.dst (fun _ => true) s
  match fwd || !forwardEnable s, ks with
  | false, l :: r =>
    let out := (l :: r).getD (indexOf p s % (r.length + 1)) l
    let out := match carriedBy p s with
      | some c => if ks.contains c then c else out
      | none => out
    crossbar out p.forwarded (noteForward k p s)
  | _, _ =>
    if isRequest p.opcode then putPacket k (answerPacket (seatOf s % 64) p 0x06 []) s else dropPacket k p s

/-- A request arrives on a link (R439, R444, R448): the answer takes the same link (R317). No region is reached over a link that no partition
holds (R57, R448): refused. -/
def requestArrives (k op : Nat) (p : Packet) (count : Nat) (s : State) : State :=
  let good := p.vl == 0 && (if op == 0x40 then inRange p.opcode 0x40 0x67 else p.opcode == op)
  if p.dst != seatOf s % 64 then forwardPacket k p s
  else if !good then
    let s := protocolError k p s
    if isRequest p.opcode then putPacket k (answerPacket (seatOf s % 64) p 0x07 []) s else s
  else match partOfLink k s with
    | some n =>
      let (s, a) := serveRequest' n p count s
      putPacket k a s
    | none => putPacket k (answerPacket (seatOf s % 64) p (if malformed p count then 0x07 else 0x01) []) s

/-! The requester. -/

/-- The region a run resolved. -/
def regionOf (j : Job) (d : Desc) : Option RegionMap := match j.run with
  | some r => r.regions.find? fun g => g.member == d.member && g.key == d.keyT
  | none => none

/-- Cut a range into pieces of at most `cap` bytes that cross no 4 KiB boundary (R440). -/
def pieces (cap : Nat) : Nat → Nat → Nat → List (Nat × Nat)
  | 0, _, _ => []
  | fuel + 1, a, n =>
    if n == 0 then []
    else
      let m := min n (min cap (4096 - a % 4096))
      (a, m) :: pieces cap fuel (a + m) (n - m)

/-- A request to be sent: opcode, target address, bytes, data, element count, what its answer is for. -/
structure NewReq where
  op : Nat
  addr : Nat
  len : Nat
  data : List Byte
  count : Nat
  use : ReqUse
deriving DecidableEq, Repr

/-- The completion status of a run that an answer's STATUS stops (Table 12.10). -/
def stopStatus (st : Nat) : Nat := if st == 0x04 then 0x000D else if st == 0x05 || st == 0x06 then 0x000A else 0x000B

/-- A request is answered with another status than OK: the run stops (R448); a partition in reset is reported to the fabric manager. -/
def answerStops (part num tile member st addr : Nat) (s : State) : State :=
  match jobOf part num s with
  | none => s
  | some j =>
    let s := if st == 0x05 then reportFm 6 [BitVec.ofNat 64 num, BitVec.ofNat 64 member, j.step] s else s
    if st == 0x04 then stopRun j 0x000D s else stopAt j tile ⟨stopStatus st, addr⟩ s

/-- A fetcher entry has one answer less to wait for (R286). -/
def entryAnswered (part num tile id : Nat) (s : State) : State :=
  onJob part num (fun j => j.onTile tile fun x =>
    { x with fetcher := x.fetcher.map fun e => if e.id == id && e.left != 0 then { e with left := e.left - 1 } else e }) s

/-- Take the effect of an OK answer at the requester (R449, R450). -/
def answered (r : FabReq) (data : List Byte) (s : State) : State :=
  match r.use with
  | .read dest =>
    finishWrites r.part [(dest, r.len)] s.mem (entryAnswered r.part r.job r.tile r.entry { s with mem := wrBytes dest (data.take r.len) s.mem })
  | .write => onJob r.part r.job (fun j => j.onTile r.tile fun x => { x with fence := x.fence - 1 }) s
  | .atomic none => onJob r.part r.job (fun j => j.onTile r.tile fun x => { x with fence := x.fence - 1 }) s
  | .atomic (some dest) =>
    let s := onJob r.part r.job (fun j => j.onTile r.tile fun x => { x with fence := x.fence - 1 }) s
    finishWrites r.part [(dest, r.len)] s.mem (entryAnswered r.part r.job r.tile r.entry { s with mem := wrBytes dest (data.take r.len) s.mem })
  | .chan => s
  | .forward m key a =>
    onFab (fun f => { f with copies := f.copies ++ [⟨r.part, r.job, r.tile, m, key, a, data.take r.len⟩] })
      (entryAnswered r.part r.job r.tile r.entry s)
  | .engine c => onJob r.part r.job (fun j => { j with coll := { j.coll with runs := j.coll.runs.map fun q =>
      if q.cdesc == c && q.started then { q with waiting := q.waiting - 1 } else q } }) s

/-- An answer arrives (R437, R448): it ends its request; one that names no outstanding request is discarded and counted. -/
def answerArrives (k : Option Nat) (p : Packet) (s : State) : State :=
  match s.fab.reqs.find? fun r => r.tag == p.tag && r.member == p.src && answerOpcode r.opcode == p.opcode with
  | none => match k with
    | some k => onLink k (fun l => { l with lateResponses := l.lateResponses + 1 }) s
    | none => s
  | some r =>
    let s := onFab (fun f => { f with reqs := f.reqs.filter fun x => x.tag != r.tag }) s
    let st := fld p.h0 31 24
    if st == 0 then answered r p.data s else answerStops r.part r.job r.tile r.member st p.addr s

/-- A response to a request that others combined with (R450, R451) is copied to each of them, with its tag and member. -/
def copyAnswers (k : Nat) (p : Packet) (s : State) : State :=
  match s.fab.combines.find? fun c => c.src == p.dst && c.tag == p.tag && c.member == p.src && answerOpcode c.opcode == p.opcode with
  | none => s
  | some c =>
    c.others.foldl (fun s o =>
        let q := p.to o.1 o.2
        if o.1 == seatOf s % 64 then answerArrives (some k) q s else forwardPacket k q s)
      (onFab (fun f => { f with combines := f.combines.filter (· != c) }) s)

/-- Issue one request to a member (R437, R440, R444, R445, R450): to the module itself it is served at once. -/
def issueRequest (j : Job) (tile id : Nat) (g : RegionMap) (q : NewReq) (s : State) : State :=
  let tag := freeTag s
  let own := seatOf s % 64
  let r : FabReq := { tag, part := j.part, job := j.num, tile, entry := id, member := g.member, opcode := q.op, key := g.key,
                      addr := q.addr, len := q.len, use := q.use, since := now s }
  let len := if q.op == 0x01 then (q.len + 15) / 16 else (q.data.length + 15) / 16
  let p := packet 0 q.op g.member own len true true g.key q.addr tag q.data
  let s := onFab (fun f => { f with nextTag := f.nextTag + 1, reqs := f.reqs ++ [r] }) s
  if g.member == own then
    let (s, a) := serveRequest' j.part p q.count s
    answerArrives none a s
  else match routePacket j.part g.member (memoryHash q.addr) p s with
    | some s => s
    | none =>
      answerStops j.part j.num tile g.member 0x06 q.addr
        (onFab (fun f => { f with reqs := f.reqs.filter fun x => x.tag != tag }) s)

/-- The data that COPYs between regions have read is written to its region (R276). -/
def pumpCopies (s : State) : State :=
  s.fab.copies.foldl (fun s c => match jobOf c.part c.job s with
    | some j => issueRequest j c.tile 0 { member := c.member, key := c.key, base := 0, size := 0, perm := 0 }
        { op := 0x02, addr := c.addr, len := c.data.length, data := c.data, count := 0, use := .write } s
    | none => s) (onFab (fun f => { f with copies := [] }) s)

/-- Outstanding requests of a module (R437). -/
def requestLimit : Nat := 8192

/-- Issue an instruction of the fetcher that sends requests: `left` answers hold its completion (R286), writes and atomics hold a
FENCE (R285). -/
def issueRequests (j : Job) (x : JobTile) (w : W128) (waits : List (Nat × Nat)) (cross : List Nat) (g : RegionMap) (qs : List NewReq)
    (s : State) : State :=
  let id := s.fab.nextTag + 1
  let holds := qs.filter fun q => match q.use with
    | .read _ => true
    | .forward _ _ _ => true
    | .atomic (some _) => true
    | _ => false
  let fences := qs.filter fun q => match q.use with
    | .read _ => false
    | _ => true
  let s := onTile j x.tile (fun y =>
    { (y.issued w j.ctx waits).enqueue .fetcher { entryOf x w holds.length cross with id } with fence := y.fence + fences.length }) s
  let s := onFab (fun f => { f with nextTag := f.nextTag + 1 }) s
  pumpCopies (qs.foldl (fun s q => issueRequest j x.tile id g q s) s)

/-- A range of a region (R448): beyond its size the target finds no region; the address is formed all the same. -/
def regionAddr (g : RegionMap) (a : Nat) : Nat := (g.base + a) % 2 ^ 48

/-- A COPY with a SPACE 1 descriptor (R276, R440, R447): READs of the source, or WRITEs of the destination. A piece that is not whole
16 B slots is one that the limits of R440 do not allow: BOUNDS. -/
def copyRemote (t : Nat) (waits : List (Nat × Nat)) (j : Job) (x : JobTile) (w : W128) (s : State) : State :=
  let src := x.desc (ifld w 103 96)
  let dst := x.desc (ifld w 95 88)
  let l := (ifld w 87 68 + x.xval w) % 2 ^ 20
  let k := ifld w 67 48
  let rows := ifld w 47 32
  let col0 := ifld w 31 16
  let n := copyCols src col0 (ifld w 15 0)
  let rs := copyRanges src l rows col0 n
  let ws := copyRanges dst k rows col0 n
  let reads := src.space == 1
  match regionOf j (if reads then src else dst) with
  | none => stopAt j t ⟨0x000B, src.base⟩ s
  | some g =>
    match if reads then checkWrites j.part t ws s else checkReads j t rs s with
    | some st => stopAt j t st s
    | none =>
      let qs := (rs.zip ws).flatMap fun p =>
        let remote := regionAddr g (if reads then p.1.1 else p.2.1)
        let len := min p.1.2 p.2.2
        (pieces 512 (len + 1) remote len).map fun q =>
          let off := q.1 - remote
          if reads then ({ op := 0x01, addr := q.1, len := q.2, data := [], count := 0, use := .read (p.2.1 + off) } : NewReq)
          else { op := 0x02, addr := q.1, len := q.2, data := rdBytes (p.1.1 + off) q.2 s.mem, count := 0, use := .write }
      match qs.find? fun q => q.len % 16 != 0 with
      | some q => stopAt j t ⟨0x000B, q.addr⟩ s
      | none =>
        let local' := if reads then ws else rs
        if requestLimit < s.fab.reqs.length + qs.length && qs.length ≤ requestLimit || !mayRead j x local' s then s
        else
          let cross := accessClass j.part t local' s
          let s := if reads then prepareWrites j t ws s else countSpill j t false rs s
          issueRequests j x w waits cross g qs s

/-- A COPY from one region to another (R276, R440): each piece is read from the source and, when its data has come, written to the
destination; a FENCE waits for the writes. -/
def copyRegions (t : Nat) (waits : List (Nat × Nat)) (j : Job) (x : JobTile) (w : W128) (s : State) : State :=
  let src := x.desc (ifld w 103 96)
  let dst := x.desc (ifld w 95 88)
  let l := (ifld w 87 68 + x.xval w) % 2 ^ 20
  let rows := ifld w 47 32
  let col0 := ifld w 31 16
  let n := copyCols src col0 (ifld w 15 0)
  match regionOf j src, regionOf j dst with
  | some g, some h =>
    let qs := ((copyRanges src l rows col0 n).zip (copyRanges dst (ifld w 67 48) rows col0 n)).flatMap fun p =>
      let a := regionAddr g p.1.1
      let b := regionAddr h p.2.1
      let len := min p.1.2 p.2.2
      (pieces 512 (len + 1) a len).flatMap fun q => (pieces 512 (q.2 + 1) (b + (q.1 - a)) q.2).map fun z =>
        ({ op := 0x01, addr := a + (z.1 - b), len := z.2, data := [], count := 0, use := .forward h.member h.key z.1 } : NewReq)
    match qs.find? fun q => q.len % 16 != 0 with
    | some q => stopAt j t ⟨0x000B, q.addr⟩ s
    | none =>
      if requestLimit < s.fab.reqs.length + qs.length && qs.length ≤ requestLimit then s else issueRequests j x w waits [] g qs s
  | _, _ => stopAt j t ⟨0x000B, src.base⟩ s

/-- COPY (R276): within the module, to or from a region, or between two regions. -/
def copy (t : Nat) (c : Ctx) (waits : List (Nat × Nat)) (s : State) : State :=
  whenIssued t c 0 0 s fun j x w =>
    let a := (x.desc (ifld w 103 96)).space
    let b := (x.desc (ifld w 95 88)).space
    if a == 0 && b == 0 then copyLocal t waits j x w s
    else if a == 1 && b == 1 then copyRegions t waits j x w s
    else copyRemote t waits j x w s

/-- Address of consecutive element `i` of a descriptor with elements of `n` bytes: its lines follow one another. -/
def flatAddr (d : Desc) (n i : Nat) : Nat := (d.lineAddr (flatPlace d i).1 + n * (flatPlace d i).2) % 2 ^ 48

/-- ATOMIC (R276, R441): at the target lane for a local target, as packets for a region of a member. -/
def atomic (t : Nat) (c : Ctx) (waits : List (Nat × Nat)) (s : State) : State :=
  whenIssued t c 0 5 s fun j x w =>
    let dst := x.desc (ifld w 103 96)
    let src := x.desc (ifld w 95 88)
    let ret := x.desc (ifld w 87 80)
    let hasRet := ifld w 87 80 != 0xFF
    let aop := ifld w 79 76
    let ty := ifld w 75 72
    let row := (ifld w 71 52 + x.xval w) % 2 ^ 20
    let count := ifld w 51 36
    let n := atypeBytes ty
    let is := List.range count
    let srcAt := fun i => flatAddr src n i
    let reads := (List.range (if aop == 3 then 2 * count else count)).map fun i => (srcAt i, n)
    let rets := if hasRet then is.map fun i => (flatAddr ret n i, n) else []
    let operand := fun i => if aop == 3 then (rdNat (srcAt (2 * i + 1)) n s.mem, rdNat (srcAt (2 * i)) n s.mem)
      else (rdNat (srcAt i) n s.mem, 0)
    match (checkReads j t reads s).orElse fun _ => checkWrites j.part t rets s with
    | some st => stopAt j t st s
    | none =>
      if dst.space == 0 then
        let tgt := is.map fun i => (flatAddr dst n (row + i), n)
        match (checkReads j t tgt s).orElse fun _ => checkWrites j.part t tgt s with
        | some st => stopAt j t st s
        | none =>
          let all := reads ++ tgt ++ rets
          if !mayRead j x all s then s else
          let s := issueTo .fetcher 0 waits j x w (prepareWrites j t (tgt ++ rets) (countSpill j t false reads s))
            (accessClass j.part t all s)
          let m := is.foldl (fun m i =>
            let a := flatAddr dst n (row + i)
            let old := rdNat a n m
            let m := wrNat a n (atomicValue aop ty old (operand i).1 (operand i).2) m
            if hasRet then wrNat (flatAddr ret n i) n old m else m) s.mem
          finishWrites j.part (tgt ++ rets) s.mem { s with mem := m }
      else
        match regionOf j dst with
        | none => stopAt j t ⟨0x000B, dst.base⟩ s
        | some g =>
          let per := 512 / (n * (if aop == 3 then 2 else 1))
          let a := regionAddr g ((dst.base + n * row) % 2 ^ 48)
          let qs := (pieces (per * n) (count * n + 1) a (count * n)).map fun q =>
            let i := (q.1 - a) / n
            let k := q.2 / n
            ({ op := 0x40 + 8 * aop + 2 * ty + b2n hasRet, addr := q.1, len := q.2,
               data := operandBytes aop ty ((List.range k).map fun e => operand (i + e)), count := k,
               use := .atomic (if hasRet then some (flatAddr ret n i) else none) } : NewReq)
          if requestLimit < s.fab.reqs.length + qs.length && qs.length ≤ requestLimit || !mayRead j x (reads ++ rets) s then s
          else issueRequests j x w waits (accessClass j.part t (reads ++ rets) s) g qs (prepareWrites j t rets (countSpill j t false reads s))

/-! Tile channels between modules (R289, R290, R306, R449). -/

/-- KEY of the channel opcodes (Table 12.6). -/
def channelKey (h : Channel) : Nat := packN [(h.srcTile, 22, 10), (h.srcIndex, 18, 4)]

/-- Send a packet of a channel to a seat: on VL0 or VL1 within the pod, as a DMT message of class 0 or 1 beyond it (R317, R466). -/
def sendChannel (n seat vl op key flow addr : Nat) (first last : Bool) (tag : Nat) (data : List Byte) (s : State) : Option State :=
  let own := seatOf s
  let p := packet vl op (seat % 64) (own % 64) ((data.length + 15) / 16) first last key addr tag data
  if seat / 64 == own / 64 then routePacket n (seat % 64) flow p s
  else some (dmtSend n seat (if vl == 0 then 0 else 1) flow addr p.h0 data s)

/-- The link that an entry of a channel to a pod member takes (R317). -/
def channelLink (n : Nat) (h : Channel) (s : State) : Option Nat :=
  (routeTo n (h.dstSeat % 64) s).bind fun r => r.1[(16 * h.srcTile + h.srcIndex) % max 1 r.1.length]?

/-- A channel whose link has changed waits (R469, R471): until the handover of a failed link is done, or, at a route switch, until each
CHAN_WRITE sent on the old link has its CHAN_ACK. -/
def channelHeld (j : Job) (h : Channel) (s : State) : Bool :=
  s.fab.reqs.any fun r => r.use == .chan && r.part == j.part && r.job == j.num && r.key == channelKey h && r.link != channelLink j.part h s &&
    match r.link with
    | some l => (linkOf l s).handover || (linkOf l s).carries
    | none => false

/-- A SEND on a channel to another module (R289, R440): one CHAN_WRITE for each 512 B of the entry. -/
def sendRemote (t : Nat) (waits : List (Nat × Nat)) (j : Job) (x : JobTile) (w : W128) (h : Channel) (s : State) : State :=
  let d := x.desc (ifld w 95 88)
  let rs := lineRanges d ((ifld w 87 68 + x.xval w) % 2 ^ 20) (ifld w 67 52)
  match checkReads j t rs s with
  | some st => stopAt j t st s
  | none =>
    let bs := gatherBytes rs s.mem
    let a := h.buffer + h.written % h.depth * h.entryBytes
    if h.entryBytes < bs.length then stopAt j t ⟨0x000B, a⟩ s
    else if channelHeld j h s || !mayRead j x rs s ||
        (h.dstSeat / 64 == seatOf s / 64 && requestLimit < s.fab.reqs.length + max 1 ((bs.length + 511) / 512)) then s
    else
      let flow := 16 * h.srcTile + h.srcIndex
      let s := issueTo .fetcher 0 waits j x w (countSpill j t false rs s) (wordClass j x w s ++ accessClass j.part t rs s)
      let s := onChannel j (fun k => k.srcTile == h.srcTile && k.srcIndex == h.srcIndex)
        (fun k => { k with credits := k.credits - 1, written := k.written + 1 }) s
      if h.dstSeat / 64 != seatOf s / 64 then
        dmtSend j.part h.dstSeat 0 flow a (packet 0 0x03 (h.dstSeat % 64) (seatOf s % 64) 0 true true (channelKey h) a 0 []).h0 bs s
      else
        let n := max 1 ((bs.length + 511) / 512)
        (List.range n).foldl (fun s i =>
          let part := (bs.drop (512 * i)).take 512
          let tag := freeTag s
          let r : FabReq := { tag, part := j.part, job := j.num, tile := t, entry := 0, member := h.dstSeat % 64, opcode := 0x03,
                              key := channelKey h, addr := a + 512 * i, len := part.length, use := .chan, since := now s,
                              link := channelLink j.part h s }
          let s := onFab (fun f => { f with nextTag := f.nextTag + 1 }) s
          match sendChannel j.part h.dstSeat 0 0x03 (channelKey h) flow (a + 512 * i) (i == 0) (i + 1 == n) tag part s with
          | some s => onFab (fun f => { f with reqs := f.reqs ++ [r] }) s
          | none => answerStops j.part j.num t (h.dstSeat % 64) 0x06 a s) s

/-- SEND (R289): to a tile of the module or of another. -/
def sendChan (t : Nat) (c : Ctx) (waits : List (Nat × Nat)) (s : State) : State :=
  whenIssued t c 5 2 s fun j x w =>
    match outChannel j t (ifld w 103 96) with
    | none => s
    | some h => if h.dstSeat == ownSeatOf s then sendLocal t waits j x w h s else sendRemote t waits j x w h s

/-- Return a credit to a remote producer (R289, R290). -/
def creditBack (j : Job) (h : Channel) (s : State) : State :=
  match h.srcSeat with
  | some seat => (sendChannel j.part seat 1 0x85 (channelKey h) (16 * h.srcTile + h.srcIndex) 0 true true 0 [] s).getD s
  | none => s

/-- The job of a partition with an incoming channel of a remote producer. -/
def jobWithChannel (n seat srcTile srcIndex : Nat) (s : State) : Option (Job × Channel) :=
  s.jobs.findSome? fun j =>
    if j.part == n && j.running then
      (j.channels.find? fun h => h.srcTile == srcTile && h.srcIndex == srcIndex && h.dstSeat == seatOf s &&
        h.srcSeat == some seat).map fun h => (j, h)
    else none

/-- Part of an entry arrives at the consumer (R449): written into its buffer; the last part makes the entry arrived. -/
def channelWrite (j : Job) (h : Channel) (a : Nat) (data : List Byte) (last : Bool) (s : State) : State :=
  let s := prepareWrites j h.dstTile [(a, data.length)] s
  let s := finishWrites j.part [(a, data.length)] s.mem { s with mem := wrBytes a data s.mem }
  if last then onChannel j (fun k => k.dstTile == h.dstTile && k.dstIndex == h.dstIndex && k.dstSeat == h.dstSeat)
    (fun k => { k with arrived := k.arrived + 1 }) s
  else s

/-- CHAN_WRITE arrives (R448, R449): an address outside the channel's buffer is answered NO_REGION. -/
def chanWriteArrives (k : Nat) (p : Packet) (s : State) : State :=
  if p.dst != seatOf s % 64 then forwardPacket k p s
  else if p.vl != 0 || p.opcode != 0x03 then
    let s := protocolError k p s
    if isRequest p.opcode then putPacket k (answerPacket (seatOf s % 64) p 0x07 []) s else s
  else match partOfLink k s with
    | none => putPacket k (answerPacket (seatOf s % 64) p 0x01 []) s
    | some n =>
      let seat := memberSeat p.src s
      let own := seatOf s % 64
      if (partOf n s).state == 3 then putPacket k (answerPacket own p 0x05 []) s
      else match jobWithChannel n seat (fld p.h0 31 22) (fld p.h0 21 18) s with
        | none => putPacket k (answerPacket own p 0x01 []) s
        | some (j, h) =>
          if inside p.addr p.data.length (h.buffer, h.depth * h.entryBytes) then
            putPacket k (answerPacket own p 0x00 []) (channelWrite j h p.addr p.data (bit p.h0.toNat 33) s)
          else putPacket k (answerPacket own p 0x01 []) s

/-- A credit of a remote channel comes back (R289, R290). -/
def chanCredit (n seat srcTile srcIndex : Nat) (s : State) : State :=
  match s.jobs.find? fun j => j.part == n && j.running &&
      j.channels.any fun h => h.srcTile == srcTile && h.srcIndex == srcIndex && h.dstSeat == seat with
  | some j => onChannel j (fun h => h.srcTile == srcTile && h.srcIndex == srcIndex && h.dstSeat == seat)
      (fun h => { h with credits := min h.depth (h.credits + 1) }) s
  | none => s

/-- A packet of VL1 arrives for this module or another (R437, R439, R444); requests combined with its own have their copies. -/
def responseArrives (k op : Nat) (p : Packet) (f : State → State) (s : State) : State :=
  if p.vl != 1 || p.opcode != op then
    if p.dst != seatOf s % 64 then forwardPacket k p s else protocolError k p s
  else
    let s := if op == 0x85 then s else copyAnswers k p s
    pumpCopies (if p.dst != seatOf s % 64 then forwardPacket k p s else f s)

/-! Dead targets (R411, R453, R454). -/

/-- Tear a partition's runs down (R454): the event, the runs, the requests, the report. DESIGN CHOICE: the code of the kind of request is
a free value. -/
def teardown (n num member : Nat) (s : State) : State :=
  let (w, s) := freeWord s
  let w2 := match jobOf n num s with
    | some j => j.w2
    | none => pack [(num, 32, 32)]
  let step := match jobOf n num s with
    | some j => j.step
    | none => 0
  let s := raiseM (some n) 0x800C (unitPart n) (pack [(w.toNat % 256, 8, 8), (member, 0, 6)]) s w2
  let s := (s.jobs.filter fun j => j.part == n && j.running).foldl (fun s j => stopRun j 0x000A s) s
  reportFm 3 [BitVec.ofNat 64 num, BitVec.ofNat 64 member, step] (abandonRequests n s)

/-- A wait has lasted DEAD_TARGET_MS (R453): 1 ms is 10^6 ck. -/
def tooLong (since : W64) (s : State) : Bool := (timeouts s).deadTargetMs * 1000000 ≤ (now s - since).toNat

/-- COPY. -/
def execCopy (tile : Nat) (ctx : Ctx) (waits : List (Nat × Nat)) (s : State) : Host.Outcome State Fault Refusal :=
  .next (copy tile ctx waits s)
/-- ATOMIC. -/
def execAtomic (tile : Nat) (ctx : Ctx) (waits : List (Nat × Nat)) (s : State) : Host.Outcome State Fault Refusal :=
  .next (atomic tile ctx waits s)
/-- SEND. -/
def execSend (tile : Nat) (ctx : Ctx) (waits : List (Nat × Nat)) (s : State) : Host.Outcome State Fault Refusal :=
  .next (sendChan tile ctx waits s)
/-- RECV. -/
def execRecv (tile : Nat) (ctx : Ctx) (waits : List (Nat × Nat)) (s : State) : Host.Outcome State Fault Refusal :=
  .next (recv creditBack tile ctx waits s)
/-- READ. -/
def execRead (link : Nat) (h0 h1 : W64) (s : State) : Host.Outcome State Fault Refusal :=
  .next (requestArrives link 0x01 ⟨h0, h1, []⟩ 0 s)
/-- WRITE. -/
def execWrite (link : Nat) (h0 h1 : W64) (data : List Byte) (s : State) : Host.Outcome State Fault Refusal :=
  .next (requestArrives link 0x02 ⟨h0, h1, data⟩ 0 s)
/-- ATOMIC packet. -/
def execAtomicPacket (link : Nat) (h0 h1 : W64) (count : Nat) (data : List Byte) (s : State) : Host.Outcome State Fault Refusal :=
  .next (requestArrives link 0x40 ⟨h0, h1, data⟩ count s)
/-- CHAN_WRITE. -/
def execChanWrite (link : Nat) (h0 h1 : W64) (data : List Byte) (s : State) : Host.Outcome State Fault Refusal :=
  .next (chanWriteArrives link ⟨h0, h1, data⟩ s)
/-- READ_DATA. -/
def execReadData (link : Nat) (h0 h1 : W64) (data : List Byte) (s : State) : Host.Outcome State Fault Refusal :=
  .next (responseArrives link 0x80 ⟨h0, h1, data⟩ (answerArrives (some link) ⟨h0, h1, data⟩) s)
/-- WRITE_ACK. -/
def execWriteAck (link : Nat) (h0 h1 : W64) (s : State) : Host.Outcome State Fault Refusal :=
  .next (responseArrives link 0x81 ⟨h0, h1, []⟩ (answerArrives (some link) ⟨h0, h1, []⟩) s)
/-- ATOMIC_DATA. -/
def execAtomicData (link : Nat) (h0 h1 : W64) (data : List Byte) (s : State) : Host.Outcome State Fault Refusal :=
  .next (responseArrives link 0x83 ⟨h0, h1, data⟩ (answerArrives (some link) ⟨h0, h1, data⟩) s)
/-- CHAN_ACK. -/
def execChanAck (link : Nat) (h0 h1 : W64) (s : State) : Host.Outcome State Fault Refusal :=
  .next (responseArrives link 0x84 ⟨h0, h1, []⟩ (answerArrives (some link) ⟨h0, h1, []⟩) s)
/-- CHAN_CREDIT. -/
def execChanCredit (link : Nat) (h0 h1 : W64) (s : State) : Host.Outcome State Fault Refusal :=
  .next (responseArrives link 0x85 ⟨h0, h1, []⟩ (fun s => match partOfLink link s with
    | some n => chanCredit n (memberSeat (fld h0 46 41) s) (fld h0 31 22) (fld h0 21 18) s
    | none => s) s)

end Sys2Proof.Machine
end

