-- ==== Sys2Proof/Machine/Serden.lean ====
section
/-! DEFINITION. Machine/Serden.lean: the Serden engines (10 R340 to R379): add-writes, segments, updates, the step outcome, the
commands of Table 10.10. -/
namespace Sys2Proof.Machine

/-- The result record (Table 10.11). -/
def resultWords (g : Segment) : List W64 :=
  [g.step, g.digest,
   pack [(g.clip, 32, 32), (b2n g.slot, 31, 1), (g.upd, 28, 3), (g.outcome, 24, 4), (g.reruns, 16, 8)],
   pack [(g.nfIn, 32, 32), (g.nfOut, 0, 32)]]

/-- Write a segment's result record (R379). Outside the partition's stack memory it stops the run with BOUNDS (R316). -/
def writeResult (j : Job) (i : Nat) (s : State) : State :=
  match (jobOf j.part j.num s).bind fun j => j.seg i with
  | some g =>
    let a := fld (heldWord j 4) 47 0 + 32 * i
    if inside a 32 (jobRange j.part s) then storeWords a (resultWords g) s
    else match jobOf j.part j.num s with
      | some k => stopAt k 0 ⟨0x000B, a⟩ s
      | none => s
  | none => s

/-- A segment's update fails (R373): FAILED, serden-update-failed names segment, lane and cause. The cause has no codes: free. -/
def failSegment (j : Job) (i lane : Nat) (s : State) : State :=
  let (v, s) := freeWord s
  raiseM (some j.part) 0x6002 (unitSegment i) (pack [(lane, 48, 16), (v.toNat, 0, 8)]) (onSeg j i (fun g => { g with upd := 4 }) s) j.w2

/-- A poisoned line of some arrays of a segment: its lane (R326, R373). -/
def poisonedLane (part : Nat) (g : SegFields) (arrays : List Nat) (s : State) : Option Nat :=
  arrays.findSome? fun i => (List.range g.elements).findSome? fun e =>
    let (a, n) := fieldAt part g i e s
    (poisoned a n s).map fun _ => channelOf part a s

/-- The update of a segment (R361 to R373) from its current slot into its target slot, and all that finishes with it: the result
record, state-non-finite, a pending flip, in deferred mode the clear. A poisoned line that it reads fails it part-way. -/
def updateSegment (j : Job) (sg : Segment) (s : State) : State :=
  let g := segFields sg.words
  let early := earlyMode j.part s
  let half := momentBf16 j.part s
  let now := j
  let j := j.during sg
  let target := if early then !sg.slot else sg.slot
  let kind := updateKind j g s
  let skip := kind == 2
  let mask := updateMask early g kind
  match poisonedLane j.part g (updateReads early g sg.slot kind) s with
  | some lane => failSegment now sg.index lane (mixUpdate now sg s)
  | none =>
    let (clip, prov) := clipOf j s
    let k := updateScalars j g s
    let (s, nIn, nOut) := if skip then (s, 0, 0) else
      (List.range g.elements).foldl (fun q e =>
        let (s, a, b) := q
        let x := readElement j.part g sg.slot e s
        let acc := readField j.part g 0 e s
        let y := newElement g k j.step.toNat kind acc x
        (writeParts j g target j.step mask e y s,
         a + b2n (kind == 0 && nonfinite32 [f32Mul acc k.gs]), b + b2n (nonfinite32 (fieldsWritten j g early half kind e y)))) (s, 0, 0)
    let s := if skip then s else
      liftPoison ((1 :: ((List.range 4).filter mask.testBit).map (slotArray target + ·)).flatMap fun i => arrayRanges j.part g i s) s
    let dig := stateDigest j.part g (if skip then sg.slot else target) s
    let s := onSeg j sg.index (fun q => { q with
      upd := 3, step := j.step, clip := clip, digest := dig, lanesLeft := 0, provisional := prov,
      outcome := if q.outcome == 3 then 3 else if skip then 1 else if kind == 1 then 2 else 0,
      nfIn := min 0xFFFFFFFF nIn, nfOut := min 0xFFFFFFFF nOut, noflip := skip, copyDirty := early && !skip }) s
    let s := if nOut != 0 then raiseJ now 0x6001 (unitSegment sg.index) (BitVec.ofNat 64 (min 0xFFFFFFFF nOut)) s else s
    let s := writeResult j sg.index s
    if early then
      if sg.flipPending then
        let s := onSeg j sg.index (fun q => { q with
          slot := if q.noflip then q.slot else !q.slot, flipPending := false, copyDirty := false, upd := 0, acc := 2 }) s
        if skip then s else writeResult j sg.index s
      else s
    else onSeg j sg.index (fun q => { q with upd := 0, acc := 0 }) (clearAcc g s)

/-- Every lane of a RUNNING segment has finished (R373), and it is updated once its scalars are there (R366). `failed` names a lane that failed
instead, while the segment was WAITING or RUNNING. -/
def segmentDone (part num i : Nat) (failed : Option Nat) (s : State) : State :=
  match jobOf part num s with
  | none => s
  | some j => match j.seg i with
    | none => s
    | some sg =>
      match failed with
      | some lane =>
        if sg.upd == 1 then failSegment j i lane s
        else if sg.upd == 2 then failSegment j i lane (mixUpdate j sg s)
        else s
      | none => if sg.upd == 2 && scalarsReady j sg s then updateSegment j sg s else s

/-- Every accumulator word of a segment is +0 (R373): CLEARING becomes OPEN. -/
def accClearDone (part num i : Nat) (s : State) : State :=
  match jobOf part num s with
  | none => s
  | some j => match j.seg i with
    | none => s
    | some sg =>
      if sg.acc == 2 then onSeg j i (fun q => { q with acc := 0 }) (clearAcc (segFields sg.words) s) else s

/-- ACC_CLEAR_DONE. -/
def execAccClearDone (partition job segment : Nat) (s : State) : Host.Outcome State Fault Refusal :=
  .next (accClearDone partition job segment s)

/-- A line lies in a segment whose accumulator is not OPEN, or that is being restored (R346, R376): its add-writes wait. -/
def addHeld (a : Nat) (s : State) : Bool :=
  s.jobs.any fun j => j.segs.any fun g => (g.acc != 0 || g.upd == 5) && inside a 64 (segArea j.part (segFields g.words) s)

/-- Apply an add-write to its line (R344). -/
def applyAdd (w : AddWrite) (m : Mem) : Mem :=
  (List.range 16).foldl (fun m i =>
    if w.mask.testBit i then
      let old := rdNat (w.addr + 4 * i) 4 m
      let v := w.vals.getD i 0
      wrNat (w.addr + 4 * i) 4 (if w.int then (old + v) % 2 ^ 32 else f32Add old v) m
    else m) m

/-- An add-write reaches its lane: discarded and counted when the channel is out of service (R543), applied to no word of a poisoned
line, which is reported (R326, R347). -/
def landAdd (s : State) (w : AddWrite) : State :=
  if deadLine (w.addr / 64) s then discardWrite w.addr s
  else if s.poison.contains (w.addr / 64) then memoryError w.addr s
  else { s with mem := applyAdd w s.mem }

/-- The lane of a channel takes the oldest add-write of its queue that no segment holds (R344 to R347): one whose segment's accumulator is
not OPEN waits, and those to other memory go by it. A lane under test takes none (R530, R535). -/
def addWrite (ch : Nat) (s : State) : State :=
  let next := fun (w : AddWrite) => channelOf w.part w.addr s == ch && !addHeld w.addr s
  match s.addq.find? next with
  | none => s
  | some w => if underTest (.lane ch) s then s else feedAdds (landAdd { s with addq := eraseFirst next s.addq } w)

/-- ADD_WRITE. -/
def execAddWrite (channel : Nat) (s : State) : Host.Outcome State Fault Refusal := .next (addWrite channel s)

/-- A command of Table 10.10 that finds its segment in another state (R376): refused, and reported. No rule gives commands a code:
a free value. -/
def refuseCommand (j : Job) (i upd : Nat) (s : State) : State :=
  let (v, s) := freeWord s
  raiseJ j 0x6003 (unitSegment i) (pack [(v.toNat, 8, 8), (upd, 0, 3)]) s

/-- Wake the update units of the engines that hold a partition's segments (R161, R342). -/
def wakeSerden (part : Nat) (s : State) : State :=
  let halves := ((partCfg part s).map PartCfg.halves).getD 0
  { s with gated := s.gated.filter fun m =>
      !(inRange m 0x50 0x57 && (halves.testBit (2 * (m - 0x50)) || halves.testBit (2 * (m - 0x50) + 1))) }

/-- Run a command of Table 10.10 on a segment that is in a state it is accepted in. -/
def segCommand (part num i : Nat) (accepts : Segment → Bool) (act : Job → Segment → State → State) (s : State) : State :=
  match jobOf part num s with
  | none => s
  | some j => match j.seg i with
    | none => s
    | some sg => if accepts sg then act j sg (wakeSerden part s) else refuseCommand j i sg.upd s

/-- COMMIT_AT (R376): the outcome is queued for its count. -/
def commitAt (part num : Nat) (count : W64) (kind : Nat) (s : State) : State :=
  onJob part num (fun j => { j with outcome := some ⟨count, kind % 3⟩ }) (wakeSerden part s)

/-- COMMIT_AT. -/
def execCommitAt (partition job : Nat) (count : W64) (outcome : Nat) (s : State) : Host.Outcome State Fault Refusal :=
  .next (commitAt partition job count outcome s)

/-- The lanes of a segment: those of its partition (R340). -/
def laneCount (part : Nat) (s : State) : Nat := popcount (((partCfg part s).map PartCfg.halves).getD 0) 16 * 16

/-- A segment's lanes run (R371): early mode starts to write the copy. -/
def Segment.running (early : Bool) (lanes : Nat) (g : Segment) : Segment :=
  { g with upd := 2, lanesLeft := lanes, copyDirty := g.copyDirty || early }

/-- START_UPDATE (R376): IDLE with ACC HELD runs its update. -/
def startUpdate (part num i : Nat) (s : State) : State :=
  segCommand part num i (fun g => g.upd == 0 && g.acc == 1)
    (fun j _ s => onSeg j i (fun g => ({ g with outcome := 0 }).running (earlyMode part s) (laneCount part s)) s) s

/-- START_UPDATE. -/
def execStartUpdate (partition job segment : Nat) (s : State) : Host.Outcome State Fault Refusal :=
  .next (startUpdate partition job segment s)

/-- REDO (R376, R377): FAILED in early mode runs again from the current slot; RERUNS rises. -/
def redo (part num i : Nat) (s : State) : State :=
  segCommand part num i (fun g => g.upd == 4 && earlyMode part s)
    (fun j _ s => onSeg j i (fun g => ({ g with outcome := 3, reruns := satInc 63 g.reruns }).running true (laneCount part s)) s) s

/-- REDO. -/
def execRedo (partition job segment : Nat) (s : State) : Host.Outcome State Fault Refusal := .next (redo partition job segment s)

/-- RESTORE_BEGIN (R376). -/
def restoreBegin (part num i : Nat) (s : State) : State :=
  segCommand part num i (fun g => g.upd == 4 || g.upd == 0) (fun j _ s => onSeg j i (fun g => { g with upd := 5 }) s) s

/-- RESTORE_BEGIN. -/
def execRestoreBegin (partition job segment : Nat) (s : State) : Host.Outcome State Fault Refusal :=
  .next (restoreBegin partition job segment s)

/-- RESTORE_END (R376): the copy from the restored master, +0 accumulators, the digest in the result record, IDLE and OPEN. -/
def restoreEnd (part num i : Nat) (s : State) : State :=
  segCommand part num i (fun g => g.upd == 5)
    (fun j sg s =>
      let g := segFields sg.words
      let s := clearAcc g (emitCopy j g sg.slot sg.step s)
      let d := stateDigest part g sg.slot s
      writeResult j i (onSeg j i (fun q => { q with upd := 0, acc := 0, outcome := 4, digest := d, copyDirty := false }) s)) s

/-- RESTORE_END. -/
def execRestoreEnd (partition job segment : Nat) (s : State) : Host.Outcome State Fault Refusal :=
  .next (restoreEnd partition job segment s)

/-- DIGEST (R376, R378): the digest of a slot goes to firmware. -/
def digestSlot (part num i : Nat) (slot : Bool) (s : State) : State :=
  segCommand part num i (fun g => g.upd != 2)
    (fun _ sg s => send (.serden part num i (stateDigest part (segFields sg.words) slot s)) s) s

/-- DIGEST. -/
def execDigest (partition job segment : Nat) (slot : Bool) (s : State) : Host.Outcome State Fault Refusal :=
  .next (digestSlot partition job segment slot s)

/-- REEMIT (R376). -/
def reemit (part num i : Nat) (s : State) : State :=
  segCommand part num i (fun g => g.upd == 0 || g.upd == 3)
    (fun j sg s => onSeg j i (fun q => { q with copyDirty := false }) (emitCopy j (segFields sg.words) sg.slot sg.step s)) s

/-- REEMIT. -/
def execReemit (partition job segment : Nat) (s : State) : Host.Outcome State Fault Refusal :=
  .next (reemit partition job segment s)

/-- An engine's stack holds segment work: a segment of a partition with a half of the stack waits, runs or clears. -/
def engineWorks (e : Nat) (s : State) : Bool :=
  s.jobs.any fun j =>
    let halves := ((partCfg j.part s).map PartCfg.halves).getD 0
    (halves.testBit (2 * e) || halves.testBit (2 * e + 1)) && j.segs.any fun g => g.upd == 1 || g.upd == 2 || g.acc == 2

/-- 1 ms without segment work (R342): the engine's update and schedule units are power-gated. -/
def serdenGate (e : Nat) (s : State) : State :=
  if e < 8 && !engineWorks e s && !s.gated.contains (0x50 + e) then { s with gated := s.gated ++ [0x50 + e] } else s

/-- SERDEN_POWER_GATE. -/
def execSerdenPowerGate (engine : Nat) (s : State) : Host.Outcome State Fault Refusal := .next (serdenGate engine s)

/-- The segment states at COMMIT (R373, R374). -/
def commitSeg (early : Bool) (g : Segment) : Segment :=
  if early then
    if g.upd == 3 then
      { g with slot := if g.noflip then g.slot else !g.slot, copyDirty := g.copyDirty && g.noflip, upd := 0, acc := 2 }
    else if g.upd == 1 || g.upd == 2 || g.upd == 4 then { g with flipPending := true }
    else g
  else if g.upd == 0 && g.acc == 1 then { g with upd := 1 } else g

/-- The segment states at SKIP (R373); `flag` is the non-finite flag. -/
def skipSeg (flag : Bool) (g : Segment) : Segment :=
  { g with
    upd := if inRange g.upd 1 3 then 0 else g.upd
    acc := if g.acc == 1 && flag then 2 else g.acc
    outcome := if g.upd == 2 || g.upd == 3 then 5 else g.outcome }

/-- In deferred mode a WAITING segment runs once its scalars are there (R366, R372). -/
def runDeferred (j : Job) (s : State) : State :=
  if earlyMode j.part s then s
  else
    let go := fun (j : Job) (g : Segment) => if g.upd == 1 && scalarsReady j g s then g.running false (laneCount j.part s) else g
    onJob j.part j.num (fun j => { j with segs := j.segs.map (go j) }) s

/-- Apply a step outcome to every segment of a job (R373, R374, R379): results are written at every flip and when SKIP discards a target slot, and at SKIP a dirty copy is emitted again. -/
def applyOutcome (j : Job) (kind : Nat) (s : State) : State :=
  let early := earlyMode j.part s
  let s := wakeSerden j.part s
  if kind == 0 then
    runDeferred j (j.segs.foldl (fun s g =>
      let s := onSeg j g.index (commitSeg early) s
      if early && g.upd == 3 && !g.noflip then writeResult j g.index s else s) s)
  else
    j.segs.foldl (fun s g =>
      let s := onSeg j g.index (skipSeg (kind == 1)) (if g.upd == 2 then mixUpdate j g s else s)
      let s := if early && (g.upd == 2 || g.upd == 3) then writeResult j g.index s else s
      if g.copyDirty then
        onSeg j g.index (fun q => { q with copyDirty := false }) (emitCopy j (segFields g.words) g.slot g.step s)
      else s) s

end Sys2Proof.Machine
end

