-- ==== Sys2Proof/Machine/CollViews.lean ====
section
/-! DEFINITION. Machine/CollViews.lean: section 0x09 of a package (R480 to R482, Tables 13.2 to 13.4), ranks, rings and trees (R486,
R487, R502), collective messages (R484, R485). -/
namespace Sys2Proof.Machine

/-- The eight words of entry `i` of section 0x09. -/
def Job.centry (j : Job) (i : Nat) : List W64 := (j.csection.drop (8 * i)).take 8
/-- Word `i` of the header (Table 13.2). -/
def Job.cword (j : Job) (i : Nat) : W64 := j.csection.getD i 0
/-- GROUP_COUNT. -/
def Job.groupCount (j : Job) : Nat := fld (j.cword 0) 63 56
/-- CDESC_COUNT. -/
def Job.cdescCount (j : Job) : Nat := fld (j.cword 0) 55 40
/-- VSTAGES. -/
def Job.vstages (j : Job) : Nat := fld (j.cword 0) 39 36
/-- VOTE_GROUP. -/
def Job.voteGroup (j : Job) : Nat := fld (j.cword 0) 35 30
/-- RETRY_LIMIT. -/
def Job.retryLimit (j : Job) : Nat := fld (j.cword 0) 29 26
/-- SEEN_VOTES. -/
def Job.seenVotes (j : Job) : Bool := bit (j.cword 0).toNat 25
/-- REJOIN. -/
def Job.rejoin (j : Job) : Bool := bit (j.cword 0).toNat 24
/-- OPT_TABLE. -/
def Job.optTable (j : Job) : Nat := fld (j.cword 1) 47 0
/-- COMMIT_RECORDS. -/
def Job.commitRecords (j : Job) : Nat := fld (j.cword 2) 47 0
/-- COMMIT_LEAD_US. -/
def Job.leadUs (j : Job) : Nat := fld (j.cword 3) 63 32
/-- NEXT_GAP_US. -/
def Job.gapUs (j : Job) : Nat := fld (j.cword 3) 31 0
/-- TEMP_BASE. -/
def Job.tempBase (j : Job) : Nat := fld (j.cword 4) 47 0
/-- TEMP_BYTES. -/
def Job.tempBytes (j : Job) : Nat := (j.cword 5).toNat

/-- Entries of a group with P ranks (R481). -/
def groupEntries (p : Nat) : Nat := 1 + (p + 31) / 32

/-- The entry at which group `g` starts (R481). -/
def Job.groupAt (j : Job) : Nat → Nat
  | 0 => 1
  | g + 1 =>
    let a := groupAt j g
    a + groupEntries (fld ((j.centry a).getD 0 0) 63 51)

/-- RANKS of a group. -/
def Job.ranks (j : Job) (g : Nat) : Nat := fld ((j.centry (j.groupAt g)).getD 0 0) 63 51
/-- MY_RANK. -/
def Job.myRank (j : Job) (g : Nat) : Nat := fld ((j.centry (j.groupAt g)).getD 0 0) 50 39
/-- ARITY. -/
def Job.arity (j : Job) (g : Nat) : Nat := fld ((j.centry (j.groupAt g)).getD 0 0) 38 34
/-- Seat of a rank. -/
def Job.rankSeat (j : Job) (g r : Nat) : Nat :=
  let w := (j.csection.getD (8 * (j.groupAt g + 1 + r / 32) + r % 32 / 4) 0).toNat
  bits w (16 * (r % 4) + 11) (16 * (r % 4))
/-- Words of collective descriptor `i`. -/
def Job.cdesc (j : Job) (i : Nat) : List W64 := j.centry (j.groupAt j.groupCount + i)

/-- Fields of a collective descriptor (Table 13.4). -/
def cOp (c : List W64) : Nat := fld (c.getD 0 0) 63 60
/-- ALGO. -/
def cAlgo (c : List W64) : Nat := fld (c.getD 0 0) 59 58
/-- GROUP. -/
def cGroup (c : List W64) : Nat := fld (c.getD 0 0) 57 52
/-- LAYER. -/
def cLayer (c : List W64) : Nat := fld (c.getD 0 0) 51 42
/-- SEG_FIRST. -/
def cSegFirst (c : List W64) : Nat := fld (c.getD 0 0) 41 30
/-- SEG_COUNT. -/
def cSegCount (c : List W64) : Nat := fld (c.getD 0 0) 29 17
/-- ROOT. -/
def cRoot (c : List W64) : Nat := fld (c.getD 1 0) 63 52
/-- SRC. -/
def cSrc (c : List W64) : Nat := fld (c.getD 1 0) 47 0
/-- DST. -/
def cDst (c : List W64) : Nat := fld (c.getD 2 0) 47 0
/-- BYTES. -/
def cBytes (c : List W64) : Nat := (c.getD 3 0).toNat
/-- KEY. -/
def cKey (c : List W64) : Nat := fld (c.getD 4 0) 63 32
/-- SCRATCH. -/
def cScratch (c : List W64) : Nat := fld (c.getD 5 0) 47 0
/-- The segments of a descriptor's range. -/
def cSegs (c : List W64) : List Nat := (List.range (cSegCount c)).map (cSegFirst c + ·)

/-- The REDUCE descriptor of a segment, whose group is its reduction group. -/
def Job.reduceOf (j : Job) (seg : Nat) : Option Nat :=
  (List.range j.cdescCount).find? fun i => cOp (j.cdesc i) < 2 && (cSegs (j.cdesc i)).contains seg

/-- The first VOTE descriptor: what vote messages name. -/
def Job.voteDesc (j : Job) : Nat := ((List.range j.cdescCount).find? fun i => cOp (j.cdesc i) == 7).getD 0

/-! Ranks. -/

/-- (a - b) mod p for ranks. -/
def rankSub (p a b : Nat) : Nat := (a + p - b % p) % p

/-- The shard of chunk `c` of K chunks among P (R486). -/
def shardOf (k p c : Nat) : Nat := ((List.range p).find? fun i => i * k / p ≤ c && c < (i + 1) * k / p).getD 0

/-- The chunks of shard `i` (R486). -/
def shardChunks (k p i : Nat) : List Nat := (List.range k).filter fun c => i * k / p ≤ c && c < (i + 1) * k / p

/-- The canonical tree (R487): the lowest set bit of a rank. -/
def lowBit (r : Nat) : Nat := ((List.range 13).find? fun k => r.testBit k).getD 13

/-- Parent of a rank other than 0 in the canonical tree: rank lo + h sends to rank lo. -/
def treeParent (r : Nat) : Nat := r - 2 ^ lowBit r

/-- Children of a rank in the canonical tree, in the order their partials combine. -/
def treeKids (p r : Nat) : List Nat := ((List.range (lowBit r)).map fun k => r + 2 ^ k).filter (· < p)

/-- Children of a rank in the vote tree (R502). -/
def voteKids (p a r : Nat) : List Nat := ((List.range a).map fun i => a * r + 1 + i).filter (· < p)

/-- Ranks of the subtree of the vote tree whose level holds `lo` to `hi` (R502). -/
def subtree (p a : Nat) : Nat → Nat → Nat → Nat
  | 0, _, _ => 0
  | n + 1, lo, hi => if p ≤ lo then 0 else min p (hi + 1) - lo + subtree p a n (a * lo + 1) (a * hi + a)

/-! Messages. -/

/-- CHUNK of messages that carry no chunk (R484). -/
def noChunk : Nat := 0xFFFFF

/-- The header of a collective message (Table 13.5). -/
def collHeader (ctype round cdesc rank ring chunk : Nat) (step : W64) : List W64 :=
  [pack [(ctype, 60, 4), (round, 56, 4), (cdesc, 40, 16), (step.toNat, 0, 32)], pack [(rank, 52, 12), (ring, 39, 13), (chunk, 19, 20)]]

/-- The engine that sends for a descriptor: the one that holds its request, and engine 0 where none does (DESIGN CHOICE, log 229). -/
def Job.engineOf (j : Job) (cdesc : Nat) : Nat := ((j.coll.runs.find? fun r => r.cdesc == cdesc).map fun r => r.tile / 512).getD 0

/-- Send a collective message to a rank (R485); one with a chunk when its engine may send it (R495). -/
def sendColl (j : Job) (g rank ctype round cdesc ring chunk : Nat) (data : List Byte) (s : State) : State :=
  let seat := j.rankSeat g rank
  let h := collHeader ctype round cdesc (j.myRank g) ring chunk j.step
  if chunk == noChunk then sendToSeat j.part seat chunk h data s
  else pumpChunks (onFab (fun b => { b with chunks := b.chunks ++ [⟨j.engineOf cdesc, j.part, j.num, seat, chunk, h, data⟩] }) s)

/-- Change what the engines hold. -/
def onColl (j : Job) (f : CollRun → CollRun) (s : State) : State := onJob j.part j.num (fun j => { j with coll := f j.coll }) s

/-- The job as the state holds it now. -/
def fresh (j : Job) (s : State) : Job := (jobOf j.part j.num s).getD j

/-- A collective message that is discarded (R485): counted, and reported once a run. -/
def collLate (j : Job) (die ctype rank : Nat) (s : State) : State :=
  let s := onPart j.part (fun p => { p with lateMessages := p.lateMessages + 1 }) s
  if (fresh j s).coll.lateRaised then s
  else raiseJ j 0x9001 (unitDomino die) (pack [(ctype, 60, 4), (rank, 0, 12)]) (onColl j (fun c => { c with lateRaised := true }) s)

/-- Words of `n` bytes as bytes. -/
def wordBytes (n : Nat) (l : List Nat) : List Byte := l.flatMap (leBytes n)

/-- Bytes as words of `n` bytes. -/
def bytesWords (n : Nat) (b : List Byte) : List Nat := (List.range (b.length / max 1 n)).map fun i => leNat ((b.drop (n * i)).take n)

end Sys2Proof.Machine
end

