-- ==== Sys2Proof/Machine/Orders.lean ====
section
/-! DEFINITION. Machine/Orders.lean: the order arbiter, its slates and partition reset (05 R181 to R191, R52, R574). -/
namespace Sys2Proof.Machine

/-- KIND of an order word (Table 5.15a). -/
def orderKind (w : W64) : Nat := fld w 63 56
/-- TARGET of an order word. -/
def orderTarget (w : W64) : Nat := fld w 47 40
/-- SCRUB of an order word. -/
def orderScrub (w : W64) : Bool := bit w.toNat 32
/-- VALUE of an order word. -/
def orderValue (w : W64) : Nat := fld w 31 16

/-- An order word of one KIND: the row of the table fixes the kind. -/
def withKind (k : Nat) (w : W64) : W64 := pack [(k, 56, 8), (fld w 55 0, 0, 56)]

/-- The slot of a master. -/
def slotOf (mid : Nat) (s : State) : OrderSlot := (s.orders.slots.find? fun o => o.mid == mid).getD { mid }

/-- Change the slot of a master. -/
def onSlot (mid : Nat) (f : OrderSlot → OrderSlot) (s : State) : State :=
  { s with orders := { s.orders with slots := s.orders.slots.map fun o => if o.mid == mid then f o else o } }

/-- The shelf state (R67). -/
def shelf (s : State) : Bool := s.boot.stage == 4

/-- INVALID (R184): a reserved KIND, a TARGET out of range, or a non-zero RSVD or unused field. -/
def orderInvalid (w : W64) (s : State) : Bool :=
  let k := orderKind w
  let t := orderTarget w
  !inRange k 1 6 || fld w 55 48 != 0 || fld w 39 33 != 0
    || (if k == 3 || k == 4 then 35 < t else if k == 5 then !present t s else t != 0)
    || (orderScrub w && k != 5) || (orderValue w != 0 && k != 1)

/-- The permission a KIND needs (R184, Table 2.6). -/
def permitted (k : Nat) (m : MasterCfg) : Bool :=
  match k with
  | 1 => m.powerCap
  | 2 => m.clockResync
  | 3 => m.linkControl
  | 4 => m.linkControl
  | 5 => m.partitionReset
  | 6 => m.moduleReset
  | _ => false

/-- REFUSED (R43, R67, R184): no permission, or out of the master's scope; in the shelf state only MODULE_RESET of 0x01. -/
def orderRefused (o : Order) (s : State) : Bool :=
  let k := orderKind o.word
  let t := orderTarget o.word
  if shelf s then !(o.mid == 0x01 && k == 6)
  else match masterOf o.mid s with
    | none => true
    | some m =>
      !permitted k m || (k == 5 && !m.partitions.testBit t)
        || ((k == 3 || k == 4) && inRange o.mid 0x10 0x13 &&
            match partOfPort (o.mid - 0x10) s with
            | some n => !((((partCfgs s)[n]?).map PartCfg.links).getD 0).testBit t
            | none => true)

/-- PRECEDENCE of a master; 0 is the highest (R41). -/
def precedenceOf (mid : Nat) (s : State) : Nat := ((masterOf mid s).map MasterCfg.precedence).getD 0

/-- A cap bounded under R52: at least 1,200 W, at most CAP_W. -/
def boundCap (v : Nat) (s : State) : Nat := max 1200 (min v (powerCfg s).capW)

/-- The outcome of one checked order among the checked orders of its slate (R185): DONE 2 or SUPERSEDED 3. -/
def resolve (o : Order) (slate : List Order) (s : State) : Nat :=
  let k := orderKind o.word
  let same := slate.filter fun p => orderKind p.word == k
  let best := fun (l : List Order) => l.all fun p => precedenceOf o.mid s ≤ precedenceOf p.mid s
  let reset := slate.any fun p => orderKind p.word == 6
  if k == 6 then if best same then 2 else 3
  else if reset then 3
  else match k with
    | 1 => if same.all fun p => boundCap (orderValue o.word) s ≤ boundCap (orderValue p.word) s then 2 else 3
    | 2 => if best same then 2 else 3
    | 4 => if slate.any fun p => orderKind p.word == 3 && orderTarget p.word == orderTarget o.word then 3 else 2
    | 5 => if best (same.filter fun p => orderTarget p.word == orderTarget o.word) then 2 else 3
    | _ => 2

/-- The completion code of a management order (R574). -/
def orderCode : Nat → Nat
  | 2 => 0x00
  | 5 => 0x02
  | 3 => 0x80
  | _ => 0x81

/-- ORDER_STATUS (R183). -/
def orderStatusReg (o : OrderSlot) : W64 :=
  pack [(o.tag, 48, 16), (o.applied, 32, 16), (o.kind, 24, 8), (o.status, 0, 8)]

/-- An order leaves PENDING (R183, R186): vector 19 for a host (R162), a PLDM answer for 0x01 (R574), an answer to the fabric
manager for 0x40 (R44). APPLIED of a POWER_CAP order is the cap in force after its slate. -/
def finishOrder (mid status : Nat) (s : State) : State :=
  let s := onSlot mid (fun o => { o with status, applied := if o.kind == 1 then s.power.cap else 0 }) s
  if inRange mid 0x10 0x13 then msix (mid - 0x10) 19 s
  else if mid == 0x01 then send (.mgmtReply 0 (orderCode status) [orderStatusReg (slotOf mid s)]) s
  else send (.fabricManager s.fab.fmOrderFrom (orderStatusReg (slotOf mid s))) s

/-- Start the reset of a partition (R188, R189): STATE 0x3, READY clears, fetching stops, its work stops; its outstanding requests are
abandoned and the fabric manager is told. In the clock-loss wait, the switch that leaves it included, the reset is held (R191). -/
def startReset (n : Nat) (scrub : Bool) (waiters : List Nat) (s : State) : State :=
  let held := s.clk.gated
  let s := { s with boot := { s.boot with ready := s.boot.ready &&& (15 - 2 ^ n) } }
  let s := stopPartition n
    (onPart n (fun p => { p with state := 3, resetting := some { scrub, waiters, again := none, held } }) s)
  if held then s else tellReset n s

/-- PARTITION_RESET of a partition (R187): a new reset, or joined to the one that runs, or run again after it with SCRUB. -/
def resetPartition (n : Nat) (scrub : Bool) (waiters : List Nat) (s : State) : State :=
  match (partOf n s).resetting with
  | none => startReset n scrub waiters s
  | some r =>
    let r := if scrub && !r.scrub then { r with again := some ((r.again.getD []) ++ waiters) }
      else { r with waiters := r.waiters ++ waiters }
    onPart n (fun p => { p with resetting := some r }) s

/-- Apply the DONE orders of one KIND in a slate (R186). -/
def applyKind (k : Nat) (done : List Order) (s : State) : State :=
  let l := done.filter fun o => orderKind o.word == k
  match k with
  | 1 => match l with
    | [] => s
    | o :: r =>
      let w := r.foldl (fun b p => if precedenceOf p.mid s < precedenceOf b.mid s then p else b) o
      let cap := boundCap (orderValue w.word) s
      raiseM none 0xB001 0 (pack [(cap, 0, 16), (w.mid, 16, 8)]) { s with power := { s.power with cap, ticks := [], capNew := true } }
  | 2 => l.foldl (fun s _ => resync s) s
  | 3 => l.foldl (fun s o => orderLink (orderTarget o.word) false s) s
  | 4 => l.foldl (fun s o => orderLink (orderTarget o.word) true s) s
  | 5 => l.foldl (fun s o => resetPartition (orderTarget o.word) (orderScrub o.word) [o.mid] s) s
  | _ => s

/-- ORDER_SLATE_RESOLVE (R184 to R187): check each order, resolve the slate, apply the DONE ones in order, then statuses. In the
shelf state every order but MODULE_RESET of 0x01 is REFUSED, whatever it holds (R67). A PARTITION_RESET that won stays PENDING until its reset completes; a MODULE_RESET that won schedules the reset. -/
def resolveSlate (s : State) : State :=
  let slate := s.orders.slate
  let s := { s with orders := { s.orders with slate := [] } }
  let valid := slate.filter fun o => !orderInvalid o.word s && !orderRefused o s
  let outcome := fun o =>
    if shelf s && orderRefused o s then 4
    else if orderInvalid o.word s then 5 else if orderRefused o s then 4 else resolve o valid s
  let res := slate.map fun o => (o, outcome o)
  let done := (res.filter fun r => r.2 == 2).map Prod.fst
  let s := [1, 3, 4, 2, 5].foldl (fun s k => applyKind k done s) s
  let s := match done.find? fun o => orderKind o.word == 6 with
    | some w =>
      let lost := (res.filter fun r => r.2 == 3).map fun r => r.1.mid
      let pend : PendingReset := { winner := w.mid, superseded := lost }
      { s with orders := { s.orders with resetPending := some (s.orders.resetPending.getD pend) } }
    | none => s
  res.foldl (fun s r => if r.2 == 2 && orderKind r.1.word == 5 then s else finishOrder r.1.mid r.2 s) s

/-- An order reaches the arbiter (R181, R574): before lock or shelf there is no slot; a PENDING slot ignores the write, with
a host-access-error for a host and ERROR_NOT_READY for 0x01; the last order of the control cycle resolves the slate. -/
def enterOrder (mid : Nat) (w : W64) (last : Bool) (s : State) : State :=
  if !(s.boot.bpState == 1 || s.boot.bpState == 2 || s.boot.bpState == 3) then
    if mid == 0x01 then send (.mgmtReply 0 0x04 []) s else s
  else if !externalMids.contains mid then s
  else
    let s :=
      if (slotOf mid s).status == 1 then
        if inRange mid 0x10 0x13 then hostAccessError (mid - 0x10) 0x1800 s
        else if mid == 0x01 then send (.mgmtReply 0 0x04 []) s else s
      else
        let s := onSlot mid (fun o => { o with tag := fld w 15 0, kind := orderKind w, status := 1, applied := 0 }) s
        { s with orders := { s.orders with slate := s.orders.slate ++ [{ mid, word := w }] } }
    if last then resolveSlate s else s

end Sys2Proof.Machine
end

