-- ==== Sys2Proof/Machine/Vector.lean ====
section
/-! DEFINITION. Machine/Vector.lean: the vector unit (06 R225, 08 R278, R279): ELEM, REDUCE, CONVERT, RAND. -/
namespace Sys2Proof.Machine

/-- The fields of a VEC instruction (Table 8.11); XEN adds to ROW. -/
structure VecFields where
  a : Nat
  b : Nat
  dst : Nat
  func : Nat
  row : Nat
  rows : Nat
  cols : Nat
  epi : Nat
deriving DecidableEq, Repr

/-- Read the body of a VEC. -/
def vecFields (x : JobTile) (w : W128) : VecFields :=
  { a := ifld w 103 96, b := ifld w 95 88, dst := ifld w 87 80, func := ifld w 79 72,
    row := (ifld w 71 52 + x.xval w) % 2 ^ 20, rows := ifld w 51 36, cols := ifld w 35 20, epi := ifld w 19 12 }

/-- The ranges of elements (row, 0) to (row, n - 1) of a tensor. -/
def rowRanges (d : Desc) (r n : Nat) : List (Nat × Nat) :=
  if d.kdim then (List.range n).flatMap fun c => d.spans c r 1 else d.spans r 0 n

/-- The row of the second source for row `r` (R278): one row is applied to every row. -/
def secondRow (d : Desc) (r : Nat) : Nat := if d.rows == 1 then 0 else r

/-- A binary ELEM function (Table 8.12) on FP32 encodings; `old` is the destination's value. -/
def elemFunc (func a b old : Nat) : Nat :=
  match func with
  | 0x00 => f32Add a b
  | 0x01 => f32Sub a b
  | 0x02 => f32Mul a b
  | 0x03 => f32Fma a b old
  | 0x04 => f32Min a b
  | 0x05 => f32Max a b
  | 0x06 => f32Lt a b
  | _ => vecFunction func a

/-- Most elements of a row reduction (Table 6.7). -/
def reduceLimit : Nat := 4096

/-- The results of one row of a VEC, as values at columns 0, 1, ... . `free` stands for a second source that is not there, and gives the
reduction of a row longer than Table 6.7 states. -/
def vecRow (op : Nat) (f : VecFields) (x : JobTile) (j : Job) (e : Epi) (free : Nat) (m : Mem) (r : Nat) : List Val :=
  let a := x.desc f.a
  let b := x.desc f.b
  let d := x.desc f.dst
  let row := (List.range f.cols).map fun c => f32Cell a r c m
  match op with
  | 0 => row.zipIdx.map fun p =>
      let bv := if f.b == 0xFF then free else f32Cell b (secondRow b r) p.2 m
      ofF32 (elemFunc f.func p.1 bv (if f.func == 3 then f32Cell d r p.2 m else 0))
  | 1 => [ofF32 (if reduceLimit < f.cols then leNat ((List.range 4).map fun i => Config.freeByte free (4 * r + i))
      else rowReduce f.func row)]
  | 2 => row.map ofF32
  | _ => (List.range f.cols).map fun c =>
      .fin false (draw (diceKey j e x.tile 2) (elemIndex e.elemBase r e.rowStride c)) (-16)

/-- The draw of a vector-unit conversion (R245). -/
def vecDraw (j : Job) (e : Epi) (t r c : Nat) : Nat :=
  if e.round == 2 then draw (diceKey j e t 1) (elemIndex e.elemBase r e.rowStride c) else 0

/-- Convert one row of results into the destination format (R241, R279). -/
def vecConvert (fmt : Nat) (j : Job) (e : Epi) (t r : Nat) (vs : List Val) (k : Converted) : Converted :=
  if isMx fmt then
    (steps 32 vs.zipIdx).foldl (fun k blk =>
      let (x, cs) := mxConvert fmt e.round (blk.map Prod.fst) (blk.map fun p => vecDraw j e t r p.2)
      { elems := k.elems ++ (blk.zip cs).map fun q => (r, q.1.2, q.2.code),
        scales := k.scales ++ [(r, (blk.map Prod.snd).headD 0, x)], num := k.num.wroteBlock x cs }) k
  else
    vs.zipIdx.foldl (fun k p =>
      let v := convert fmt e.round (vecDraw j e t r p.2) e.sat p.1
      { k with elems := k.elems ++ [(r, p.2, v.code)], num := k.num.wrote fmt v }) k

/-- The ranges a VEC reads. -/
def vecReads (op : Nat) (f : VecFields) (x : JobTile) : List (Nat × Nat) :=
  (List.range f.rows).flatMap fun i =>
    let r := f.row + i
    (if op == 3 then [] else rowRanges (x.desc f.a) r f.cols) ++
    (if op == 0 && f.b != 0xFF && f.func < 0x10 then rowRanges (x.desc f.b) (secondRow (x.desc f.b) r) f.cols else []) ++
    (if op == 0 && f.func == 3 then rowRanges (x.desc f.dst) r f.cols else [])

/-- A VEC instruction issues and the vector unit writes its results (R278, R279). -/
def vec (op t : Nat) (c : Ctx) (waits : List (Nat × Nat)) (s : State) : State :=
  whenIssued t c 2 op s fun j x w =>
    let f := vecFields x w
    let e := (x.epi f.epi).getD Epi.none
    let d := x.desc f.dst
    match checkReads j t (vecReads op f x) s with
    | some st => stopAt j t st s
    | none =>
      if !mayRead j x (vecReads op f x) s then s else
      let (fv, s) := if (op == 0 && f.b == 0xFF && f.func < 0x10) || (op == 1 && reduceLimit < f.cols) then freeWord s else (0, s)
      let k := (List.range f.rows).foldl (fun k i =>
        vecConvert d.format j e t (f.row + i) (vecRow op f x j e (fv.toNat % 2 ^ 32) s.mem (f.row + i)) k)
        ({ elems := [], scales := [], num := x.num } : Converted)
      let rs := k.ranges d
      match checkWrites j.part t rs s with
      | some st => stopAt j t st s
      | none =>
        let s := issueTo .vector 0 waits j x w (prepareWrites j t rs (countSpill j t false (vecReads op f x) s))
          (accessClass j.part t (vecReads op f x ++ rs) s)
        let s := onTile j t (fun y => { y with num := k.num }) s
        finishWrites j.part rs s.mem { s with mem := k.store d.format d s.mem }

/-- Whether key `a` ranks above key `b` (R381): a NaN ranks below every other key. -/
def ranksAbove (a b : Nat) : Bool :=
  ofF32 a != .nan && (ofF32 b == .nan || (ofF32 b).lt (ofF32 a))

/-- Put a column behind all that do not rank below it (R381): columns come in ascending order. -/
def rankInto (p : Nat × Nat) : List (Nat × Nat) → List (Nat × Nat)
  | [] => [p]
  | q :: r => if ranksAbove p.1 q.1 then p :: q :: r else q :: rankInto p r

/-- The columns of a row in rank order, by their keys (R381). -/
def rankColumns (keys : List Nat) : List Nat := (keys.zipIdx.foldl (fun l p => rankInto p l) []).map Prod.snd

/-- The 2k words that TOPK writes for row `r` (R380, R381): indices, then the selected values, a NaN as the canonical one (R234). -/
def topkRow (f : VecFields) (x : JobTile) (m : Mem) (r : Nat) : List Nat :=
  let a := x.desc f.a
  let b := x.desc f.b
  let vals := (List.range f.cols).map fun c => rdElem a (a.place r c).1 (a.place r c).2 m
  let keys := if f.b != 0xFF && b.format == 0 then vals.zipIdx.map fun p => f32Add p.1 (f32Cell b 0 p.2 m) else vals
  let off := if f.b != 0xFF && b.format == 0xB then rdElem b (b.place (secondRow b r) 0).1 (b.place (secondRow b r) 0).2 m else 0
  let best := (rankColumns keys).take f.func
  best.map (fun c => (c + off) % 2 ^ 32) ++ best.map fun c => canonF32 (vals.getD c 0)

/-- The ranges a TOPK reads. -/
def topkReads (f : VecFields) (x : JobTile) : List (Nat × Nat) :=
  (List.range f.rows).flatMap fun i =>
    let b := x.desc f.b
    rowRanges (x.desc f.a) (f.row + i) f.cols ++
    (if f.b == 0xFF then [] else if b.format == 0 then rowRanges b 0 f.cols else rowRanges b (secondRow b (f.row + i)) 1)

/-- TOPK (R380, R381): the first k columns of each row in rank order; the NaNs and infinities written are counted (R246). -/
def topk (t : Nat) (c : Ctx) (waits : List (Nat × Nat)) (s : State) : State :=
  whenIssued t c 2 4 s fun j x w =>
    let f := vecFields x w
    let d := x.desc f.dst
    let rows := (List.range f.rows).map (f.row + ·)
    let ws := rows.flatMap fun r => rowRanges d r (2 * f.func)
    match (checkReads j t (topkReads f x) s).orElse fun _ => checkWrites j.part t ws s with
    | some st => stopAt j t st s
    | none =>
      if !mayRead j x (topkReads f x) s then s else
      let out := rows.map fun r => (r, topkRow f x s.mem r)
      let vals := out.flatMap fun p => p.2.drop f.func
      let s := issueTo .vector 0 waits j x w (prepareWrites j t ws (countSpill j t false (topkReads f x) s))
        (accessClass j.part t (topkReads f x ++ ws) s)
      let s := onTile j t (fun y => { y with num := vals.foldl (fun n v => n.wrote 0 { code := v }) y.num }) s
      finishWrites j.part ws s.mem { s with mem := out.foldl (fun m p => p.2.zipIdx.foldl (fun m q =>
        wrElem 0xB d (d.place p.1 q.2).1 (d.place p.1 q.2).2 q.1 m) m) s.mem }

/-- ELEM. -/
def execElem (tile : Nat) (ctx : Ctx) (waits : List (Nat × Nat)) (s : State) : Host.Outcome State Fault Refusal :=
  .next (vec 0 tile ctx waits s)
/-- REDUCE. -/
def execReduce (tile : Nat) (ctx : Ctx) (waits : List (Nat × Nat)) (s : State) : Host.Outcome State Fault Refusal :=
  .next (vec 1 tile ctx waits s)
/-- CONVERT. -/
def execConvert (tile : Nat) (ctx : Ctx) (waits : List (Nat × Nat)) (s : State) : Host.Outcome State Fault Refusal :=
  .next (vec 2 tile ctx waits s)
/-- RAND. -/
def execRand (tile : Nat) (ctx : Ctx) (waits : List (Nat × Nat)) (s : State) : Host.Outcome State Fault Refusal :=
  .next (vec 3 tile ctx waits s)
/-- TOPK. -/
def execTopk (tile : Nat) (ctx : Ctx) (waits : List (Nat × Nat)) (s : State) : Host.Outcome State Fault Refusal :=
  .next (topk tile ctx waits s)

end Sys2Proof.Machine
end

