-- ==== Sys2Proof/Machine/Routing.lean ====
section
/-! DEFINITION. Machine/Routing.lean: the Jacks engines (11_expert_routing.md): requests, queue uses and their frames, the count
phase and grants, rows, feeding, combine and gradients, index copies. The two engines share their state; a message to the
module's own member is handled at once, others leave on VL2. -/
namespace Sys2Proof.Machine

/-- The pod member of the module (R53): SEAT modulo 64. -/
def ownMember (s : State) : Nat := ownSeatOf s % 64

/-- The member number that the module's messages of a map carry (R414). -/
def selfOf (m : List W64) (s : State) : Nat := if mLocal m then mReplay m else ownMember s

/-- The dispatch group (R384, R414). -/
def groupOf (m : List W64) : List Nat := if mLocal m then [mReplay m] else mGroup m

/-- Member and local number of expert `e` (R384, R414). -/
def Job.home (j : Job) (mi e : Nat) : Nat × Nat :=
  if mLocal (j.rmap mi) then (mReplay (j.rmap mi), e) else (bits (j.placement mi e) 15 10, bits (j.placement mi e) 9 5)

/-- The experts of a map on member `d`, in ascending local number: (expert, local number) (R396). -/
def Job.expertsOn (j : Job) (mi d : Nat) : List (Nat × Nat) :=
  let l := (List.range (mExperts (j.rmap mi))).filterMap fun e => if (j.home mi e).1 == d then some (e, (j.home mi e).2) else none
  (List.range 512).filterMap fun k => l.find? fun p => p.2 == k

/-- The queue of a local expert (R385, R414). -/
def Job.queueOf (j : Job) (mi le : Nat) : Nat :=
  let m := j.rmap mi
  if mLocal m then mQueue0 m + le
  else ((List.range j.queueCount).find? fun q => qLayer (j.rqueue q) == mLayer m && qLocal (j.rqueue q) == le).getD 0

/-- The queues of the experts on this module, in ascending local number. -/
def Job.localQueues (j : Job) (mi : Nat) (s : State) : List Nat :=
  (j.expertsOn mi (selfOf (j.rmap mi) s)).map fun p => j.queueOf mi p.2

/-- The job as the state holds it now. -/
def refresh (j : Job) (s : State) : Job := (jobOf j.part j.num s).getD j

/-- Change what the engines hold of a job. -/
def onRoute (j : Job) (f : RouteRun → RouteRun) (s : State) : State := onJob j.part j.num (fun j => { j with route := f j.route }) s

/-- A use is the one of a queue, direction and micro-batch. -/
def QUse.is (u : QUse) (q : Nat) (grad : Bool) (micro : Nat) : Bool := u.queue == q && u.grad == grad && u.micro == micro

/-- The use of a queue. -/
def Job.quse (j : Job) (q : Nat) (grad : Bool) (micro : Nat) : Option QUse := j.route.quses.find? fun u => u.is q grad micro

/-- Change a queue use. -/
def onQUse (j : Job) (q : Nat) (grad : Bool) (micro : Nat) (f : QUse → QUse) (s : State) : State :=
  onRoute j (fun r => { r with quses := r.quses.map fun u => if u.is q grad micro then f u else u }) s

/-- The token-side use of a descriptor. -/
def Job.tuse (j : Job) (d micro : Nat) : Option TUse := j.route.tuses.find? fun u => u.desc == d && u.micro == micro

/-- Change a token-side use. -/
def onTUse (j : Job) (d micro : Nat) (f : TUse → TUse) (s : State) : State :=
  onRoute j (fun r => { r with tuses := r.tuses.map fun u => if u.desc == d && u.micro == micro then f u else u }) s

/-- Count in a queue record (R407): fields saturate. -/
def onQRec (j : Job) (q : Nat) (f : QueueRec → QueueRec) (s : State) : State :=
  onRoute j (fun r => { r with qrecs := on0 {} q f r.qrecs }) s

/-- Count in a token-side record (R408). -/
def onTRec (j : Job) (d : Nat) (f : TokenRec → TokenRec) (s : State) : State :=
  onRoute j (fun r => { r with trecs := on0 {} d f r.trecs }) s

/-- The KIND 0 descriptor of a layer (R391). -/
def Job.tokenDesc (j : Job) (layer : Nat) : Option Nat :=
  (List.range j.jdescCount).find? fun i => dKind (j.jdesc i) == 0 && dLayer (j.jdesc i) == layer

/-- A jacks-protocol event (R409): message type and source member. -/
def protocolEvent (j : Job) (die mtype src : Nat) (s : State) : State :=
  raiseJ j 0x7003 (unitJacks die) (pack [(mtype, 60, 4), (src, 48, 6)]) s

/-- A message that is not accepted (R396): counted, and reported once a run. -/
def lateMessage (j : Job) (mtype src : Nat) (s : State) : State :=
  let s := onPart j.part (fun p => { p with lateMessages := p.lateMessages + 1 }) s
  if (refresh j s).route.lateRaised then s
  else protocolEvent j 0 mtype src (onRoute j (fun r => { r with lateRaised := true }) s)

/-- The header of a Jacks message (Table 11.8). -/
def jacksHeader (mtype src layer micro le jc token slot : Nat) : List W64 :=
  [pack [(mtype, 60, 4), (src, 54, 6), (layer, 44, 10), (micro, 36, 8), (le, 27, 9), (jc, 24, 3)],
   pack [(token, 32, 19), (slot, 0, 32)]]

/-- A message to a member (R396): `here` handles one to the module itself, any other leaves on VL2. -/
def toMember (n : Nat) (m : List W64) (d : Nat) (h : List W64) (data : List Byte) (here : State → State) (s : State) : State :=
  if d == selfOf m s then here s else sendMessage n d 2 0x90 (jacksIndex h) h data s

/-- Words of 32 bits as bytes. -/
def u32Bytes (l : List Nat) : List Byte := l.flatMap (leBytes 4)

/-- Bytes as words of 32 bits. -/
def bytesU32 (b : List Byte) : List Nat := (List.range (b.length / 4)).map fun i => leNat ((b.drop (4 * i)).take 4)

/-! Frames, slots and tags. -/

/-- Frame `f` has an area free for a use in this direction (R389). -/
def Job.areaFree (j : Job) (q : Nat) (grad : Bool) (f : Nat) : Bool :=
  !j.route.quses.any fun u => u.queue == q && u.frame == some f && !u.freed && (qShared (j.rqueue q) || u.grad == grad)

/-- Bits of arrival maps that engine `die` has lent (R395). -/
def mapBitsUsed (die : Nat) (s : State) : Nat :=
  (s.jobs.map fun j =>
    (j.route.tuses.map fun u => if u.die == die then (b2n u.fwdMap + b2n u.gradMap) * (dTokens (j.jdesc u.desc) * dK (j.jdesc u.desc))
      else 0).sum +
    (j.route.quses.map fun u => if u.die == die && u.frame.isSome && !u.freed then j.capacity u.queue else 0).sum).sum

/-- The engine that a request comes to (R291). -/
def RReq.die (r : RReq) : Nat := r.tile / 512

/-- The arrival maps of an engine (R395). -/
def mapBits : Nat := 2097152

/-- The lowest frame whose area is free for a use that is the first in line (R389). -/
def Job.frameOpen (j : Job) (u : QUse) : Option Nat :=
  let first := j.route.quses.find? fun v => v.queue == u.queue && v.frame == none && !v.freed &&
    (qShared (j.rqueue u.queue) || v.grad == u.grad)
  if (first.map fun v => v.is u.queue u.grad u.micro) == some true then
    (List.range (qFrames (j.rqueue u.queue))).find? fun f => j.areaFree u.queue u.grad f
  else none

/-- A request that came to engine `die` before request `id` waits for map bits (R395): bits are given in the order of requests. -/
def Job.bitsAhead (j : Job) (die id : Nat) : Bool :=
  (j.route.reqs.any fun q => q.id < id && q.die == die && !q.admitted && q.waited == 2) ||
    j.route.quses.any fun v => v.req < id && v.die == die && v.frame == none && !v.freed && (j.frameOpen v).isSome

/-- The frame a use takes now (R389), if the engine has the bits for its map (R395). -/
def Job.frameFor (j : Job) (u : QUse) (s : State) : Option Nat :=
  if mapBitsUsed u.die s + j.capacity u.queue ≤ mapBits && !j.bitsAhead u.die u.req then j.frameOpen u else none

/-- The empty slots of a use, from `n` on: empty tags, and rows of +0 with FILL_EMPTY (R398, R400, R404). -/
def emptySlots (j : Job) (q base n : Nat) (s : State) : State :=
  let c := j.capacity q
  let s := if n < c then jobStore j (j.tagAddr q base n) (List.replicate (8 * (c - n)) 0) s else s
  if qFill (j.rqueue q) && n < c then
    jobStore j (j.slotAddr q base n) (List.replicate ((c - n) * j.rowBytes (qLayer (j.rqueue q))) 0) s
  else s

/-- A use is freed when its releases have been issued and its rows have arrived (R389, R410). -/
def QUse.settle (releasers : Nat) (u : QUse) : QUse :=
  match u.used with
  | some n => if releasers ≤ u.releases && popcount u.arrived n == n then { u with freed := true } else u
  | none => u

/-- A slot's tag (Table 11.4). -/
def slotTag (src jc token : Nat) : Nat := packN [(1, 63, 1), (src, 57, 6), (jc, 54, 3), (token, 0, 19)]

/-- A row for a slot arrives (R388, R400, R410): written with its tag; a slot written before keeps its first row. -/
def slotRow (j : Job) (q : Nat) (grad : Bool) (micro src jc token slot : Nat) (row : List Byte) (s : State) : State :=
  let mt := if grad then 6 else 2
  let j := refresh j s
  match j.quse q grad micro with
  | some u =>
    match u.frame, u.used with
    | some f, some n =>
      if u.freed || n ≤ slot then lateMessage j mt src s
      else if u.arrived.testBit slot then
        protocolEvent j u.die mt src (onPart j.part (fun p => { p with lateMessages := p.lateMessages + 1 }) s)
      else
        let base := j.areaBase q f grad s
        let s := jobStore j (j.slotAddr q base slot) row s
        let s := jobStore j (j.tagAddr q base slot) (leBytes 8 (slotTag src jc token)) s
        onQUse j q grad micro (fun u => { u with arrived := u.arrived ||| 2 ^ slot }.settle (qReleasers (j.rqueue q))) s
    | _, _ => lateMessage j mt src s
  | none => lateMessage j mt src s

/-- Ranges that an engine reads for a job: a poisoned line stops the run (R326). -/
def jacksReads (j : Job) (rs : List (Nat × Nat)) (s : State) : Option State :=
  (rs.findSome? fun r => poisoned r.1 r.2 s).map fun a => stopAt j 0 ⟨0x000D, a⟩ s

/-! The token side. -/

/-- Place of token `r` of micro-batch `m` in the token-side arrays (R392): p. -/
def tokenPlace (d : List W64) (micro r : Nat) : Nat := micro % (max 1 (dSlots d)) * dTokens d + r

/-- Address of route record (r, j) (R392). -/
def recordAddr (d : List W64) (micro r jc : Nat) : Nat := dAddr d 4 + (tokenPlace d micro r * dK d + jc) * 8

/-- Address of the expert index of (r, j), and of its gate (R392). -/
def indexAddr (d : List W64) (micro r jc : Nat) : Nat := dAddr d 3 + tokenPlace d micro r * 8 * dK d + 4 * jc
/-- Address of gate j. -/
def gateAddr (d : List W64) (micro r jc : Nat) : Nat := dAddr d 3 + tokenPlace d micro r * 8 * dK d + 4 * dK d + 4 * jc

/-- A route record (Table 11.6). -/
def routeRecord (dropped bad : Bool) (member le slot : Nat) : Nat :=
  packN [(1, 63, 1), (b2n dropped, 62, 1), (b2n bad, 61, 1), (member, 55, 6), (le, 46, 9), (slot, 0, 32)]

/-- The route record of (r, j) in memory. -/
def rdRecord (d : List W64) (micro r jc : Nat) (s : State) : Nat := rdNat (recordAddr d micro r jc) 8 s.mem

/-- Every choice of a micro-batch as (r, j), ascending. -/
def choicesOf (d : List W64) (row rows : Nat) : List (Nat × Nat) :=
  (List.range rows).flatMap fun i => (List.range (dK d)).map fun jc => (row + i, jc)

/-- A GRANT arrives (R399): the route records of the choices on that member are written, and the kept rows sent. -/
def deliverGrant (j : Job) (mi micro src : Nat) (vals : List (Nat × Nat)) (s : State) : State :=
  let j := refresh j s
  let m := j.rmap mi
  let di := (j.tokenDesc (mLayer m)).getD 0
  let d := j.jdesc di
  match j.tuse di micro with
  | none => lateMessage j 1 src s
  | some u =>
    match u.counted with
    | none => lateMessage j 1 src s
    | some t0 =>
      if u.grants.any (fun g => g.1 == src) || !(groupOf m).contains src then lateMessage j 1 src s
      else
        let es := j.expertsOn mi src
        let self := selfOf m s
        let rank1 := fun (acc : List (Nat × Nat × Nat × Option Nat) × List (Nat × Nat)) (q : (Nat × Nat) × Nat) =>
          match es.zipIdx.find? fun e => e.1.1 == q.2 with
          | none => acc
          | some ((e, le), k) =>
            let rank := lookup0 e acc.2
            let (start, grant) := vals.getD k (0, 0)
            (acc.1 ++ [(q.1.1, q.1.2, le, if rank < grant then some (start + rank) else none)], assign0 e (rank + 1) acc.2)
        let plan := (((choicesOf d 0 (dTokens d)).zip u.choices).foldl rank1 ([], [])).1
        let rowAt := fun r => dAddr d 2 + tokenPlace d micro r * dRowBytes d
        let send1 := fun (s : State) (p : Nat × Nat × Nat × Option Nat) =>
          let (r, jc, le, out) := p
          match out with
          | some slot =>
            let s := jobStore j (recordAddr d micro r jc) (leBytes 8 (routeRecord false false src le slot)) s
            let row := rdBytes (rowAt r) (dRowBytes d) s.mem
            let s := toMember j.part m src (jacksHeader 2 self (mLayer m) micro le jc r slot) row
              (slotRow j (j.queueOf mi le) false micro self jc r slot row) s
            onTRec j di (fun t => { t with sent := count32 t.sent 1 }) s
          | none =>
            let s := jobStore j (recordAddr d micro r jc) (leBytes 8 (routeRecord true false src le 0)) s
            onTRec j di (fun t => { t with dropped := count32 t.dropped 1 }) s
        match jacksReads j (plan.filterMap fun p => p.2.2.2.map fun _ => (rowAt p.1, dRowBytes d)) s with
        | some s => s
        | none =>
          let s := onTUse j di micro (fun u => { u with grants := u.grants ++ [(src, vals)] }) s
          let s := plan.foldl send1 s
          let all := (groupOf m).all fun g => g == src || u.grants.any fun x => x.1 == g
          if all then onTRec j di (fun t => { t with waitUs := count32 t.waitUs ((now s - t0).toNat / 1000) }) s else s

/-- Start and grant for each member of the group in ascending order, and the rows routed (R398). -/
def grantsOf (n m c : Nat) (cnt : List Nat) : List (Nat × Nat) × Nat :=
  let g := cnt.length
  let rot := (n + m) % 2 ^ 64 % (max 1 g)
  let go := (List.range g).foldl (fun (acc : List (Nat × Nat × Nat) × Nat) i =>
    let k := (i + rot) % g
    let x := cnt.getD k 0
    (acc.1 ++ [(k, acc.2, min x (c - acc.2))], acc.2 + x)) ([], 0)
  ((List.range g).map fun k => match go.1.find? fun p => p.1 == k with
    | some p => p.2
    | none => (0, 0), go.2)

/-- Add the rows of a use to the loads for advice (R416). -/
def addLoad (mi q n : Nat) (l : List Advice) : List Advice :=
  match l.find? fun a => a.map == mi with
  | some _ => l.map fun a => if a.map == mi then { a with stepSums := assign0 q (lookup0 q a.stepSums + n) a.stepSums } else a
  | none => { map := mi, stepSums := assign0 q n [] } :: l

/-- The grant of one local queue (R398, R406, R407, R409): the occupancy entry, empty slots, the count's add-write, the records, the
first overflow of a run. -/
def grantQueue (j : Job) (mi micro q routed : Nat) (s : State) : State :=
  let j := refresh j s
  let e := j.rqueue q
  let c := j.capacity q
  let used := min routed c
  let dropped := routed - used
  match j.quse q false micro with
  | none => s
  | some u =>
    let base := j.areaBase q (u.frame.getD 0) false s
    let s := jobStore j (qOcc e + 4 * micro) (leBytes 4 used) s
    let s := emptySlots j q base used s
    let count := if qCount e == 0 then [] else addWrites j.part true [(qCount e, used)]
    let s := match addsBound j.part count s with
      | some st => stopAt j 0 st s
      | none => { s with addq := s.addq ++ count }
    let s := onQRec j q (fun r =>
      { routed := count32 r.routed routed, accepted := count32 r.accepted used, dropped := count32 r.dropped dropped,
        empty := count32 r.empty (c - used), peak := max r.peak routed, uses := count32 r.uses 1, waitUs := r.waitUs,
        dropUses := count32 r.dropUses (b2n (dropped != 0)) }) s
    let s := onJob j.part j.num (fun j => { j with advice := addLoad mi q routed j.advice }) s
    let s := onQUse j q false micro (fun u => { u with used := some used }.settle (qReleasers e)) s
    if dropped != 0 && !j.route.overflowRaised.contains q then
      raiseJ j 0x7001 (unitQueue q) (pack [(qLayer e, 54, 10), (micro, 40, 8), (dropped, 0, 32)])
        (onRoute j (fun r => { r with overflowRaised := q :: r.overflowRaised }) s)
    else s

/-- Once every COUNT is there and every local queue has its area, grants are computed and sent (R398). -/
def tryGrants (j : Job) (mi micro : Nat) (s : State) : State :=
  let j := refresh j s
  let m := j.rmap mi
  let g := groupOf m
  let msgs := g.map fun d => j.route.counts.find? fun x => x.layer == mLayer m && x.micro == micro && x.src == d
  let qs := j.localQueues mi s
  let ready := qs.all fun q => match j.quse q false micro with
    | some u => u.frame.isSome && u.used.isNone
    | none => false
  if !g.isEmpty && msgs.all Option.isSome && ready then
    let s := onRoute j (fun r => { r with counts := r.counts.filter fun x => !(x.layer == mLayer m && x.micro == micro) }) s
    let cnts := msgs.map fun x => (x.map CountMsg.counts).getD []
    let res := qs.zipIdx.map fun q => grantsOf j.step.toNat micro (j.capacity q.1) (cnts.map fun c => c.getD q.2 0)
    let s := (qs.zip res).foldl (fun s p => grantQueue j mi micro p.1 p.2.2 s) s
    g.zipIdx.foldl (fun s d =>
      let vals := res.map fun r => r.1.getD d.2 (0, 0)
      toMember j.part m d.1 (jacksHeader 1 (selfOf m s) (mLayer m) micro 0 0 0 0) (u32Bytes (vals.flatMap fun v => [v.1, v.2]))
        (deliverGrant j mi micro d.1 vals) s) s
  else s

/-- A COUNT arrives (R397, R398). A second one from the same member for the same use is not accepted. -/
def deliverCount (j : Job) (mi micro src : Nat) (counts : List Nat) (s : State) : State :=
  let j := refresh j s
  let m := j.rmap mi
  if !(groupOf m).contains src || j.route.counts.any (fun x => x.layer == mLayer m && x.micro == micro && x.src == src) then
    lateMessage j 0 src s
  else tryGrants j mi micro (onRoute j (fun r => { r with counts := r.counts ++ [⟨mLayer m, micro, src, counts⟩] }) s)

/-- The first choice of a run dropped for its index (R409). -/
def badIndexEvent (j : Job) (tile layer index : Nat) (s : State) : State :=
  if (refresh j s).route.badRaised then s
  else raiseJ j 0x7002 (unitTile tile) (pack [(layer, 54, 10), (index, 0, 32)])
    (onRoute j (fun r => { r with badRaised := true }) s)

/-- The tile whose DISPATCH SEND covers token `r`. -/
def coveringTile (j : Job) (di micro r : Nat) : Nat :=
  match j.route.reqs.find? fun q => ifld q.word 123 120 == 0 && ifld q.word 103 102 == 0 && ifld q.word 101 88 == di &&
      ifld q.word 77 70 == micro && q.row ≤ r && r < q.row + ifld q.word 49 34 with
  | some q => q.tile
  | none => 0

/-- The count phase (R397, R414): the indices are read, bad ones dropped, COUNTs sent to every member of the group. -/
def countPhase (j : Job) (di micro : Nat) (s : State) : State :=
  let j := refresh j s
  let d := j.jdesc di
  let mi := dMap d
  let m := j.rmap mi
  let read := fun (acc : State × List Nat) (c : Nat × Nat) =>
    let (s, l) := acc
    let e := rdNat (indexAddr d micro c.1 c.2) 4 s.mem
    if mExperts m ≤ e then
      let s := jobStore j (recordAddr d micro c.1 c.2) (leBytes 8 (routeRecord true true 0 0 0)) s
      let s := onTRec j di (fun t => { t with bad := count32 t.bad 1 }) s
      (badIndexEvent j (coveringTile j di micro c.1) (mLayer m) e s, l ++ [512])
    else if mLocal m && mRecorded m && (rdRecord d micro c.1 c.2 s).testBit 62 then
      (onTRec j di (fun t => { t with dropped := count32 t.dropped 1 }) s, l ++ [512])
    else (s, l ++ [e])
  let reads := ((List.range (dTokens d)).map fun r => (indexAddr d micro r 0, 4 * dK d)) ++
    if mLocal m && mRecorded m then [(recordAddr d micro 0 0, 8 * (dTokens d * dK d))] else []
  match jacksReads j reads s with
  | some s => s
  | none =>
    let (s, es) := (choicesOf d 0 (dTokens d)).foldl read (s, [])
    let s := onTUse j di micro (fun u => { u with choices := es, counted := some (now s) }) s
    (groupOf m).foldl (fun s g =>
      let counts := (j.expertsOn mi g).map fun p => (es.filter fun e => e == p.1).length
      toMember j.part m g (jacksHeader 0 (selfOf m s) (mLayer m) micro 0 0 0 0) (u32Bytes counts)
        (deliverCount j mi micro (selfOf m s) counts) s) s

/-! The backward pass. -/

/-- A gradient row (R404): the DY row times its gate, in FORMAT. -/
def scaledRow (d : List W64) (micro r jc : Nat) (s : State) : List Byte :=
  let f := dFormat d
  let n := elemBits f / 8
  let gate := rdNat (gateAddr d micro r jc) 4 s.mem
  let a := dAddr d 6 + tokenPlace d micro r * dRowBytes d
  (List.range (dRowBytes d / max 1 n)).flatMap fun i =>
    leBytes n (convert f 0 0 false (ofF32 (f32Mul (toF32 (decodeElem f (rdNat (a + n * i) n s.mem))) gate))).code

/-- Send the gradient rows of tokens `row` to `row + rows - 1` whose kept choices are on one of `members` (R404). -/
def sendGradRows (j : Job) (di micro row rows : Nat) (members : List Nat) (s : State) : State :=
  let d := j.jdesc di
  let mi := dMap d
  let m := j.rmap mi
  let kept := (choicesOf d row rows).filter fun c =>
    let rec' := rdRecord d micro c.1 c.2 s
    !(rec'.testBit 62 || !members.contains (bits rec' 60 55))
  let reads := (recordAddr d micro row 0, 8 * (rows * dK d)) ::
    kept.flatMap fun c => [(dAddr d 6 + tokenPlace d micro c.1 * dRowBytes d, dRowBytes d), (gateAddr d micro c.1 c.2, 4)]
  match jacksReads j reads s with
  | some s => s
  | none =>
    kept.foldl (fun s c =>
      let rec' := rdRecord d micro c.1 c.2 s
      let le := bits rec' 54 46
      let slot := bits rec' 31 0
      let data := scaledRow d micro c.1 c.2 s
      toMember j.part m (bits rec' 60 55) (jacksHeader 6 (selfOf m s) (mLayer m) micro le c.2 c.1 slot) data
        (slotRow j (j.queueOf mi le) true micro (selfOf m s) c.2 c.1 slot data) s) s

/-- A GRAD_READY arrives (R404): the rows of the requests issued so far are sent. -/
def deliverReady (j : Job) (mi micro src : Nat) (s : State) : State :=
  let j := refresh j s
  let di := (j.tokenDesc (mLayer (j.rmap mi))).getD 0
  match j.tuse di micro with
  | some u =>
    if u.asked.contains src && !u.ready.contains src then
      let s := onTUse j di micro (fun u => { u with ready := u.ready ++ [src] }) s
      u.gradCovered.foldl (fun s c => sendGradRows j di micro c.1 c.2 [src] s) s
    else lateMessage j 5 src s
  | none => lateMessage j 5 src s

/-- Once every local queue of the layer has its gradient use, the members that asked are answered (R404). -/
def tryReady (j : Job) (mi micro : Nat) (s : State) : State :=
  let j := refresh j s
  let m := j.rmap mi
  let ok := (j.localQueues mi s).all fun q => match j.quse q true micro with
    | some u => u.frame.isSome && u.step == j.step
    | none => false
  let mine := j.route.gradReqs.filter fun x => x.1 == mLayer m && x.2.1 == micro
  if ok && !mine.isEmpty then
    let s := onRoute j (fun r => { r with gradReqs := r.gradReqs.filter fun x => !(x.1 == mLayer m && x.2.1 == micro) }) s
    mine.foldl (fun s x => toMember j.part m x.2.2 (jacksHeader 5 (selfOf m s) (mLayer m) micro 0 0 0 0) []
      (deliverReady j mi micro x.2.2) s) s
  else s

/-- A GRAD_REQUEST arrives (R404). -/
def deliverGradRequest (j : Job) (mi micro src : Nat) (s : State) : State :=
  let j := refresh j s
  let m := j.rmap mi
  if !(groupOf m).contains src || j.route.gradReqs.contains (mLayer m, micro, src) then lateMessage j 4 src s
  else tryReady j mi micro (onRoute j (fun r => { r with gradReqs := r.gradReqs ++ [(mLayer m, micro, src)] }) s)

/-- A combine or return row arrives at the token side (R403, R405). -/
def tokenRow (j : Job) (mi micro : Nat) (ret : Bool) (src r jc : Nat) (row : List Byte) (s : State) : State :=
  let j := refresh j s
  let di := (j.tokenDesc (mLayer (j.rmap mi))).getD 0
  let d := j.jdesc di
  let mt := if ret then 7 else 3
  match j.tuse di micro with
  | some u =>
    let b := r * dK d + jc
    if (if ret then u.ret else u.combine).testBit b || dTokens d ≤ r || dK d ≤ jc then lateMessage j mt src s
    else
      let a := dAddr d (if ret then 7 else 5) + (tokenPlace d micro r * dK d + jc) * dRowBytes d
      onTUse j di micro (fun u => if ret then { u with ret := u.ret ||| 2 ^ b } else { u with combine := u.combine ||| 2 ^ b })
        (jobStore j a row s)
  | none => lateMessage j mt src s

/-! Queue uses. -/

/-- A use takes a frame (R389, R404): waiting time is counted; a gradient use knows its rows from the occupancy array. -/
def acquire (j : Job) (q : Nat) (grad : Bool) (micro : Nat) (s : State) : State :=
  let j := refresh j s
  match j.quse q grad micro with
  | none => s
  | some u =>
    match j.frameFor u s with
    | none => s
    | some f =>
      let e := j.rqueue q
      let mi := (j.mapOf (qLayer e)).getD 0
      let s := onQRec j q (fun r => { r with waitUs := count32 r.waitUs ((now s - u.since).toNat / 1000) }) s
      if grad then
        match jacksReads j [(qOcc e + 4 * micro, 4)] s with
        | some s => s
        | none =>
          let n := rdNat (qOcc e + 4 * micro) 4 s.mem
          let s := onQUse j q true micro (fun u => { u with frame := some f, used := some n }.settle (qReleasers e)) s
          tryReady j mi micro (emptySlots j q (j.areaBase q f true s) n s)
      else tryGrants j mi micro (onQUse j q false micro (fun u => { u with frame := some f }) s)

/-- The first RECEIVE or FEED for a use reaches the engine (R389): the use stands in line, and takes a frame if it may; a wait for map
bits is counted in SLOT_WAITS (R395). -/
def openUse (j : Job) (r : RReq) (q : Nat) (grad : Bool) (micro : Nat) (s : State) : State :=
  let j := refresh j s
  match (j.quse q grad micro).filter fun u => !u.freed with
  | some _ => s
  | none =>
    let u : QUse := { queue := q, grad, micro, since := now s, die := r.die, req := r.id, step := j.step }
    let s := if mapBitsUsed r.die s + j.capacity q ≤ mapBits then s
      else match j.tokenDesc (qLayer (j.rqueue q)) with
        | some di => onTRec j di (fun t => { t with slotWaits := count32 t.slotWaits 1 }) s
        | none => s
    acquire j q grad micro
      (onRoute j (fun r => { r with quses := (r.quses.filter fun v => !v.is q grad micro) ++ [u] }) s)

/-- One RELEASE of a use (R389): a release that is not due is ignored and reported. DESIGN CHOICE: the report's w3 is a free value. -/
def release (j : Job) (die q : Nat) (grad : Bool) (micro : Nat) (s : State) : State :=
  let n := qReleasers (j.rqueue q)
  match (j.quse q grad micro).filter fun u => !u.freed && u.releases < n with
  | some _ => onQUse j q grad micro (fun u => { u with releases := u.releases + 1 }.settle n) s
  | none =>
    let (w, s) := freeWord s
    raiseJ j 0x7003 (unitJacks die) w s

/-! Requests. -/

/-- The fields of a request: OP, SIDE, descriptor, micro-batch, rows. -/
def RReq.op (r : RReq) : Nat := ifld r.word 123 120
/-- SIDE. -/
def RReq.side (r : RReq) : Nat := ifld r.word 103 102
/-- The descriptor. -/
def RReq.desc (r : RReq) : Nat := ifld r.word 101 88
/-- MICRO. -/
def RReq.micro (r : RReq) : Nat := ifld r.word 77 70
/-- ROWS. -/
def RReq.rows (r : RReq) : Nat := ifld r.word 49 34
/-- A request on the gradient use. -/
def RReq.grad (r : RReq) : Bool := 2 ≤ r.op

/-- Change a request. -/
def onReq (j : Job) (id : Nat) (f : RReq → RReq) (s : State) : State :=
  onRoute j (fun r => { r with reqs := r.reqs.map fun q => if q.id == id then f q else q }) s

/-- The engine reports a request done (R280): its queue entry may complete. -/
def reqDone (j : Job) (r : RReq) (s : State) : State :=
  let s := onRoute j (fun x => { x with reqs := x.reqs.filter fun q => q.id != r.id }) s
  onTile j r.tile (fun y => { y with jacks := y.jacks.map fun e => if e.id == r.id then { e with left := 0 } else e }) s

/-- A request waits under R395: counted once in SLOT_WAITS. -/
def reqWaits (j : Job) (r : RReq) (why : Nat) (s : State) : State :=
  let s := onReq j r.id (fun q => { q with waited := why }) s
  if r.waited == 0 then
    match j.tokenDesc (dLayer (j.jdesc r.desc)) with
    | some di => onTRec j di (fun t => { t with slotWaits := count32 t.slotWaits 1 }) s
    | none => s
  else s

/-- Map bits for a token-side request, in the order requests reach the engine (R395). -/
def Job.mapFree (j : Job) (r : RReq) (n : Nat) (s : State) : Bool :=
  mapBitsUsed r.die s + n ≤ mapBits && !j.bitsAhead r.die r.id

/-- Ranges (first, count) overlap. -/
def overlaps (a b : Nat × Nat) : Bool := a.1 < b.1 + b.2 && b.1 < a.1 + a.2

/-- Tokens that ranges cover. -/
def coveredCount (l : List (Nat × Nat)) : Nat := (l.map Prod.snd).sum

/-- A SEND of the token side enters (R395, R397, R404): its slot, its map bits, its range; a token covered twice stops the run. -/
def admitSend (j : Job) (r : RReq) (s : State) : State :=
  let d := j.jdesc r.desc
  let n := dTokens d * dK d
  let cov := (r.row, r.rows)
  let slotTaken := j.route.tuses.any fun u => u.desc == r.desc && u.micro != r.micro &&
    u.micro % (max 1 (dSlots d)) == r.micro % (max 1 (dSlots d))
  let u? := j.tuse r.desc r.micro
  let has := match u? with
    | some u => if r.grad then u.gradMap else u.fwdMap
    | none => false
  if slotTaken then reqWaits j r 1 s
  else if !has && !j.mapFree r n s then reqWaits j r 2 s
  else
    match u? with
    | some u =>
      if !r.grad && u.covered.any fun c => overlaps c cov then stopAt j r.tile ⟨0x000B, dAddr d 3⟩ s
      else
        onReq j r.id (fun q => { q with admitted := true }) (onTUse j r.desc r.micro (fun u =>
          if r.grad then { u with gradMap := true, gradCovered := u.gradCovered ++ [cov] }
          else { u with fwdMap := true, covered := u.covered ++ [cov] }) s)
    | none =>
      let u : TUse := { desc := r.desc, micro := r.micro, die := r.die, fwdMap := !r.grad, gradMap := r.grad,
                        covered := if r.grad then [] else [cov], gradCovered := if r.grad then [cov] else [] }
      onReq j r.id (fun q => { q with admitted := true }) (onRoute j (fun x => { x with tuses := x.tuses ++ [u] }) s)

/-- The members that hold a kept choice of a micro-batch (R404), ascending. -/
def keptMembers (d : List W64) (micro : Nat) (s : State) : List Nat :=
  (List.range 64).filter fun m => (choicesOf d 0 (dTokens d)).any fun c =>
    let r := rdRecord d micro c.1 c.2 s
    !r.testBit 62 && bits r 60 55 == m

/-- A GRAD_TO_EXPERT SEND that has entered (R404): the requests of the first of its use, and rows to members that are ready. -/
def startGradSend (j : Job) (r : RReq) (s : State) : State :=
  let d := j.jdesc r.desc
  let m := j.rmap (dMap d)
  match j.tuse r.desc r.micro with
  | none => s
  | some u =>
    match if u.asked.isEmpty then jacksReads j [(recordAddr d r.micro 0 0, 8 * (dTokens d * dK d))] s else none with
    | some s => s
    | none =>
    let s := sendGradRows j r.desc r.micro r.row r.rows u.ready s
    let fresh := if u.asked.isEmpty then keptMembers d r.micro s else []
    let s := onTUse j r.desc r.micro (fun u => { u with asked := u.asked ++ fresh }) s
    fresh.foldl (fun s g => toMember j.part m g (jacksHeader 4 (selfOf m s) (mLayer m) r.micro 0 0 0 0) []
      (deliverGradRequest j (dMap d) r.micro (selfOf m s)) s) s

/-- The slots of a request's range have arrived or are empty (R400). -/
def slotsReady (u : QUse) (r : RReq) : Bool := match u.used with
  | some n => (List.range r.rows).all fun i => n ≤ r.row + i || u.arrived.testBit (r.row + i)
  | none => false

/-- Send the rows of occupied slots to their tokens (R403, R405). -/
def sendBack (j : Job) (r : RReq) (u : QUse) (s : State) : State :=
  let d := j.jdesc r.desc
  let q := dQueue d
  let e := j.rqueue q
  let mi := dMap d
  let m := j.rmap mi
  let ret := r.op == 3
  let rb := j.rowBytes (qLayer e)
  let base := j.areaBase q (u.frame.getD 0) u.grad s
  let rowAt := fun slot => (if ret then qDx e else qOut e) + slot * rb
  let slots := ((List.range r.rows).map (r.row + ·)).filter fun slot => slot < u.used.getD 0
  match jacksReads j (slots.flatMap fun slot => [(j.tagAddr q base slot, 8), (rowAt slot, rb)]) s with
  | some s => s
  | none =>
    slots.foldl (fun s slot =>
      let tag := rdNat (j.tagAddr q base slot) 8 s.mem
      let src := bits tag 62 57
      let row := rdBytes (rowAt slot) rb s.mem
      toMember j.part m src (jacksHeader (if ret then 7 else 3) (selfOf m s) (mLayer m) r.micro (qLocal e) (bits tag 56 54) (bits tag 18 0) slot)
        row (tokenRow j mi r.micro ret (selfOf m s) (bits tag 18 0) (bits tag 56 54) row) s) s

/-- Every choice of a range has its outcome. -/
def choicesKnown (j : Job) (d : List W64) (u : TUse) (row rows : Nat) : Bool :=
  u.counted.isSome && (choicesOf d row rows).all fun c =>
    let e := u.choices.getD (c.1 * dK d + c.2) 512
    e == 512 || u.grants.any fun g => g.1 == (j.home (dMap d) e).1

/-- A RECEIVE of the token side (R395, R403, R405): dropped choices are zeroed; it is done when all have arrived, and the last of them
gives back map bits and the slot. -/
def tokenReceive (j : Job) (r : RReq) (s : State) : State :=
  let d := j.jdesc r.desc
  let ret := r.op == 3
  match j.tuse r.desc r.micro with
  | none => s
  | some u =>
    if !u.covered.isEmpty && !choicesKnown j d u r.row r.rows then s
    else match jacksReads j [(recordAddr d r.micro r.row 0, 8 * (r.rows * dK d))] s with
    | some s => s
    | none =>
      let cs := choicesOf d r.row r.rows
      let zero := cs.filter fun c =>
        !(if ret then u.ret else u.combine).testBit (c.1 * dK d + c.2) && (rdRecord d r.micro c.1 c.2 s).testBit 62
      let s := zero.foldl (fun s c =>
        jobStore j (dAddr d (if ret then 7 else 5) + (tokenPlace d r.micro c.1 * dK d + c.2) * dRowBytes d)
          (List.replicate (dRowBytes d) 0) s) s
      let s := if zero.isEmpty then s else onTRec j r.desc (fun t => { t with zeroed := count32 t.zeroed zero.length }) s
      let mask := zero.foldl (fun n c => n ||| 2 ^ (c.1 * dK d + c.2)) (if ret then u.ret else u.combine)
      let s := onTUse j r.desc r.micro (fun u => if ret then { u with ret := mask } else { u with combine := mask }) s
      if cs.all fun c => mask.testBit (c.1 * dK d + c.2) then
        let s := reqDone j r (onTUse j r.desc r.micro (fun u =>
          let l := (if ret then u.retDone else u.combineDone) ++ [(r.row, r.rows)]
          let full := dTokens d ≤ coveredCount l
          if ret then { u with retDone := l, gradMap := u.gradMap && !full }
          else { u with combineDone := l, fwdMap := u.fwdMap && !full }) s)
        let last := dTokens d ≤ coveredCount ((if ret then u.retDone else u.combineDone) ++ [(r.row, r.rows)]) && (ret || !dTrain d)
        if last then onRoute j (fun x => { x with tuses := x.tuses.filter fun v => !(v.desc == r.desc && v.micro == r.micro) }) s
        else s
      else s

/-- Sum of the occupancy entries of micro-batches 0 to n - 1 (R402). -/
def occSum (e : List W64) (n : Nat) (s : State) : Nat := ((List.range n).map fun i => rdNat (qOcc e + 4 * i) 4 s.mem).sum

/-- A FEED gives its end mark and is done (R401, R402). -/
def endFeed (j : Job) (r : RReq) (count : Nat) (mark : Bool) (s : State) : State :=
  let d := j.jdesc r.desc
  let s := if mark then onTile j r.tile (fun y => y.onStream (dStream d) (Stream.mark count)) s else s
  reqDone j r s

/-- A request takes what steps it can; requests to an engine under test wait (R530). -/
def progress (id : Nat) (j : Job) (s : State) : State :=
  let j := refresh j s
  match j.route.reqs.find? fun q => q.id == id && !underTest (.jacks q.die) s with
  | none => s
  | some r =>
    let d := j.jdesc r.desc
    match r.op, r.side, dKind d with
    | 0, 0, 0 =>
      if !r.admitted then
        let s := admitSend j r s
        match (refresh j s).tuse r.desc r.micro with
        | some u => if u.counted.isNone && dTokens d ≤ coveredCount u.covered then countPhase j r.desc r.micro s else s
        | none => s
      else match j.tuse r.desc r.micro with
        | some u => if choicesKnown j d u r.row r.rows then reqDone j r s else s
        | none => reqDone j r s
    | 2, 0, 0 =>
      if !r.admitted then
        let s := admitSend j r s
        let j' := refresh j s
        if j'.route.reqs.any fun q => q.id == id && q.admitted then startGradSend j' r s else s
      else match j.tuse r.desc r.micro with
        | some u =>
          if (choicesOf d r.row r.rows).all fun c =>
            let rec' := rdRecord d r.micro c.1 c.2 s
            rec'.testBit 62 || u.ready.contains (bits rec' 60 55) then reqDone j r s else s
        | none => reqDone j r s
    | _, 1, 0 => tokenReceive j r s
    | _, 0, 1 =>
      match (j.quse (dQueue d) (r.op == 3) r.micro).filter fun u => !u.freed with
      | some u => if slotsReady u r then reqDone j r (sendBack j r u s) else s
      | none => s
    | _, 1, 1 =>
      if !r.admitted then openUse j r (dQueue d) r.grad r.micro (onReq j id (fun q => { q with admitted := true }) s)
      else match j.quse (dQueue d) r.grad r.micro with
        | some u => if slotsReady u r then reqDone j r s else s
        | none => s
    | _, 2, 1 =>
      let first := (j.route.reqs.find? fun q => q.tile == r.tile && q.side == 2).map RReq.id == some id
      if dKeys d && r.rows == 0 then
        if first then (jacksReads j [(qOcc (j.rqueue (dQueue d)), 4 * (r.micro + 1))] s).getD
          (endFeed j r (occSum (j.rqueue (dQueue d)) (r.micro + 1) s) true s) else s
      else if !r.admitted then
        openUse j r (dQueue d) r.grad r.micro (onReq j id (fun q => { q with admitted := true }) s)
      else match j.quse (dQueue d) r.grad r.micro with
        | some u => match u.used with
          | some n => if first && min r.rows (n - r.row) ≤ r.fed then endFeed j r 0 (!(dKeys d && r.grad)) s else s
          | none => s
        | none => s
    | _, _, _ => s

/-- Every request takes what steps it can, in the order they reached the engine. -/
def settleRoutes : Nat → Job → State → State
  | 0, _, s => s
  | n + 1, j, s => settleRoutes n j ((refresh j s).route.reqs.foldl (fun s r => progress r.id j s) s)

/-- Passes enough for every request to enter and to end. -/
def settleJob (j : Job) (s : State) : State := settleRoutes (2 * (refresh j s).route.reqs.length + 1) j s

/-- The next row of a FEED arrives at the batcher (R401, R402): the next slot of its range, once its row is there. -/
def feedRow (t : Nat) (c : Ctx) (s : State) : State :=
  match runOn t c s with
  | none => s
  | some (j, x) =>
    match j.route.reqs.find? fun q => q.tile == t && q.side == 2 with
    | none => s
    | some r =>
      let d := j.jdesc r.desc
      let q := dQueue d
      let e := j.rqueue q
      match j.quse q r.grad r.micro with
      | none => s
      | some u =>
        let slot := r.row + r.fed
        if r.rows ≤ r.fed || u.used.getD 0 ≤ slot || !u.arrived.testBit slot || 64 ≤ batchedRows x then s
        else
          let base := j.areaBase q (u.frame.getD 0) u.grad s
          let f := dFormat d
          let rb := j.rowBytes (qLayer e)
          let line := fun a => rdLine { Desc.ofWords [] with format := f, base := a, rows := 1, cols := rb * 8 / elemBits f } 0 0
            (rb * 8 / elemBits f) s.mem
          let tag := rdNat (j.tagAddr q base slot) 8 s.mem
          let keys := dKeys d && r.grad
          let b : BRow :=
            { key := if keys then occSum e r.micro s + slot else 0
              row := (bits tag 62 57 <<< 22) ||| (bits tag 18 0 <<< 3) ||| bits tag 56 54
              a := some (line (j.slotAddr q base slot))
              b := if keys then some (line (qXsave e + (r.micro * j.capacity q + slot) * rb)) else none }
          match jacksReads j ([(j.slotAddr q base slot, rb), (j.tagAddr q base slot, 8)] ++
              if keys then [(qXsave e + (r.micro * j.capacity q + slot) * rb, rb), (qOcc e, 4 * r.micro)] else []) s with
          | some s => s
          | none =>
            let s := onTile j t (fun y => y.onStream (dStream d) (Stream.arrive b)) s
            let s := onReq j r.id (fun q => { q with fed := q.fed + 1 }) s
            startOps t (settleJob j s)

/-- A row arrives at the fill batcher (R211, R214, R215): from the fetcher's GATHER or from a FEED. -/
def rowArrival (t : Nat) (c : Ctx) (u : UnitId) (s : State) : State :=
  match u with
  | .fetcher =>
    match runOn t c s with
    | none => s
    | some (j, x) =>
      match x.fetcher.zipIdx.find? fun p => p.1.left != 0 with
      | some (e, i) =>
        if iclass e.word == 0 && iop e.word == 2 && batchedRows x < 64 then startOps t (gatherRow t j x e i s) else s
      | none => s
  | .jacks => feedRow t c s
  | _ => s

/-- A ROUTE instruction issues its request (R280, R390). -/
def route (op side kind : Nat) (t : Nat) (c : Ctx) (waits : List (Nat × Nat)) (s : State) : State :=
  whenRequested t c 3 op s fun j x w s =>
    if ifld w 103 102 == side && dKind (j.jdesc (ifld w 101 88)) == kind then
      let id := j.route.nextId
      let r : RReq := { id, tile := t, word := w, row := (ifld w 69 50 + x.xval w) % 2 ^ 20, since := now s }
      let s := onTile j t (fun y => (y.issued w c waits).enqueue .jacks { entryOf x w 1 (wordClass j x w s) with id }) s
      settleJob j (onRoute j (fun y => { y with nextId := id + 1, reqs := y.reqs ++ [r] }) s)
    else s

/-- A RELEASE (R389, R394): counted at once; areas it frees are lent before grants are decided (R410). -/
def routeRelease (op : Nat) (t : Nat) (c : Ctx) (waits : List (Nat × Nat)) (s : State) : State :=
  whenRequested t c 3 op s fun j x w s =>
    let d := j.jdesc (ifld w 101 88)
    if ifld w 103 102 == 3 && dKind d == 1 then
      let s := issueTo .jacks 0 waits j x w s (wordClass j x w s)
      settleJob j (release j (t / 512) (dQueue d) (2 ≤ op) (ifld w 77 70) s)
    else s

/-- A waiting use takes the lowest free area (R389). -/
def frameAcquired (part num q : Nat) (grad : Bool) (micro : Nat) (s : State) : State :=
  match jobOf part num s with
  | some j => settleJob j (acquire j q grad micro s)
  | none => s

/-! Index copies (R418 to R421). -/

/-- Words of a block as add-writes onto a destination. -/
def blockWords (src dst n : Nat) (m : Mem) : List (Nat × Nat) := (List.range n).map fun i => (dst + 4 * i, rdNat (src + 4 * i) 4 m)

/-- An index copy issues (R420, R421): MODE 0 gathers blocks, 1 scatters them by add-writes, 2 packs a gradient. -/
def indexCopy (mode t : Nat) (c : Ctx) (waits : List (Nat × Nat)) (s : State) : State :=
  whenRequested t c 3 0 s fun j x w s =>
    let di := ifld w 101 88
    let d := j.jdesc di
    if ifld w 103 102 != 0 || dKind d != 2 || dMode d != mode then s
    else
      let ps := (List.range (ifld w 49 34)).map ((ifld w 69 50 + x.xval w) % 2 ^ 20 + ·)
      let micro := ifld w 77 70
      let gb := dRowBytes d
      let list := fun i => dAddr d 2 + micro * dTokens d + 4 * i
      let src := dAddr d 3
      let dst := dAddr d 4
      let n := dLimit d
      let idx := ps.map fun i => (i, rdNat (list i) 4 s.mem)
      let good := idx.filter fun p => p.2 < n
      let bad := idx.filter fun p => n ≤ p.2
      let reads := if mode == 2 then ps.flatMap fun g => [(src + 16 * n * g, 16 * n), (dAddr d 5 + g * (n / 2), (n + 1) / 2)]
                   else (ps.map fun i => (list i, 4)) ++ good.map fun p => (src + (if mode == 0 then p.2 else p.1) * gb, gb)
      let writes := if mode == 0 then ps.map fun i => (dst + i * gb, gb) else []
      let adds := if mode == 0 then [] else if mode == 1 then good.flatMap fun p => blockWords (src + p.1 * gb) (dst + p.2 * gb) (gb / 4) s.mem
        else ps.flatMap fun g => (List.range n).flatMap fun col =>
          let nib := rdBits (dAddr d 5 + g * (n / 2)) (4 * col) 4 s.mem
          let v := fun i => rdNat (src + 4 * n * (4 * g + i) + 4 * col) 4 s.mem
          [(dst + 4 * n * (2 * g) + 4 * col, v (nib % 4)), (dst + 4 * n * (2 * g + 1) + 4 * col, v (nib / 4))]
      match (checkReads j t reads s).orElse fun _ => checkWrites j.part t writes s with
      | some st => stopAt j t st s
      | none =>
        let ws := addWrites j.part false adds
        match addsBound j.part ws s with
        | some st => stopAt j t st s
        | none =>
          if !mayRead j x (reads ++ writes) s then s else
          let mem := s.mem
          let s := issueTo .jacks 0 waits j x w (prepareWrites j t writes (countSpill j t false reads { s with addq := s.addq ++ ws }))
            (wordClass j x w s)
          let s := if mode == 0 then finishWrites j.part writes s.mem { s with mem := idx.foldl (fun m p =>
            wrBytes (dst + p.1 * gb) (if p.2 < n then rdBytes (src + p.2 * gb) gb mem else List.replicate gb 0) m) s.mem } else s
          let used := if mode == 2 then ps.length else good.length
          let dropped := if mode == 2 then 0 else bad.length
          let s := onRoute j (fun r => { r with crecs := on0 {} di (fun k =>
            { used := count32 k.used used, dropped := count32 k.dropped dropped }) r.crecs }) s
          match bad, mode == 2 with
          | b :: _, false => badIndexEvent j t (dLayer d) b.2 s
          | _, _ => s

/-! Messages from other members (R396). -/

/-- A job with a Jacks descriptor of a layer. -/
def Job.serves (j : Job) (layer : Nat) : Bool := (List.range j.jdescCount).any fun i => dLayer (j.jdesc i) == layer

/-- A message has come for what requests of a layer and micro-batch wait for: their wait starts afresh (R411). -/
def heard (j : Job) (layer micro : Nat) (s : State) : State :=
  let touch := fun (q : RReq) => if dLayer (j.jdesc q.desc) == layer && q.micro == micro then { q with since := now s } else q
  onRoute j (fun x => { x with reqs := x.reqs.map touch }) s

/-- A Jacks message arrives on a link (R396): it goes to the normal run of the link's partition that serves its layer. -/
def jacksMessage (link : Nat) (h0 : W64) (f : Job → Nat → Nat → Nat → State → State) (s : State) : State :=
  let layer := fld h0 53 44
  match partOfLink link s with
  | none => s
  | some n =>
    let normal := s.jobs.filter fun j => j.part == n && j.running && (j.run.map Run.filler) == some false
    match (normal.find? fun j => j.serves layer).orElse fun _ => normal.head? with
    | none => onPart n (fun p => { p with lateMessages := p.lateMessages + 1 }) s
    | some j =>
      match j.mapOf layer with
      | some mi => if j.serves layer then settleJob j (f j mi (fld h0 43 36) (fld h0 59 54) (heard j layer (fld h0 43 36) s))
                   else lateMessage j (fld h0 63 60) (fld h0 59 54) s
      | none => lateMessage j (fld h0 63 60) (fld h0 59 54) s

/-- Pairs of words. -/
def pairsOf : List Nat → List (Nat × Nat)
  | a :: b :: r => (a, b) :: pairsOf r
  | _ => []

/-- COUNT (R397, R398). -/
def execCount (link : Nat) (h0 _h1 : W64) (data : List Byte) (s : State) : Host.Outcome State Fault Refusal :=
  .next (jacksMessage link h0 (fun j mi micro src => deliverCount j mi micro src (bytesU32 data)) s)
/-- GRANT (R399). -/
def execGrant (link : Nat) (h0 _h1 : W64) (data : List Byte) (s : State) : Host.Outcome State Fault Refusal :=
  .next (jacksMessage link h0 (fun j mi micro src => deliverGrant j mi micro src (pairsOf (bytesU32 data))) s)
/-- DISPATCH_ROW (R399, R400). -/
def execDispatchRow (link : Nat) (h0 h1 : W64) (data : List Byte) (s : State) : Host.Outcome State Fault Refusal :=
  .next (jacksMessage link h0 (fun j mi micro src =>
    slotRow j (j.queueOf mi (fld h0 35 27)) false micro src (fld h0 26 24) (fld h1 50 32) (fld h1 31 0) data) s)
/-- COMBINE_ROW (R403). -/
def execCombineRow (link : Nat) (h0 h1 : W64) (data : List Byte) (s : State) : Host.Outcome State Fault Refusal :=
  .next (jacksMessage link h0 (fun j mi micro src => tokenRow j mi micro false src (fld h1 50 32) (fld h0 26 24) data) s)
/-- GRAD_REQUEST (R404). -/
def execGradRequest (link : Nat) (h0 _h1 : W64) (s : State) : Host.Outcome State Fault Refusal :=
  .next (jacksMessage link h0 (fun j mi micro src => deliverGradRequest j mi micro src) s)
/-- GRAD_READY (R404). -/
def execGradReady (link : Nat) (h0 _h1 : W64) (s : State) : Host.Outcome State Fault Refusal :=
  .next (jacksMessage link h0 (fun j mi micro src => deliverReady j mi micro src) s)
/-- GRAD_ROW (R404). -/
def execGradRow (link : Nat) (h0 h1 : W64) (data : List Byte) (s : State) : Host.Outcome State Fault Refusal :=
  .next (jacksMessage link h0 (fun j mi micro src =>
    slotRow j (j.queueOf mi (fld h0 35 27)) true micro src (fld h0 26 24) (fld h1 50 32) (fld h1 31 0) data) s)
/-- RETURN_ROW (R405). -/
def execReturnRow (link : Nat) (h0 h1 : W64) (data : List Byte) (s : State) : Host.Outcome State Fault Refusal :=
  .next (jacksMessage link h0 (fun j mi micro src => tokenRow j mi micro true src (fld h1 50 32) (fld h0 26 24) data) s)
/-- FRAME_ACQUIRED. -/
def execFrameAcquired (partition job queue : Nat) (grad : Bool) (micro : Nat) (s : State) : Host.Outcome State Fault Refusal :=
  .next (frameAcquired partition job queue grad micro s)
/-- BATCH_ROW_ARRIVAL. -/
def execBatchRowArrival (tile : Nat) (ctx : Ctx) (unit : UnitId) (s : State) : Host.Outcome State Fault Refusal :=
  .next (rowArrival tile ctx unit s)
/-- DISPATCH, SEND. -/
def execDispatchSend (tile : Nat) (ctx : Ctx) (waits : List (Nat × Nat)) (s : State) : Host.Outcome State Fault Refusal :=
  .next (route 0 0 0 tile ctx waits s)
/-- DISPATCH, RECEIVE. -/
def execDispatchReceive (tile : Nat) (ctx : Ctx) (waits : List (Nat × Nat)) (s : State) : Host.Outcome State Fault Refusal :=
  .next (route 0 1 1 tile ctx waits s)
/-- DISPATCH, FEED. -/
def execDispatchFeed (tile : Nat) (ctx : Ctx) (waits : List (Nat × Nat)) (s : State) : Host.Outcome State Fault Refusal :=
  .next (route 0 2 1 tile ctx waits s)
/-- DISPATCH, RELEASE. -/
def execDispatchRelease (tile : Nat) (ctx : Ctx) (waits : List (Nat × Nat)) (s : State) : Host.Outcome State Fault Refusal :=
  .next (routeRelease 0 tile ctx waits s)
/-- Group gather. -/
def execGroupGather (tile : Nat) (ctx : Ctx) (waits : List (Nat × Nat)) (s : State) : Host.Outcome State Fault Refusal :=
  .next (indexCopy 0 tile ctx waits s)
/-- Group scatter. -/
def execGroupScatter (tile : Nat) (ctx : Ctx) (waits : List (Nat × Nat)) (s : State) : Host.Outcome State Fault Refusal :=
  .next (indexCopy 1 tile ctx waits s)
/-- Sparse pack. -/
def execSparsePack (tile : Nat) (ctx : Ctx) (waits : List (Nat × Nat)) (s : State) : Host.Outcome State Fault Refusal :=
  .next (indexCopy 2 tile ctx waits s)
/-- COMBINE, SEND. -/
def execCombineSend (tile : Nat) (ctx : Ctx) (waits : List (Nat × Nat)) (s : State) : Host.Outcome State Fault Refusal :=
  .next (route 1 0 1 tile ctx waits s)
/-- COMBINE, RECEIVE. -/
def execCombineReceive (tile : Nat) (ctx : Ctx) (waits : List (Nat × Nat)) (s : State) : Host.Outcome State Fault Refusal :=
  .next (route 1 1 0 tile ctx waits s)
/-- GRAD_TO_EXPERT, SEND. -/
def execGradToExpertSend (tile : Nat) (ctx : Ctx) (waits : List (Nat × Nat)) (s : State) : Host.Outcome State Fault Refusal :=
  .next (route 2 0 0 tile ctx waits s)
/-- GRAD_TO_EXPERT, RECEIVE. -/
def execGradToExpertReceive (tile : Nat) (ctx : Ctx) (waits : List (Nat × Nat)) (s : State) : Host.Outcome State Fault Refusal :=
  .next (route 2 1 1 tile ctx waits s)
/-- GRAD_TO_EXPERT, FEED. -/
def execGradToExpertFeed (tile : Nat) (ctx : Ctx) (waits : List (Nat × Nat)) (s : State) : Host.Outcome State Fault Refusal :=
  .next (route 2 2 1 tile ctx waits s)
/-- GRAD_TO_EXPERT, RELEASE. -/
def execGradToExpertRelease (tile : Nat) (ctx : Ctx) (waits : List (Nat × Nat)) (s : State) : Host.Outcome State Fault Refusal :=
  .next (routeRelease 2 tile ctx waits s)
/-- GRAD_RETURN, SEND. -/
def execGradReturnSend (tile : Nat) (ctx : Ctx) (waits : List (Nat × Nat)) (s : State) : Host.Outcome State Fault Refusal :=
  .next (route 3 0 1 tile ctx waits s)
/-- GRAD_RETURN, RECEIVE. -/
def execGradReturnReceive (tile : Nat) (ctx : Ctx) (waits : List (Nat × Nat)) (s : State) : Host.Outcome State Fault Refusal :=
  .next (route 3 1 0 tile ctx waits s)

end Sys2Proof.Machine
end

