-- ==== Sys2Proof/Machine/FabricLinks.lean ====
section
/-! DEFINITION. Machine/FabricLinks.lean: what happens on a link (12_dranto_fabric.md): training, flits and retry, heartbeats, sync
messages (R131), route switches, narrowing, failure and handover, DMT, the fabric manager's messages (R44). -/
namespace Sys2Proof.Machine

/-! Training (R426 to R429). -/

/-- A proposal of a route switch on a link in STANDBY, or one that may widen (R471, R472): the count lies at least 2 ms ahead; how far
the spec leaves open, so it is a free value, but for one switch of several links (R426). Only a LOCKED module agrees a count (R137). -/
def proposeSwitch (k : Nat) (s : State) : State :=
  let l := linkOf k s
  if s.cwk.state == .locked && (l.state == 3 || (l.state == 4 && l.widen)) && l.switchAt.isNone then
    let (w, s) := freeWord s
    let agreed := (s.fab.links.filterMap fun l => l.switchAt.orElse fun _ => l.proposed).find? fun c => now s + 2000000 ≤ c
    let c := agreed.getD (now s + 2000000 + BitVec.ofNat 64 (w.toNat % 2 ^ 32))
    sendAgentOn k 0x03 [0, c] (onLink k (fun l => { l with proposed := some c }) s)
  else s

/-- A stage of Table 12.4 completes (R426, R427); `pair` is what trained in stage 1: 0 all lanes, 1 lanes 0 and 1, 2 lanes 2 and 3. -/
def stageDone (k pair : Nat) (s : State) : State :=
  let l := linkOf k s
  if (linkCfg k s).mode != 1 || l.stage == 0 || l.waiting then s
  else if l.stage == 1 && pair != 0 && !(linkCfg k s).narrowAllowed then attemptFails k s
  else if l.stage == 3 && !l.identified then s
  else
    let s := if l.stage == 1 then onLink k (fun l => { l with lanePair := pair }) s else s
    let s := nextStage k s
    if (linkOf k s).state == 3 then proposeSwitch k s else s

/-- Another link, outside one group with link `k`, whose peer has reported the same seat and the same link number: one module has a link once,
so two peers claim the seat (R55). DEDUCED (log 214): this is how the ends tell two peers apart. -/
def seatTwice (k seat peer : Nat) (s : State) : Bool := (List.range 36).any fun i =>
  i != k && inRange (linkOf i s).state 2 6 && (linkOf i s).identified && (linkOf i s).peerSeat == seat && (linkOf i s).peerLink == peer &&
    ((linkCfg k s).group == 15 || (linkCfg i s).group != (linkCfg k s).group)

/-- The identity flit of the peer (R428, R55): a seat or link other than the blueprint expects, another lane pair, or a seat that another peer
claims too, FAILS the link with cause 8. A switch port expects no seat and link (R54). -/
def identityFlit (k seat peer _mode : Nat) (_narrow forward : Bool) (pair : Nat) (s : State) : State :=
  let l := linkOf k s
  let c := linkCfg k s
  if l.state != 2 || l.stage != 3 then s
  else
    let s := onLink k (fun l => { l with peerSeat := seat, peerLink := peer, peerForward := forward }) s
    if (c.role == 0 && (seat != c.peerSeat || peer != c.peerLink)) || pair != l.lanePair || seatTwice k seat peer s then
      let s := onLink k (fun l => { l with state := 7, cause := 8, stage := 0 }) s
      let w := pack [(seat, 32, 12), (peer, 0, 6)]
      reportFm 1 [BitVec.ofNat 64 k, w] (raiseM (partOfLink k s) 0x8001 (unitLink k) w s)
    else onLink k (fun l => { l with identified := true }) s

/-- The MAC reports link up (R429): ACTIVE, and the flows rebind (R461). -/
def ethernetUp (k : Nat) (s : State) : State :=
  if (linkCfg k s).mode == 2 && (linkOf k s).state == 1 then
    rebindFlows s (onLink k (fun l => { l with state := 4, stage := 0, waiting := false, attempts := 0, tries := 0 }) s)
  else s

/-- The MAC of an ACTIVE link reports link down (R461): the flows rebind and a new attempt starts. DEDUCED: cause 1, loss of signal. -/
def ethernetDown (k : Nat) (s : State) : State :=
  if (linkCfg k s).mode == 2 && (linkOf k s).state == 4 then startTraining k (rebindFlows s (leaveFlows k 1 s)) else s

/-! Flits (R430, R431, R435, R468). -/

/-- A packet from its words. -/
def packetOf (ws : List W64) : Packet := ⟨ws.getD 0 0, ws.getD 1 0, ofWords (ws.drop 2)⟩

/-- Walk the slots of a DATA flit (R433): the slots of the packet under way that are left after it, what of it has come, and the packets
that ended in the flit. -/
def walkSlots : Nat → Nat → List W64 → List W64 → Nat × List W64 × List Packet
  | 0, left, acc, _ => (left, acc, [])
  | _, left, acc, [] => (left, acc, [])
  | fuel + 1, left, acc, ws =>
    let n := ws.length / 2
    let (size, acc) := if left == 0 then ((packetOf (ws.take 2)).slots, []) else (left, acc)
    if left == 0 && (packetOf (ws.take 2)).opcode == 0 then (0, [], [])
    else if size ≤ n then
      let r := walkSlots fuel 0 [] (ws.drop (2 * size))
      (r.1, r.2.1, packetOf (acc ++ ws.take (2 * size)) :: r.2.2)
    else (size - n, acc ++ ws, [])

/-- Credits returned: the difference, modulo 256, to the last value of each field (R430). -/
def takeCredits (fs : List Nat) (l : Link) : Link :=
  { l with avail := (l.avail.zip (fs.zip l.peerFreed)).map fun p => p.1 + (p.2.1 + 256 - p.2.2) % 256, peerFreed := fs }

/-- Acknowledged flits leave the retry buffer (R431): those up to ACK_SEQ. -/
def dropAcked (seq : Nat) (l : List TxFlit) : List TxFlit :=
  if l.any fun f => f.seq == seq then (l.dropWhile fun f => f.seq != seq).drop 1 else l

/-- Resend the flits that are not acknowledged (R431). -/
def resendAll (k : Nat) (s : State) : State :=
  let l := linkOf k s
  l.retry.foldl (fun s f => sendFlit k f s) (onLink k (fun l => { l with resent := l.resent + l.retry.length }) s)

/-- A flit that fails its CRC (R431, R468): the fourth in a row takes the link down. -/
def badFlit (k : Nat) (s : State) : State :=
  let s := onLink k (fun l => { l with crcRun := l.crcRun + 1, gap := true }) s
  if 4 ≤ (linkOf k s).crcRun then failLink k 2 s else sendIdle k s

/-- Acknowledgement, NAK and credits of a flit (R430, R431, R468): the eighth NAK for one ACK_SEQ takes the link down. -/
def takeHeader (k : Nat) (w0 w1 : W64) (s : State) : State :=
  let ack := fld w0 47 36
  let valid := bit w0.toNat 35
  let s := onLink k (fun l =>
    let l := takeCredits [fld w1 63 56, fld w1 55 48, fld w1 47 40, fld w1 39 32, fld w0 29 22] { l with crcRun := 0 }
    if valid then { l with retry := dropAcked ack l.retry } else l) s
  if bit w0.toNat 34 then
    let s := onLink k (fun l => { l with naks := if l.nakSeq == ack then l.naks + 1 else 1, nakSeq := ack }) s
    if 8 ≤ (linkOf k s).naks then failLink k 2 s else resendAll k s
  else onLink k (fun l => { l with naks := 0 }) s

/-- An opcode of Table 12.8. -/
def knownOpcode (op : Nat) : Bool := isRequest op || inRange op 0x80 0x85 || op == 0x90 || op == 0xA0 || inRange op 0xC0 0xC3

/-- A packet leaves the buffer (R434): its slots are free, on VL3 against a reservation only (R332). A reserved opcode is discarded (R439). A
message for another member goes on (R444); requests and responses, and what comes for this module, are commands of their own (log 130). -/
def packetLeaves (k : Nat) (s : State) (p : Packet) : State :=
  let s := if p.vl == 3 then
      let s := onLink k (fun l => { l with owed := l.owed ++ [p.slots] }) s
      returnVl3 k (linkOf k s).owed.length s
    else onLink k (fun l => { l with freed := upd l.freed p.vl (· + p.slots) }) s
  if !knownOpcode p.opcode then protocolError k p s
  else if 2 ≤ p.vl && p.dst != seatOf s % 64 then forwardPacket k p s else s

/-- A DATA flit whose CRC passed (R431): the slots of every packet that ends in it leave the buffer (R434, R435). -/
def takeData (k seq : Nat) (slots : List W64) (s : State) : State :=
  let l := linkOf k s
  if seq == (l.rxSeq + 1) % 4096 then
    let (left, ws, ended) := walkSlots 16 l.rxLeft l.rxWords slots
    sendIdle k (ended.foldl (packetLeaves k) (onLink k (fun l => { l with
      rxSeq := seq, rxValid := true, gap := false, rxLeft := left, rxWords := ws, rxWhole := if ended.isEmpty then l.rxWhole else seq }) s))
  else sendIdle k (onLink k (fun l => { l with gap := true }) s)

/-- A flit arrives (R430, R431). -/
def flitReceive (k : Nat) (words : List W64) (s : State) : State :=
  let l := linkOf k s
  if (linkCfg k s).mode != 1 || !(l.state == 3 || l.state == 4) then s
  else
    let w0 := words.getD 0 0
    let w1 := words.getD 1 0
    let body := (words.drop 2).take 30
    let crc := (crc32 (ofWords (w0 :: pack [(fld w1 63 32, 32, 32)] :: body))).toNat
    if crc != fld w1 31 0 then badFlit k s
    else
      let s := takeHeader k w0 w1 s
      if (linkOf k s).state == 6 then s
      else pumpChunks (drainAll k (if fld w0 63 60 == 1 then takeData k (fld w0 59 48) body s else s))

/-- NAK repeated while the gap lasts (R431). -/
def nakRepeat (k : Nat) (s : State) : State :=
  if (linkOf k s).gap && ((linkOf k s).state == 3 || (linkOf k s).state == 4) then sendIdle k s else s

/-! Heartbeats (R455, R456). -/

/-- REACH (Table 12.14): members with an ACTIVE direct route, in any partition. -/
def ownReach (s : State) : Nat := (List.range 64).foldl (fun n d => if (directLinks d (fun _ => true) s).isEmpty then n else n + 2 ^ d) 0

/-- A heartbeat of a peer (R443, R455, R469): its reach; links to it that are DOWN by its death train again. -/
def heartbeat (k seat : Nat) (reach : W64) (s : State) : State :=
  let s := onLink k (fun l => { l with reach := reach }) s
  (List.range 36).foldl (fun s i =>
    if (linkCfg i s).mode == 1 && (linkCfg i s).peerSeat == seat && (linkOf i s).state == 6 && (linkOf i s).cause == 6
    then startTraining i s else s) s

/-- Every 2 ms (R455): a HEARTBEAT on each ACTIVE and STANDBY Dranto-mode link, and to each seat of another pod with an open flow. -/
def heartbeatTimer (s : State) : State :=
  let ws := [now s, BitVec.ofNat 64 (ownReach s)]
  let s := (List.range 36).foldl (fun s k =>
    if (linkCfg k s).mode == 1 && ((linkOf k s).state == 3 || (linkOf k s).state == 4) then
      putPacket k (packet 4 0xC2 ((linkCfg k s).peerSeat % 64) (seatOf s % 64) 1 true true 0 0 0 (ofWords ws)) s
    else s) s
  let peers := (s.fab.tx.map TxFlow.seat).eraseDups
  peers.foldl (fun s d => if d / 64 == seatOf s / 64 then s
    else match s.fab.tx.find? fun f => f.seat == d with
      | some f => dmtSend f.part d 4 0 0 (packet 4 0xC2 (d % 64) (seatOf s % 64) 1 true true 0 0 0 []).h0 (ofWords ws) s
      | none => s) s

/-- Three heartbeats of a peer are missed (R455): its links go DOWN with cause 6, peer-dead, a report. -/
def peerDead (seat : Nat) (s : State) : State :=
  let ks := (List.range 36).filter fun k => (linkCfg k s).mode == 1 && (linkCfg k s).role == 0 && (linkCfg k s).peerSeat == seat &&
    inRange (linkOf k s).state 3 5
  let dmt := (s.fab.tx.find? fun f => f.seat == seat).bind fun f => flowLink f.part f.flow s
  match ks, dmt with
  | k :: r, _ =>
    let s := (k :: r).foldl (fun s k => failLink k 6 s) s
    reportFm 2 [BitVec.ofNat 64 seat] (raiseM (partOfLink k s) 0x800D (unitLink k) (BitVec.ofNat 64 seat) s)
  | [], some k => reportFm 2 [BitVec.ofNat 64 seat] (raiseM (partOfLink k s) 0x800D (unitLink k) (BitVec.ofNat 64 seat) s)
  | [], none => s

/-! Clockwork sync messages (R126, R129 to R131). -/

/-- A sync interval ends (R126, R129 to R131): `refs` are the seats of role 1 or 2 that the agents hear, the own pod's and, for a
pod reference, the system reference's. A module that is its own reference is LOCKED to itself, from UNSYNCED or ACQUIRING; COASTING it
leaves by a valid exchange alone, but for a system reference without SYNCIN, which has none (log 22). A LOCKED module that hears its system
reference no more stays with it until four intervals have passed. -/
def syncInterval (t1 : W64) (refs : List Nat) (s : State) : State :=
  let own := seatOf s
  let role := (clocksCfg s).role
  let mine := refs.filter fun r => r / 64 == own / 64 && r != own
  let others := refs.filter fun r => r / 64 != own / 64
  let outside := role == 1 || podMembers s == 1
  let s := { s with cwk := { s.cwk with hearsSystem := outside && (!others.isEmpty || (s.cwk.hearsSystem && s.cwk.state == .locked)) } }
  let s := match role != 0 && podMembers s != 1, mine.min? with
    | true, some r =>
      if s.cwk.conflictSeat == some r then s
      else raiseM none 0x2007 0 (BitVec.ofNat 64 r) { s with cwk := { s.cwk with conflictSeat := some r } }
    | _, _ => s
  if selfReference s then
    if s.cwk.state == .coasting && role != 2 then s else { s with cwk := { s.cwk.locked with refSeat := own } }
  else if role == 2 then s
  else
    let ask := fun (r : Nat) (s : State) =>
      let s := { s with cwk := { s.cwk with refSeat := r, outstanding := some t1 } }
      let p := packet 4 0xC0 (r % 64) (own % 64) 1 true true 0 0 0 (ofWords [t1, 0])
      if r / 64 == own / 64 then
        match directLinks (r % 64) (fun _ => true) s ++ switchLinks (fun _ => true) s with
        | k :: _ => putPacket k p s
        | [] => s
      else match (partIds s).find? fun n => !(dmtLinks n s).isEmpty with
        | some n => dmtSend n r 4 0 0 p.h0 (ofWords [t1, 0]) s
        | none => s
    match (if outside then others else mine).min? with
    | some r => ask r s
    | none => s

/-- A sync request arrives at a reference (R129, R131): answered with its timestamps on the same link. -/
def syncReq (k seat : Nat) (t1 t2 t3 : W64) (s : State) : State :=
  let own := seatOf s
  if (clocksCfg s).role == 0 then s
  else
    let p := packet 4 0xC1 (seat % 64) (own % 64) 2 true true 0 0 0 (ofWords [t1, t2, t3, 0])
    if (linkCfg k s).mode == 1 then putPacket k p s
    else match partOfLink k s with
      | some n => dmtSend n seat 4 0 0 p.h0 (ofWords [t1, t2, t3, 0]) s
      | none => s

/-- The answer of the reference arrives at t4 (R126, R131): within 4 ns over a Dranto-mode path, 40 ns over DMT. -/
def syncResp (k seat : Nat) (t1 t2 t3 t4 : W64) (s : State) : State :=
  if s.cwk.outstanding == some t1 then
    let a := (t2 - t1).toInt
    let b := (t4 - t3).toInt
    exchange { offset := (a - b).tdiv 2, rtt := (t4 - t1).toInt - (t3 - t2).toInt }
      (if (linkCfg k s).mode == 2 then 320 else 32) 16 seat s
  else s

/-! Failure, narrowing, route switches (R468 to R475). -/

/-- A lane loses signal or lock (R468, R470): the link narrows to the other pair, or fails; a lane out of use, or of the pair that a link
retrains without, changes nothing. -/
def laneLoss (k lane cause : Nat) (s : State) : State :=
  let l := linkOf k s
  if (linkCfg k s).mode != 1 || !(inRange l.state 3 5) then s
  else if l.state == 4 && (linkCfg k s).narrowAllowed && l.lanePair == 0 then
    onLink k (fun l => { l with state := 5, narrowTo := if lane < 2 then 2 else 1, narrowCause := cause, widen := false }) s
  else
    let pair := if l.state == 5 && l.narrowTo != 0 then l.narrowTo else l.lanePair
    if pair != 0 && lane / 2 + 1 != pair then s else failLink k cause s

/-- Retraining on a pair ends (R470, R472): retry resumes from the last ACK_SEQ. -/
def narrowingDone (k : Nat) (s : State) : State :=
  let l := linkOf k s
  if l.state != 5 then s
  else
    let s := onLink k (fun l => { l with state := 4, lanePair := l.narrowTo, widen := false }) s
    let s := if l.narrowTo == 0 then s else raiseM (partOfLink k s) 0x8004 (unitLink k) (BitVec.ofNat 64 l.narrowTo) s
    drainAll k (if l.retry.isEmpty then s else resendAll k s)

/-- Retraining does not end within 100 µs (R470, R472): a link that was widening narrows again, any other fails. -/
def narrowingTimeout (k : Nat) (s : State) : State :=
  let l := linkOf k s
  if l.state != 5 then s
  else if l.narrowTo == 0 then onLink k (fun l => { l with narrowTo := l.lanePair, widen := false }) s
  else failLink k l.narrowCause s

/-- No acknowledgement progress (R468). -/
def ackTimeout (k : Nat) (s : State) : State :=
  if (linkOf k s).retry.isEmpty || (linkOf k s).state == 5 then s else failLink k 3 s

/-- HANDOVER for a failed link (R469, R468 cause 10): packets that begin after the flit named are sent over the new routes. -/
def handover (k seq : Nat) (s : State) : State :=
  let s := if inRange (linkOf k s).state 3 5 then failLink k 10 s else s
  let l := linkOf k s
  if !l.handover then s
  else
    afterDown k (((dropAcked seq l.retry).filterMap TxFlit.head).foldl (resend k) s)

/-- No HANDOVER within 500 µs (R469). -/
def handoverTimeout (k : Nat) (s : State) : State := if (linkOf k s).handover then abandonRetry k s else s

/-- The peer proposes a switch count (R471): a LOCKED module agrees to one at least 2 ms ahead. -/
def switchPropose (k : Nat) (count : W64) (s : State) : State :=
  let l := linkOf k s
  if s.cwk.state == .locked && (l.state == 3 || (l.state == 4 && l.lanePair != 0)) && l.switchAt.isNone && now s + 2000000 ≤ count then
    sendAgentOn k 0x03 [1, count] (onLink k (fun l => { l with switchAt := some count }) s)
  else s

/-- The peer agrees (R471). -/
def switchAgree (k : Nat) (count : W64) (s : State) : State :=
  let l := linkOf k s
  if l.proposed == some count && l.switchAt.isNone then onLink k (fun l => { l with switchAt := some count, proposed := none }) s else s

/-- The switch count (R471, R472, R475): the links of the switch join the table, which comes into force; a link that is not fit leaves it
at once; a narrowed link retrains on four lanes. The counter stands at least at the count. -/
def routeSwitch (s : State) : State :=
  let first := (s.fab.links.filterMap Link.switchAt).foldl (fun (b : Option W64) c => match b with
    | none => some c
    | some x => some (if c < x then c else x)) none
  let s := match first with
    | some c => if now s < c then { s with cwk := { s.cwk with now := c } } else s
    | none => s
  let due := (List.range 36).filter fun k => match (linkOf k s).switchAt with
    | some c => c ≤ now s
    | none => false
  match due with
  | [] => s
  | d :: _ =>
    let count := ((linkOf d s).switchAt).getD 0
    let wide := due.filter fun k => (linkOf k s).state == 4
    let fit := due.filter fun k => (linkOf k s).state == 3
    let unfit := due.filter fun k => !(wide.contains k) && !(fit.contains k)
    let s := flipTables [] (fit ++ unfit) s
    let s := due.foldl (fun s k => onLink k (fun l => { l with switchAt := none }) s) s
    let s := fit.foldl (fun s k => raiseM (partOfLink k s) 0x8005 (unitLink k) count
      (onLink k (fun l => { l with state := 4, attempts := 0, tries := 0 }) s)) s
    let s := wide.foldl (fun s k => onLink k (fun l => { l with state := 5, narrowTo := 0 }) s) s
    let s := raiseM none 0x8006 0 count s
    let s := if unfit.isEmpty then s else flipTables unfit [] s
    pumpChunks (fit.foldl (fun s k => drainAll k s) s)

/-- A virtual lane has had a packet waiting for SATURATION_WINDOW_US (R438): once for each entry into the state. -/
def linkSaturation (k v : Nat) (s : State) : State :=
  let l := linkOf k s
  if (l.headOf v).isSome && !l.sat.contains v then
    let s := onLink k (fun l => { l with sat := v :: l.sat }) s
    match partOfLink k s with
    | some n => raiseP n 0x8007 (unitLink k) (BitVec.ofNat 64 v) s
    | none => s
  else s

/-! DMT (R460 to R465). -/

/-- Change a receiving flow. -/
def onRx (part seat cls flow : Nat) (h : RxFlow → RxFlow) (s : State) : State :=
  onFab (fun b => { b with rx := b.rx.map fun f =>
    if f.part == part && f.seat == seat && f.cls == cls && f.flow == flow then h f else f }) s

/-- Send an ACK of a flow (R462): the last PSN in order, what is held beyond, WINDOW 64 ahead, and for classes 3 and 4 no further than the
reservations of the link's receiver reach (R332), a buffer for each segment (R485). -/
def sendAck (k : Nat) (f : RxFlow) (s : State) : State :=
  let ack := (f.next + 2 ^ 32 - 1) % 2 ^ 32
  let ahead := if f.cls == 3 || f.cls == 4 then min 64 (receiverRoom k s) else 64
  let sack := f.held.foldl (fun n g => let i := (g.psn + 2 ^ 32 - f.next) % 2 ^ 32; if i < 64 then n ||| 2 ^ i else n) 0
  send (.dmt k f.seat (udpSource f.flow)
    (dmtHeader 1 f.cls false false (seatOf s) f.seat f.flow 0 ack (BitVec.ofNat 64 sack) ((ack + ahead) % 2 ^ 32)) [] [])
    (onRx f.part f.seat f.cls f.flow (fun f => { f with unacked := 0, window := (ack + ahead) % 2 ^ 32 }) s)

/-- A segment is delivered (R462): channel entries and credits are written straight to what their inner headers name; other classes land
in their pool, and their messages are commands of their own. -/
def deliverSeg (f : RxFlow) (g : Seg) (s : State) : State :=
  let p : Packet := ⟨g.h0, g.h1, g.data⟩
  if f.cls == 0 then
    match jobWithChannel f.part f.seat (fld g.h0 31 22) (fld g.h0 21 18) s with
    | some (j, h) =>
      if inside p.addr g.data.length (h.buffer, h.depth * h.entryBytes) then channelWrite j h p.addr g.data g.last s else s
    | none => s
  else if f.cls == 1 && p.opcode == 0x85 then chanCredit f.part f.seat (fld g.h0 31 22) (fld g.h0 21 18) s
  else s

/-- Deliver held segments in PSN order (R462). -/
def deliverHeld (part seat cls flow : Nat) : Nat → State → State
  | 0, s => s
  | n + 1, s =>
    match s.fab.rx.find? fun f => f.part == part && f.seat == seat && f.cls == cls && f.flow == flow with
    | none => s
    | some f => match f.held.find? fun g => g.psn == f.next with
      | none => s
      | some g =>
        let s := onRx part seat cls flow (fun f =>
          { f with next := (f.next + 1) % 2 ^ 32, held := f.held.filter fun x => x.psn != g.psn }) s
        deliverHeld part seat cls flow n (deliverSeg f g s)

/-- A DATA segment arrives (R462, R464): delivered in order, held up to 64 beyond a gap, duplicates and what lies beyond WINDOW
discarded and counted; an ACK after every 16; a CNP for CE, at most once in 50 µs. -/
def dmtData (k : Nat) (d0 d1 h0 h1 : W64) (data : List Byte) (ce : Bool) (s : State) : State :=
  match partOfLink k s with
  | none => s
  | some n =>
    let seat := fld d0 47 36
    let cls := fld d0 55 53
    let flow := fld d0 23 0
    let psn := fld d1 63 32
    if (linkCfg k s).mode != 2 || (linkOf k s).state != 4 || fld d0 35 24 != seatOf s || !(cls == 0 || cls == 1 || cls == 3 || cls == 4)
    then onLink k (fun l => { l with dmtDiscards := l.dmtDiscards + 1 }) s
    else
      let has := s.fab.rx.any fun f => f.part == n && f.seat == seat && f.cls == cls && f.flow == flow
      let s := if has then s else onFab (fun b => { b with rx := b.rx ++ [{ part := n, seat, cls, flow }] }) s
      match s.fab.rx.find? fun f => f.part == n && f.seat == seat && f.cls == cls && f.flow == flow with
      | none => s
      | some f =>
        let s := match ce, f.cnpAt with
          | true, some t => if 50000 ≤ (now s - t).toNat then
              send (.dmt k seat (udpSource flow) (dmtHeader 2 cls false false (seatOf s) seat flow 0 0 0 0) [] [])
                (onRx n seat cls flow (fun f => { f with cnpAt := some (now s) }) s) else s
          | true, none =>
              send (.dmt k seat (udpSource flow) (dmtHeader 2 cls false false (seatOf s) seat flow 0 0 0 0) [] [])
                (onRx n seat cls flow (fun f => { f with cnpAt := some (now s) }) s)
          | false, _ => s
        if 64 ≤ (psn + 2 ^ 32 - f.next) % 2 ^ 32 || !seqLe psn f.window || f.held.any fun g => g.psn == psn then
          onLink k (fun l => { l with dmtDiscards := l.dmtDiscards + 1 }) s
        else
          let g : Seg := { psn, last := bit d0.toNat 52, h0, h1, data }
          let s := onRx n seat cls flow (fun f => { f with held := f.held ++ [g], unacked := f.unacked + 1 }) s
          let s := deliverHeld n seat cls flow 65 s
          match s.fab.rx.find? fun f => f.part == n && f.seat == seat && f.cls == cls && f.flow == flow with
          | some f => if 16 ≤ f.unacked then sendAck k f s else s
          | none => s

/-- An ACK arrives (R461 to R463): acknowledged segments leave the store, SRTT takes the sample with weight 1/8, segments that three
later ones have overtaken are resent. -/
def dmtAck (k : Nat) (d0 d1 sack d3 : W64) (s : State) : State :=
  match partOfLink k s with
  | none => s
  | some n =>
    let seat := fld d0 47 36
    let cls := fld d0 55 53
    let flow := fld d0 23 0
    let ack := fld d1 31 0
    match s.fab.tx.find? fun f => f.part == n && f.seat == seat && f.cls == cls && f.flow == flow with
    | none => s
    | some f =>
      let gone := f.segs.filter fun g => g.out && seqLe g.psn ack
      let sample := (gone.getLast?).map fun g => (now s - g.sent).toNat
      let segs := (f.segs.filter fun g => !(g.out && seqLe g.psn ack)).map fun g =>
        if (g.psn + 2 ^ 32 - 1 - ack) % 2 ^ 32 < 64 && sack.toNat.testBit ((g.psn + 2 ^ 32 - 1 - ack) % 2 ^ 32) then { g with sacked := true } else g
      let lost := segs.filter fun g => g.out && !g.sacked && 3 ≤ (segs.filter fun x => x.sacked && x.psn != g.psn && seqLe g.psn x.psn).length
      let t := now s
      let s := onTx n seat cls flow (fun f => { f with
        segs := segs.map fun g => if lost.any fun x => x.psn == g.psn then { g with sent := t } else g,
        window := fld d3 63 32,
        srtt := match sample with
          | some x => if f.srtt == 0 then x else (7 * f.srtt + x) / 8
          | none => f.srtt }) s
      let s := lost.foldl (fun s g => sendSeg f g true s) s
      pumpChunks (pumpFlow n seat cls flow segs.length s)

/-- A CNP arrives (R464). -/
def dmtCnp (part seat cls flow : Nat) (s : State) : State :=
  onTx part seat cls flow (fun f => { f with rate := max (f.rate * 7 / 8) (100000000000 / 256) }) s

/-- 50 µs without a CNP (R464). -/
def dmtRecovery (part seat cls flow : Nat) (s : State) : State :=
  onTx part seat cls flow (fun f => { f with rate := min (f.rate + 100000000000 / 64) 100000000000 }) s

/-- RTO of a flow in ns (R463). -/
def TxFlow.rto (f : TxFlow) : Nat := min 10000000 (max 50000 (4 * f.srtt))

/-- A segment has been unacknowledged for RTO (R463): resent. -/
def dmtRto (part seat cls flow : Nat) (s : State) : State :=
  match s.fab.tx.find? fun f => f.part == part && f.seat == seat && f.cls == cls && f.flow == flow with
  | none => s
  | some f =>
    let t := now s
    let late := f.segs.filter fun g => g.out && !g.sacked && f.rto ≤ (t - g.sent).toNat
    let s := onTx part seat cls flow (fun f => { f with
      segs := f.segs.map fun g => if late.any fun x => x.psn == g.psn then { g with sent := t } else g }) s
    late.foldl (fun s g => sendSeg f g true s) s

/-- A DATA packet is acknowledged within 10 µs (R462). -/
def dmtAckTimer (k seat cls flow : Nat) (s : State) : State :=
  match partOfLink k s with
  | none => s
  | some n => match s.fab.rx.find? fun f => f.part == n && f.seat == seat && f.cls == cls && f.flow == flow with
    | some f => if f.unacked != 0 then sendAck k f s else s
    | none => s

/-- A control frame of an Ethernet-mode link (R458): ARP, neighbour discovery and echo are answered, echo up to 100 times a second;
any other frame is discarded and counted. -/
def controlFrame (k kind : Nat) (s : State) : State :=
  if (linkCfg k s).mode != 2 || (linkOf k s).state != 4 then s
  else
    let sec := (now s).toNat / 1000000000
    if kind == 0 || kind == 1 then send (.ethernet k kind) s
    else if kind == 2 then
      let n := if s.fab.echoSecond == sec then s.fab.echoes else 0
      if n < 100 then send (.ethernet k 2) (onFab (fun f => { f with echoes := n + 1, echoSecond := sec }) s) else s
    else onLink k (fun l => { l with dmtDiscards := l.dmtDiscards + 1 }) s

/-! The fabric manager (R44, R458, R459, R465). -/

/-- A message of the fabric manager from a source address (R44): without an entry for 0x40 it is discarded and counted, among the DMT
discards of its link (DESIGN CHOICE, log 201); an order enters the slot of 0x40, a setting applies. -/
def fabricManager (k src : Nat) (m : FmMsg) (s : State) : State :=
  if (masterOf 0x40 s).isNone then onLink k (fun l => { l with dmtDiscards := l.dmtDiscards + 1 }) s
  else
    let s := onFab (fun f => { f with fmLink := some k, fmAddr := some src }) s
    match m with
    | .order w last =>
      enterOrder 0x40 w last (if (slotOf 0x40 s).status == 1 then s else onFab (fun f => { f with fmOrderFrom := src }) s)
    | .nextHop l mac => onLink l (fun x => { x with nextHop := some mac }) s
    | .seatAddress seat ip => pumpAll (onFab (fun f => { f with seats := (seat, ip) :: f.seats.filter fun p => p.1 != seat }) s)
    | .segment n => if inRange n 1024 8192 && n % 1024 == 0 then onFab (fun f => { f with segment := n }) s else s
    | .dscp c v => onFab (fun f => { f with dscp := setAt f.dscp c (v % 64) }) s
    | .pfc on => onFab (fun f => { f with pfc := on }) s

/-- LINK_TRAIN_STAGE_DONE. -/
def execLinkTrainStageDone (link pair : Nat) (s : State) : Host.Outcome State Fault Refusal := .next (stageDone link pair s)
/-- A stage times out, or an Ethernet-mode attempt does (R427, R429). -/
def execLinkTrainTimeout (link : Nat) (s : State) : Host.Outcome State Fault Refusal :=
  .next (if (linkOf link s).stage != 0 && !(linkOf link s).waiting then attemptFails link s else s)
/-- The 10 ms end: the next attempt starts at stage 1 (R427). -/
def execLinkTrainRetryEnd (link : Nat) (s : State) : Host.Outcome State Fault Refusal :=
  .next (if (linkOf link s).waiting then onLink link (fun l =>
    { l with waiting := false, state := 1, stage := 1, lanePair := 0, identified := false }) s else s)
/-- IDENTITY_FLIT. -/
def execIdentityFlit (link seat peer mode : Nat) (narrow forward : Bool) (pair : Nat) (s : State) :
    Host.Outcome State Fault Refusal := .next (identityFlit link seat peer mode narrow forward pair s)
/-- ETHERNET_LINK_UP. -/
def execEthernetLinkUp (link : Nat) (s : State) : Host.Outcome State Fault Refusal := .next (ethernetUp link s)
/-- ETHERNET_LINK_DOWN. -/
def execEthernetLinkDown (link : Nat) (s : State) : Host.Outcome State Fault Refusal := .next (ethernetDown link s)
/-- FLIT_RECEIVE. -/
def execFlitReceive (link : Nat) (words : List W64) (s : State) : Host.Outcome State Fault Refusal := .next (flitReceive link words s)
/-- NAK_REPEAT. -/
def execNakRepeat (link : Nat) (s : State) : Host.Outcome State Fault Refusal := .next (nakRepeat link s)
/-- SYNC_REQ. -/
def execSyncReq (link seat : Nat) (t1 t2 t3 : W64) (s : State) : Host.Outcome State Fault Refusal := .next (syncReq link seat t1 t2 t3 s)
/-- HEARTBEAT. -/
def execHeartbeat (link seat : Nat) (_count reach : W64) (s : State) : Host.Outcome State Fault Refusal := .next (heartbeat link seat reach s)
/-- HEARTBEAT_TIMER. -/
def execHeartbeatTimer (s : State) : Host.Outcome State Fault Refusal := .next (heartbeatTimer s)
/-- HEARTBEAT_MISS_TIMEOUT. -/
def execHeartbeatMissTimeout (seat : Nat) (s : State) : Host.Outcome State Fault Refusal := .next (peerDead seat s)
/-- HANDOVER. -/
def execHandover (link seq : Nat) (s : State) : Host.Outcome State Fault Refusal := .next (handover link seq s)
/-- SWITCH_PROPOSE. -/
def execSwitchPropose (link : Nat) (count : W64) (s : State) : Host.Outcome State Fault Refusal := .next (switchPropose link count s)
/-- SWITCH_AGREE. -/
def execSwitchAgree (link : Nat) (count : W64) (s : State) : Host.Outcome State Fault Refusal := .next (switchAgree link count s)
/-- LANE_LOSS_OF_LOCK. -/
def execLaneLossOfLock (link lane : Nat) (s : State) : Host.Outcome State Fault Refusal := .next (laneLoss link lane 1 s)
/-- ACK_PROGRESS_TIMEOUT. -/
def execAckProgressTimeout (link : Nat) (s : State) : Host.Outcome State Fault Refusal := .next (ackTimeout link s)
/-- HANDOVER_TIMEOUT. -/
def execHandoverTimeout (link : Nat) (s : State) : Host.Outcome State Fault Refusal := .next (handoverTimeout link s)
/-- NARROWING_DONE. -/
def execNarrowingDone (link : Nat) (s : State) : Host.Outcome State Fault Refusal := .next (narrowingDone link s)
/-- NARROWING_TIMEOUT. -/
def execNarrowingTimeout (link : Nat) (s : State) : Host.Outcome State Fault Refusal := .next (narrowingTimeout link s)
/-- ROUTE_SWITCH_COUNT. -/
def execRouteSwitchCount (s : State) : Host.Outcome State Fault Refusal := .next (routeSwitch s)
/-- SWITCH_REPROPOSE_TIMER. -/
def execSwitchReproposeTimer (link : Nat) (s : State) : Host.Outcome State Fault Refusal := .next (proposeSwitch link s)
/-- LINK_SATURATION_TIMEOUT. -/
def execLinkSaturationTimeout (link vl : Nat) (s : State) : Host.Outcome State Fault Refusal := .next (linkSaturation link vl s)
/-- DMT_DATA. -/
def execDmtData (link : Nat) (d0 d1 h0 h1 : W64) (data : List Byte) (ce : Bool) (s : State) : Host.Outcome State Fault Refusal :=
  .next (dmtData link d0 d1 h0 h1 data ce s)
/-- DMT_ACK. -/
def execDmtAck (link : Nat) (d0 d1 d2 d3 : W64) (s : State) : Host.Outcome State Fault Refusal := .next (dmtAck link d0 d1 d2 d3 s)
/-- DMT_CNP. -/
def execDmtCnp (partition seat cls flow : Nat) (s : State) : Host.Outcome State Fault Refusal := .next (dmtCnp partition seat cls flow s)
/-- DMT_ACK_TIMER. -/
def execDmtAckTimer (link seat cls flow : Nat) (s : State) : Host.Outcome State Fault Refusal := .next (dmtAckTimer link seat cls flow s)
/-- DMT_RTO. -/
def execDmtRto (partition seat cls flow : Nat) (s : State) : Host.Outcome State Fault Refusal := .next (dmtRto partition seat cls flow s)
/-- DMT_RATE_RECOVERY. -/
def execDmtRateRecovery (partition seat cls flow : Nat) (s : State) : Host.Outcome State Fault Refusal :=
  .next (dmtRecovery partition seat cls flow s)
/-- ETHERNET_CONTROL_FRAME. -/
def execEthernetControlFrame (link kind : Nat) (s : State) : Host.Outcome State Fault Refusal := .next (controlFrame link kind s)
end Sys2Proof.Machine
end

