-- ==== Sys2Proof/Machine/Reduce.lean ====
section
/-! DEFINITION. Machine/Reduce.lean: the Domino engines (13 R478 to R498, R518, R519): reductions over rings, trees and atomics, the
norm and the counts, broadcast, gather and permute. -/
namespace Sys2Proof.Machine

/-! Blocks and chunks (R484). -/

/-- The blocks of a REDUCE descriptor: (segment, first element, elements that are not padding). -/
def Job.blocks (j : Job) (c : List W64) : List (Nat × Nat × Nat) :=
  (cSegs c).flatMap fun g => match j.seg g with
    | some q =>
      let n := (segFields q.words).elements
      (List.range ((n + 31) / 32)).map fun b => (g, 32 * b, min 32 (n - 32 * b))
    | none => []

/-- The blocks of chunk `i`. -/
def chunkBlocks (bs : List (Nat × Nat × Nat)) (i : Nat) : List (Nat × Nat × Nat) := (bs.drop (512 * i)).take 512

/-- Address of the accumulator word of an element. -/
def Job.accAddr (j : Job) (g e : Nat) : Nat := match j.seg g with
  | some q => (segFields q.words).fieldBase + 4 * e
  | none => 0

/-- The accumulator words of a block, padding as +0. -/
def blockAcc (j : Job) (b : Nat × Nat × Nat) (m : Mem) : List Nat :=
  ((List.range b.2.2).map fun i => rdNat (j.accAddr b.1 (b.2.1 + i)) 4 m) ++ List.replicate (32 - b.2.2) 0

/-- Chunks of a descriptor (R484). -/
def Job.chunks (j : Job) (c : List W64) : Nat :=
  match cOp c with
  | 0 => ((j.blocks c).length + 511) / 512
  | 1 => ((j.blocks c).length + 511) / 512
  | 5 => 1
  | _ => (cBytes c + 65535) / 65536

/-- The exponent bytes that this rank contributes to a chunk (R491). -/
def ownExponents (j : Job) (c : List W64) (i : Nat) (m : Mem) : List Nat :=
  (chunkBlocks (j.blocks c) i).map fun b => dxExponent (blockAcc j b m)

/-- The DX32 words that this rank contributes to a chunk, for agreed exponents (R491). -/
def ownWords (j : Job) (c : List W64) (i : Nat) (es : List Nat) (m : Mem) : List Nat :=
  ((chunkBlocks (j.blocks c) i).zip es).flatMap fun p =>
    if p.2 == 0xFF then List.replicate 32 0
    else (blockAcc j p.1 m).map fun w => (dxEncode (dxScale p.2) w % (2 ^ 32 : Int)).toNat

/-- The FP32 values that this rank contributes to a chunk (R494). -/
def ownAcc (j : Job) (c : List W64) (i : Nat) (m : Mem) : List Nat := (chunkBlocks (j.blocks c) i).flatMap fun b => blockAcc j b m

/-- s_j and their sum (R496): squares in binary64, ascending element order, then ascending segment and block of 1,024. -/
def ownNorm (j : Job) (c : List W64) (m : Mem) : Nat :=
  (cSegs c).foldl (fun t g => match j.seg g with
    | some q =>
      let n := (segFields q.words).elements
      (List.range ((n + 1023) / 1024)).foldl (fun t b =>
        f64Add t ((List.range (min 1024 (n - 1024 * b))).foldl (fun x i =>
          let w := f64Of32 (rdNat (j.accAddr g (1024 * b + i)) 4 m)
          f64Add x (f64Mul w w)) 0)) t
    | none => t) 0

/-- The counts that this rank contributes to a chunk (R497). -/
def ownCounts (c : List W64) (i : Nat) (m : Mem) : List Nat :=
  (List.range (min 16384 (cBytes c / 4 - 16384 * i))).map fun k => rdNat (cSrc c + 65536 * i + 4 * k) 4 m

/-- How contributions combine (R491, R494, R496, R497). -/
def combine1 (op pass a b : Nat) : Nat :=
  if pass == 0 then max a b
  else match op with
    | 1 => f32Add a b
    | 5 => f64Add a b
    | _ => (a + b) % 2 ^ 32

/-- Element by element. -/
def combineAll (op pass : Nat) (a b : List Nat) : List Nat := List.zipWith (combine1 op pass) a b

/-- Bytes of one value in a message. -/
def valueBytes (op pass : Nat) : Nat := if pass == 0 then 1 else if op == 5 then 8 else 4

/-- CTYPE of a message of a reduction: exponents, words, and for the other trees partials up and data down. -/
def reduceType (op algo pass : Nat) (down : Bool) : Nat :=
  if pass == 0 then 0 else if op == 0 || algo == 0 then 1 else if down then 3 else 2

/-- A value to be sent: to a rank, CTYPE, RING_STEP, values. -/
structure CSend where
  rank : Nat
  ctype : Nat
  ring : Nat
  vals : List Nat
deriving DecidableEq, Repr

/-- What a unit sends next on a ring (R486): `sh` is the shard of its chunk. -/
def CUnit.ring (op p r sh : Nat) (u : CUnit) : CUnit × List CSend :=
  let nxt := (r + 1) % p
  let t := rankSub p r sh
  let ct := reduceType op 0 u.pass false
  match u.sent, u.own with
  | false, some v =>
    if p == 1 then ({ u with sent := true, result := some v }, [])
    else if t == 0 then ({ u with sent := true }, [⟨nxt, ct, 0, v⟩])
    else match u.prev with
      | some w =>
        let x := combineAll op u.pass w v
        if t == p - 1 then ({ u with sent := true, result := some x }, [⟨nxt, ct, p - 1, x⟩])
        else ({ u with sent := true }, [⟨nxt, ct, t, x⟩])
      | none => (u, [])
  | _, _ => (u, [])

/-- What a unit sends next on the canonical tree (R487). -/
def CUnit.tree (op p r : Nat) (u : CUnit) : CUnit × List CSend :=
  let kids := treeKids p r
  let ps := kids.map fun k => u.parts.find? fun q => q.1 == k
  match u.sent, u.own with
  | false, some v =>
    if ps.all Option.isSome then
      let x := ps.foldl (fun a q => match q with
        | some q => combineAll op u.pass a q.2
        | none => a) v
      if r == 0 then ({ u with sent := true, result := some x },
        kids.map fun k => ⟨k, reduceType op 1 u.pass true, 0, x⟩)
      else ({ u with sent := true }, [⟨treeParent r, reduceType op 1 u.pass false, 0, x⟩])
    else (u, [])
  | _, _ => (u, [])

/-- The algorithm of a pass: the exponent pass of ATOMIC runs as RING (R488). -/
def passTree (c : List W64) : Bool := cAlgo c == 1

/-- Change a request that an engine holds. -/
def onRun (j : Job) (id : Nat) (f : CRun → CRun) (s : State) : State :=
  onColl j (fun q => { q with runs := q.runs.map fun r => if r.id == id then f r else r }) s

/-- A request that an engine holds. -/
def runOf (j : Job) (id : Nat) (s : State) : Option CRun := (fresh j s).coll.runs.find? fun r => r.id == id

/-- Change a unit of a run. -/
def CRun.onUnit (pass chunk : Nat) (f : CUnit → CUnit) (r : CRun) : CRun :=
  { r with units := r.units.map fun u => if u.pass == pass && u.chunk == chunk then f u else u }

/-- A unit of a run. -/
def CRun.unit (r : CRun) (pass chunk : Nat) : Option CUnit := r.units.find? fun u => u.pass == pass && u.chunk == chunk

/-- Let one unit send what it can. -/
def moveUnit (j : Job) (id pass chunk : Nat) (s : State) : State :=
  match runOf j id s with
  | none => s
  | some r => match r.unit pass chunk with
    | none => s
    | some u =>
      let c := j.cdesc r.cdesc
      let p := j.ranks (cGroup c)
      let me := j.myRank (cGroup c)
      let (v, out) := if passTree c then u.tree (cOp c) p me else u.ring (cOp c) p me (shardOf (j.chunks c) p chunk)
      let s := onRun j id (CRun.onUnit pass chunk fun _ => v) s
      out.foldl (fun s m =>
        sendColl (fresh j s) (cGroup c) m.rank m.ctype 0 r.cdesc m.ring chunk (wordBytes (valueBytes (cOp c) pass) m.vals) s) s

/-- Region of a rank's scratch shard (R488). -/
def scratchOf (j : Job) (c : List W64) (rank : Nat) : Option RegionMap := match j.run with
  | some r => r.regions.find? fun g => g.member == j.rankSeat (cGroup c) rank % 64 && g.key == cKey c
  | none => none

/-- Send this rank's words of a chunk as fetch-add atomics of DX32 to the rank of its shard (R488). -/
def sendAtomics (j : Job) (r : CRun) (chunk : Nat) (es : List Nat) (s : State) : State :=
  let c := j.cdesc r.cdesc
  let p := j.ranks (cGroup c)
  let k := j.chunks c
  let q := shardOf k p chunk
  match scratchOf j c q with
  | none => stopAt j r.tile ⟨0x000B, cScratch c⟩ s
  | some g =>
    let data := wordBytes 4 (ownWords j c chunk es s.mem)
    let a := g.base + cScratch c + 65536 * (chunk - q * k / p)
    let ps := pieces 512 (data.length + 1) a data.length
    let s := onRun j r.id (fun r => { r with issued := chunk :: r.issued, waiting := r.waiting + ps.length }) s
    ps.foldl (fun s x =>
      issueRequest (fresh j s) r.tile 0 g
        { op := 0x46, addr := x.1, len := x.2, data := (data.drop (x.1 - a)).take x.2, count := x.2 / 4, use := .engine r.cdesc } s) s

/-- The accumulator words of a chunk's blocks, as ranges. -/
def accRanges (j : Job) (bs : List (Nat × Nat × Nat)) : List (Nat × Nat) := bs.map fun b => (j.accAddr b.1 b.2.1, 4 * b.2.2)

/-- The first poisoned line of ranges that an engine reads (R326). -/
def poisonedOf (rs : List (Nat × Nat)) (s : State) : Option Nat := rs.findSome? fun r => poisoned r.1 r.2 s

/-- The agreed exponents of a chunk open its value pass (R491), and set the non-finite flag (R499). A poisoned accumulator line stops
the run (R326). -/
def openValues (j : Job) (id chunk : Nat) (s : State) : State :=
  match runOf j id s with
  | none => s
  | some r =>
    let c := j.cdesc r.cdesc
    match r.unit 0 chunk, r.unit 1 chunk with
    | some u, some v =>
      match u.result with
      | some es =>
        let s := if es.any (0xF2 ≤ ·) then onColl j (fun q => { q with nonfinite := true }) s else s
        if (if cAlgo c == 2 then r.issued.contains chunk else v.own.isSome) then s
        else match poisonedOf (accRanges j (chunkBlocks (j.blocks c) chunk)) s with
        | some a => stopAt (fresh j s) r.tile ⟨0x000D, a⟩ s
        | none =>
        if cAlgo c == 2 then sendAtomics (fresh j s) r chunk es s
        else onRun j id (CRun.onUnit 1 chunk fun v => { v with own := some (ownWords j c chunk es s.mem) }) s
      | none => s
    | _, _ => s

/-- All atomics are acknowledged (R488): DONE goes to every rank. -/
def sendDone (j : Job) (id : Nat) (s : State) : State :=
  match runOf j id s with
  | none => s
  | some r =>
    let c := j.cdesc r.cdesc
    let g := cGroup c
    if cOp c == 0 && cAlgo c == 2 && !r.doneSent && r.waiting == 0 && r.issued.length == j.chunks c then
      let me := j.myRank g
      let s := onRun j id (fun r => { r with doneSent := true, dones := me :: r.dones }) s
      ((List.range (j.ranks g)).filter (· != me)).foldl (fun s q => sendColl (fresh j s) g q 9 0 r.cdesc 0 noChunk [] s) s
    else s

/-- With every DONE there, the scratch shard holds complete sums, which pass round the ring (R488). -/
def readScratch (j : Job) (id : Nat) (s : State) : State :=
  match runOf j id s with
  | none => s
  | some r =>
    let c := j.cdesc r.cdesc
    let g := cGroup c
    let p := j.ranks g
    let me := j.myRank g
    let k := j.chunks c
    if cOp c == 0 && cAlgo c == 2 && r.doneSent && r.dones.length == p then
      match scratchOf j c me with
      | none => s
      | some rg => (shardChunks k p me).foldl (fun s i =>
          match (runOf j id s).bind fun r => r.unit 1 i with
          | some u =>
            if u.result.isSome then s
            else
              let n := 32 * (chunkBlocks (j.blocks c) i).length
              let a := rg.base + cScratch c + 65536 * (i - me * k / p)
              match poisoned a (4 * n) s with
              | some x => stopAt (fresh j s) r.tile ⟨0x000D, x⟩ s
              | none =>
              let ws := (List.range n).map fun w => rdNat (a + 4 * w) 4 s.mem
              let s := onRun j id (CRun.onUnit 1 i fun u => { u with result := some ws, sent := true }) s
              if p == 1 then s else sendColl (fresh j s) g ((me + 1) % p) 1 0 r.cdesc (p - 1) i (wordBytes 4 ws) s
          | none => s) s
    else s

/-! Landing (R492) and what follows. -/

/-- Write the results of a chunk over the accumulators: `vals` in block order. -/
def landBlocks (j : Job) (bs : List (Nat × Nat × Nat)) (vals : List Nat) (s : State) : State :=
  bs.zipIdx.foldl (fun s p =>
    store (j.accAddr p.1.1 p.1.2.1) (wordBytes 4 ((vals.drop (32 * p.2)).take p.1.2.2)) s) s

/-- The FP32 results of a chunk of sums (R252, R492). -/
def decodeSums (es vals : List Nat) : List Nat :=
  es.zipIdx.flatMap fun p => ((vals.drop (32 * p.2)).take 32).map fun w =>
    if p.1 == 0xFF then lF32.nan else dxDecode (dxScale p.1) (i32 w)

/-- The update of a segment whose reduction has landed starts in early mode (R370): RUNNING when its counts are there, else WAITING;
PROVISIONAL while NORM is not valid. -/
def startLanes (j : Job) (g : Nat) (s : State) : State :=
  match j.seg g with
  | none => s
  | some q =>
    if earlyMode j.part s && (q.upd == 0 || q.upd == 1) && q.acc == 1 then
      let n := laneCount j.part s
      wakeSerden j.part <| onSeg j g (fun q =>
        if scalarsReady j q s then ({ q with outcome := 0, provisional := (clipOf (j.during q) s).2 }).running true n
        else { q with upd := 1, outcome := 0, lanesLeft := n }) s
    else s

/-- Segments whose blocks have all landed (R492). -/
def landSegments (j : Job) (r : CRun) (s : State) : State :=
  let c := j.cdesc r.cdesc
  let bs := j.blocks c
  (cSegs c).foldl (fun s g =>
    let j := fresh j s
    let own := bs.zipIdx.filter fun p => p.1.1 == g
    let all := own.all fun p => match r.unit 1 (p.2 / 512) with
      | some u => u.landed
      | none => false
    if all && !j.coll.landed.contains g then
      let s := onColl j (fun q => { q with landed := g :: q.landed }) s
      startLanes (fresh j s) g s
    else s) s

/-- NORM has become valid (R370): with a clip scale other than 1.0 every PROVISIONAL segment runs again; deferred segments that waited for
their clip scale run (R366). -/
def normArrives (j : Job) (s : State) : State :=
  let s := runDeferred (fresh j s) s
  if (clipOf j s).1 == 0x3F800000 then s
  else onJob j.part j.num (fun j => { j with segs := j.segs.map fun g =>
    if g.provisional && (g.upd == 2 || g.upd == 3) then
      ({ g with provisional := false, reruns := satInc 63 g.reruns }).running true (laneCount j.part s)
    else g }) s

/-- The counts have become valid (R352, R370): WAITING segments run. -/
def countsArrive (j : Job) (s : State) : State :=
  if earlyMode j.part s then (j.segs.filter fun g => g.upd == 1).foldl (fun s g => startLanes (fresh j s) g.index s) s
  else runDeferred (fresh j s) s

/-- Land one chunk of a descriptor. -/
def landChunk (j : Job) (id chunk : Nat) (s : State) : State :=
  match runOf j id s with
  | none => s
  | some r => match r.unit 1 chunk with
    | none => s
    | some u => match u.result, u.landed with
      | some vals, false =>
        let c := j.cdesc r.cdesc
        let bs := chunkBlocks (j.blocks c) chunk
        let s := onRun j id (CRun.onUnit 1 chunk fun u => { u with landed := true }) s
        match cOp c with
        | 0 =>
          let es := ((r.unit 0 chunk).bind CUnit.result).getD []
          landBlocks j bs (decodeSums es vals) s
        | 1 =>
          let s := if nonfinite32 vals then onColl j (fun q => { q with nonfinite := true }) s else s
          landBlocks j bs vals s
        | 5 =>
          let a := (j.table.map OptTable.base).getD 0
          let s := store (a + 28) (leBytes 4 (f32Of64 (f64Sqrt (vals.getD 0 0)))) s
          normArrives (fresh j s) (store (a + 16) (leBytes 4 j.step.toNat) s)
        | _ =>
          let a := fld (heldWord j 1) 47 0
          let s := store (a + 65536 * chunk) (wordBytes 4 vals) s
          let s := engineStore j r.tile (cSrc c + 65536 * chunk) (List.replicate (4 * vals.length) 0) s
          if ((runOf j id s).map fun r => r.units.all CUnit.landed) == some true then
            let s := store ((j.table.map OptTable.base).getD 0 + 20) (leBytes 4 j.step.toNat) s
            countsArrive (fresh j s) s
          else s
      | _, _ => s

/-- The engine reports a request done (R280). -/
def collDone (j : Job) (r : CRun) (s : State) : State :=
  let s := onColl j (fun q => { q with runs := q.runs.filter fun x => x.id != r.id }) s
  onTile j r.tile (fun y => { y with domino := y.domino.map fun e => if e.id == r.id then { e with left := 0 } else e }) s

/-! PERMUTE (R518, R519). -/

/-- A move (Table 13.10). -/
structure Move where
  src : Nat
  dst : Nat
  from' : Nat
  to' : Nat
  len : Nat
deriving DecidableEq, Repr

/-- The move list. -/
def movesOf (c : List W64) (m : Mem) : List Move :=
  (List.range (cBytes c / 32)).map fun i =>
    let w := fun k => BitVec.ofNat 64 (rdNat (cSrc c + 32 * i + 8 * k) 8 m)
    { src := fld (w 0) 63 52, dst := fld (w 0) 51 40, from' := fld (w 1) 47 0, to' := fld (w 2) 47 0, len := (w 3).toNat }

/-- The largest number of moves that any rank sends: O. -/
def movesMost (ms : List Move) : Nat := (ms.map fun m => (ms.filter fun x => x.src == m.src).length).foldl max 0

/-- Two ranges on one rank meet without coinciding. -/
def badMeet (len : Nat) (a b : Nat) : Bool := a != b && overlaps (a, len) (b, len)

/-- The checks of R518. A move with a rank that the group has not is refused too. -/
def movesBad (p temp : Nat) (ms : List Move) : Bool :=
  match ms with
  | [] => false
  | m :: _ =>
    let len := m.len
    let ranges := ms.flatMap fun x => [(x.src, x.from'), (x.dst, x.to')]
    ms.any (fun x => x.len != len || p ≤ x.src || p ≤ x.dst) || len % 4096 != 0 ||
      ms.zipIdx.any (fun x => ms.zipIdx.any fun y => x.2 < y.2 && x.1.dst == y.1.dst && overlaps (x.1.to', len) (y.1.to', len)) ||
      ranges.any (fun x => ranges.any fun y => x.1 == y.1 && badMeet len x.2 y.2) ||
      temp < 4096 * movesMost ms

/-- The piece size (R519). -/
def pieceSize (temp : Nat) (ms : List Move) : Nat := temp / (4096 * max 1 (movesMost ms)) * 4096

/-- Rounds of a PERMUTE. -/
def moveRounds (temp : Nat) (ms : List Move) : Nat := match ms with
  | [] => 0
  | m :: _ => (m.len + pieceSize temp ms - 1) / max 1 (pieceSize temp ms)

/-- A move that moves something (R519). -/
def Move.moves (m : Move) : Bool := !(m.src == m.dst && m.from' == m.to')

/-- Bytes of the piece of round k. -/
def pieceLen (temp k : Nat) (ms : List Move) (m : Move) : Nat := min (pieceSize temp ms) (m.len - k * pieceSize temp ms)

/-- CHUNK of message i of move x in round k. DESIGN CHOICE: R484 numbers chunks within one run of bytes, and a PERMUTE has several. -/
def moveChunk (temp : Nat) (ms : List Move) (x k i : Nat) : Nat :=
  let q := (pieceSize temp ms + 65535) / 65536
  (x * moveRounds temp ms + k) * q + i

/-- Messages that this rank waits for in all. -/
def movesIn (temp me : Nat) (ms : List Move) : Nat :=
  ((List.range (moveRounds temp ms)).map fun k => (ms.map fun m =>
    if m.dst == me && m.src != me then (pieceLen temp k ms m + 65535) / 65536 else 0).sum).sum

/-- Round k: every piece this rank sends is staged, then sent or copied, and pieces of the round that have come are written (R519). A
poisoned source line stops the run (R326). -/
def permuteRound (j : Job) (id k : Nat) (s : State) : State :=
  match runOf j id s with
  | none => s
  | some r =>
    let c := j.cdesc r.cdesc
    let g := cGroup c
    let me := j.myRank g
    let ms := movesOf c s.mem
    let t := j.tempBytes
    let z := pieceSize t ms
    if moveRounds t ms ≤ k then s
    else
      let mine := (ms.zipIdx.filter fun p => p.1.src == me && p.1.moves).zipIdx
      match mine.findSome? fun p => poisoned (p.1.1.from' + k * z) (pieceLen t k ms p.1.1) s with
      | some x => stopAt j r.tile ⟨0x000D, x⟩ s
      | none =>
      let s := countSpill j r.tile false (mine.map fun p => (p.1.1.from' + k * z, pieceLen t k ms p.1.1)) s
      let s := mine.foldl (fun s p => engineStore j r.tile (j.tempBase + z * p.2) (rdBytes (p.1.1.from' + k * z) (pieceLen t k ms p.1.1) s.mem) s) s
      let s := mine.foldl (fun s p =>
        let m := p.1.1
        let data := rdBytes (j.tempBase + z * p.2) (pieceLen t k ms m) s.mem
        if m.dst == me then engineStore j r.tile (m.to' + k * z) data s
        else (List.range ((data.length + 65535) / 65536)).foldl (fun s i =>
          sendColl (fresh j s) g m.dst 3 0 r.cdesc 0 (moveChunk t ms p.1.2 k i) ((data.drop (65536 * i)).take 65536) s) s) s
      let now' := r.pieces.filter fun x => x.round == k
      let s := now'.foldl (fun s x => engineStore j r.tile x.addr x.data s) s
      onRun j id (fun r => { r with round := k, pieces := r.pieces.filter (fun x => x.round != k), landed := r.landed + now'.length }) s

/-- A piece arrives (R519): written once the round's staging is done, else held. -/
def permuteData (j : Job) (r : CRun) (chunk : Nat) (data : List Byte) (s : State) : State :=
  let c := j.cdesc r.cdesc
  let ms := movesOf c s.mem
  let t := j.tempBytes
  let q := (pieceSize t ms + 65535) / 65536
  let i := chunk % max 1 q
  let k := chunk / max 1 q % max 1 (moveRounds t ms)
  match ms[chunk / max 1 q / max 1 (moveRounds t ms)]? with
  | none => s
  | some m =>
    let a := m.to' + k * pieceSize t ms + 65536 * i
    if k ≤ r.round then onRun j r.id (fun r => { r with landed := r.landed + 1 }) (engineStore j r.tile a (data.take (pieceLen t k ms m - 65536 * i)) s)
    else onRun j r.id (fun r => { r with pieces := r.pieces ++ [⟨k, a, data.take (pieceLen t k ms m - 65536 * i)⟩] }) s

/-! BROADCAST and ALLGATHER (R498). -/

/-- To whom a rank passes the data of a BROADCAST. -/
def broadcastTo (c : List W64) (p me : Nat) : List Nat :=
  if passTree c then (treeKids p (rankSub p me (cRoot c))).map fun v => (v + cRoot c) % p
  else if p == 1 || (me + 1) % p == cRoot c then [] else [(me + 1) % p]

/-- Chunk `i` of a range of bytes. -/
def dataChunk (a n i : Nat) (m : Mem) : List Byte := rdBytes (a + 65536 * i) (min 65536 (n - 65536 * i)) m

/-- The engine starts a data collective with what it has itself. -/
def startData (j : Job) (r : CRun) (s : State) : State :=
  let c := j.cdesc r.cdesc
  let g := cGroup c
  let p := j.ranks g
  let me := j.myRank g
  let n := cBytes c
  let k := j.chunks c
  let mine := if cOp c == 2 then me == cRoot c else true
  if !mine then s
  else
    let at' := if cOp c == 2 then cDst c else cDst c + me * n
    (List.range k).foldl (fun s i =>
      let d := dataChunk (cSrc c) n i s.mem
      let s := engineStore j r.tile (at' + 65536 * i) d (countSpill j r.tile false [(cSrc c + 65536 * i, d.length)] s)
      let s := onRun j r.id (fun r => { r with arrived := (me, i) :: r.arrived }) s
      let dests := if cOp c == 2 then (broadcastTo c p me).map fun q => (q, 0) else if p == 1 then [] else [((me + 1) % p, p - 1)]
      dests.foldl (fun s q => sendColl (fresh j s) g q.1 3 0 r.cdesc q.2 i d s) s) s

/-- Data of a BROADCAST or ALLGATHER lands and is passed on (R498). -/
def collData (j : Job) (r : CRun) (ring chunk : Nat) (data : List Byte) (s : State) : State :=
  let c := j.cdesc r.cdesc
  let g := cGroup c
  let p := j.ranks g
  let me := j.myRank g
  let n := cBytes c
  let src := if cOp c == 2 then cRoot c else rankSub p (rankSub p me 1) (ring - (p - 1))
  if r.arrived.contains (src, chunk) || j.chunks c ≤ chunk then s
  else
    let d := data.take (min 65536 (n - 65536 * chunk))
    let s := engineStore j r.tile ((if cOp c == 2 then cDst c else cDst c + src * n) + 65536 * chunk) d s
    let s := onRun j r.id (fun r => { r with arrived := (src, chunk) :: r.arrived }) s
    let dests := if cOp c == 2 then (broadcastTo c p me).map fun q => (q, 0)
      else if ring + 1 ≤ 2 * p - 3 then [((me + 1) % p, ring + 1)] else []
    dests.foldl (fun s q => sendColl (fresh j s) g q.1 3 0 r.cdesc q.2 chunk d s) s

/-! A descriptor starts, goes on and ends. -/

/-- Apply every add-write to a segment that is queued already (R490). -/
def drainAdds (j : Job) (g : Nat) (s : State) : State :=
  match j.seg g with
  | none => s
  | some q =>
    let area := segArea j.part (segFields q.words) s
    let mine := fun (w : AddWrite) => w.part == j.part && inside w.addr 64 area
    if q.acc == 0 then
      let s' := { s with addq := s.addq.filter fun w => !mine w }
      feedAdds ((s.addq.filter mine).foldl landAdd s')
    else s

/-- A segment enters ACC HELD (R373, R490). A clear in progress ends first, then the add-writes that are queued are applied. -/
def holdSegment (j : Job) (g : Nat) (s : State) : State :=
  match j.seg g with
  | none => s
  | some q =>
    if q.acc == 1 then s
    else
      let s := if q.acc == 2 then onSeg j g (fun q => { q with acc := 0 }) (clearAcc (segFields q.words) s) else s
      onSeg j g (fun q => { q with
        acc := 1, step := j.step, reruns := 0, provisional := false, noflip := false, outcome := 0 }) (drainAdds (fresh j s) g s)

/-- What a descriptor reads at addresses of its own as it starts: its source or its move list. -/
def cReads (j : Job) (c : List W64) : List (Nat × Nat) :=
  match cOp c with
  | 2 => if j.myRank (cGroup c) == cRoot c then [(cSrc c, cBytes c)] else []
  | 3 => [(cSrc c, cBytes c)]
  | 4 => [(cSrc c, cBytes c)]
  | 6 => [(cSrc c, cBytes c)]
  | _ => []

/-- What it reads or writes later: its destination, the temporary buffer and this rank's ends of the moves. -/
def cRanges (j : Job) (c : List W64) (m : Mem) : List (Nat × Nat) :=
  let me := j.myRank (cGroup c)
  match cOp c with
  | 2 => [(cDst c, cBytes c)]
  | 3 => [(cDst c, cBytes c * j.ranks (cGroup c))]
  | 4 => (j.tempBase, j.tempBytes) :: (movesOf c m).flatMap fun x =>
      (if x.src == me then [(x.from', x.len)] else []) ++ if x.dst == me then [(x.to', x.len)] else []
  | _ => []

/-- The units of a reduction as it starts. -/
def startUnits (j : Job) (c : List W64) (m : Mem) : List CUnit :=
  let k := List.range (j.chunks c)
  match cOp c with
  | 0 => (k.map fun i => { pass := 0, chunk := i, own := some (ownExponents j c i m) }) ++ k.map fun i => { pass := 1, chunk := i }
  | 1 => k.map fun i => { pass := 1, chunk := i, own := some (ownAcc j c i m) }
  | 5 => [{ pass := 1, chunk := 0, own := some [ownNorm j c m] }]
  | 6 => k.map fun i => { pass := 1, chunk := i, own := some (ownCounts c i m) }
  | _ => []

/-- What stops a descriptor as it starts: a range that it may not reach (R141), or a poisoned line among those that it reads (R326). -/
def startStop (j : Job) (r : CRun) (s : State) : Option Stop :=
  let c := j.cdesc r.cdesc
  let acc := if cOp c < 2 then poisonedOf (accRanges j (j.blocks c)) s else none
  ((acc.map fun a => ⟨0x000D, a⟩).orElse fun _ => checkReads j r.tile (cReads j c) s).orElse fun _ =>
    (cRanges j c s.mem).findSome? fun q => (reach j.part r.tile q.1 q.2 s).map fun st => ⟨st, q.1⟩

/-- A REDUCE request reaches its engine (R490): every segment of its range enters ACC HELD. -/
def holdRange (j : Job) (r : CRun) (s : State) : State :=
  let c := j.cdesc r.cdesc
  if cOp c < 2 then (cSegs c).foldl (fun s q => holdSegment (fresh j s) q s) s else s

/-- A descriptor starts on its engine (R478, R488, R518). -/
def startRun (j : Job) (r : CRun) (s : State) : State :=
  let c := j.cdesc r.cdesc
  let g := cGroup c
  let s := onRun j r.id (fun r => { r with started := true, since := now s }) s
  match startStop j r s with
  | some st => stopAt (fresh j s) r.tile st s
  | none =>
    match cOp c with
    | 2 => startData (fresh j s) r s
    | 3 => startData (fresh j s) r s
    | 4 =>
      if movesBad (j.ranks g) j.tempBytes (movesOf c s.mem) then stopRun (fresh j s) 0x0002 s
      else permuteRound (fresh j s) r.id 0 s
    | _ =>
      let s := if cOp c == 0 && cAlgo c == 2 then
          match scratchOf j c (j.myRank g) with
          | some rg =>
            let n := ((shardChunks (j.chunks c) (j.ranks g) (j.myRank g)).map fun i => 128 * (chunkBlocks (j.blocks c) i).length).sum
            store (rg.base + cScratch c) (List.replicate n 0) s
          | none => s
        else s
      let us := startUnits (fresh j s) c s.mem
      let s := if cOp c == 6 then countSpill j r.tile false [(cSrc c, cBytes c)] s else s
      onRun j r.id (fun r => { r with units := us }) s

/-- Everything a started reduction can do now. -/
def moveRun (j : Job) (id : Nat) (s : State) : State :=
  match runOf j id s with
  | none => s
  | some r =>
    let c := j.cdesc r.cdesc
    let k := List.range (j.chunks c)
    let s := k.foldl (fun s i => moveUnit j id 0 i s) s
    let s := if cOp c == 0 then k.foldl (fun s i => openValues j id i s) s else s
    let s := readScratch j id (sendDone j id s)
    let s := k.foldl (fun s i => moveUnit j id 1 i s) s
    let s := k.foldl (fun s i => landChunk (fresh j s) id i s) s
    match runOf j id s with
    | some r => if cOp c < 2 then landSegments (fresh j s) r s else s
    | none => s

/-- A request has done its work (R479). -/
def runFinished (j : Job) (r : CRun) (s : State) : Bool :=
  let c := j.cdesc r.cdesc
  let p := j.ranks (cGroup c)
  let k := j.chunks c
  r.started && match cOp c with
    | 2 => r.arrived.length == k
    | 3 => r.arrived.length == k * p
    | 4 =>
      let ms := movesOf c s.mem
      moveRounds j.tempBytes ms ≤ r.round && r.landed == movesIn j.tempBytes (j.myRank (cGroup c)) ms
    | 7 => false
    | _ => r.units.all fun u => u.result.isSome && (u.pass == 0 || u.landed)

/-- NORM starts once every REDUCE of its segments has landed (R496). -/
def reducesLanded (j : Job) (r : CRun) : Bool :=
  let c := j.cdesc r.cdesc
  cOp c != 5 || (cSegs c).all fun g => j.coll.landed.contains g

/-- Step number of a message against the job's own: 0 of this step, 1 of a later one, 2 of a closed one. -/
def stepAge (j : Job) (h0 : W64) : Nat :=
  let d := (fld h0 31 0 + 2 ^ 32 - j.step.toNat % 2 ^ 32) % 2 ^ 32
  if d == 0 then 0 else if d < 2 ^ 31 then 1 else 2

/-- A message of a descriptor that has started here. -/
def runMessage (j : Job) (r : CRun) (m : CMsg) (s : State) : State :=
  let ctype := fld m.h0 63 60
  let rank := fld m.h1 63 52
  let ring := fld m.h1 51 39
  let chunk := fld m.h1 38 19
  let c := j.cdesc r.cdesc
  let g := cGroup c
  let p := j.ranks g
  let me := j.myRank g
  let s := onRun j r.id (fun r => { r with since := now s }) s
  if ctype == 9 then onRun j r.id (fun r => { r with dones := if r.dones.contains rank then r.dones else rank :: r.dones }) s
  else if cOp c == 2 || cOp c == 3 then collData j r ring chunk m.data s
  else if cOp c == 4 then permuteData j r chunk m.data s
  else
    let pass := if ctype == 0 then 0 else 1
    let vals := bytesWords (valueBytes (cOp c) pass) m.data
    match r.unit pass chunk with
    | none => s
    | some u =>
      let n := match u.own with
        | some v => v.length
        | none => if pass == 0 then vals.length else 32 * (chunkBlocks (j.blocks c) chunk).length
      let vals := vals.take n
      let bytes := wordBytes (valueBytes (cOp c) pass) vals
      if passTree c then
        if rank != treeParent me || me == 0 then
          onRun j r.id (CRun.onUnit pass chunk fun u => { u with parts := u.parts ++ [(rank, vals)] }) s
        else
          let s := onRun j r.id (CRun.onUnit pass chunk fun u => { u with result := some vals }) s
          (treeKids p me).foldl (fun s q => sendColl (fresh j s) g q (reduceType (cOp c) 1 pass true) 0 r.cdesc 0 chunk bytes s) s
      else if ring < p - 1 then onRun j r.id (CRun.onUnit pass chunk fun u => { u with prev := some vals }) s
      else
        let s := onRun j r.id (CRun.onUnit pass chunk fun u => { u with result := some vals, sent := true }) s
        if ring + 1 ≤ 2 * p - 3 then sendColl (fresh j s) g ((me + 1) % p) ctype 0 r.cdesc (ring + 1) chunk bytes s else s

/-- Hand on the messages that came before a descriptor started. -/
def replayEarly (j : Job) (r : CRun) (s : State) : State :=
  let j := fresh j s
  let mine := fun (m : CMsg) => fld m.h0 55 40 == r.cdesc && stepAge j m.h0 == 0
  let ms := j.coll.early.filter mine
  let s := onColl j (fun q => { q with early := q.early.filter fun m => !mine m }) s
  ms.foldl (fun s m => match runOf j r.id s with
    | some r => runMessage (fresh j s) r m s
    | none => s) s

/-- One request goes as far as it can; requests to an engine under test wait (R530). -/
def settleRun (id : Nat) (j : Job) (s : State) : State :=
  let j := fresh j s
  match j.coll.runs.find? fun r => r.id == id && !underTest (.domino (r.tile / 512)) s with
  | none => s
  | some r =>
    let die := r.tile / 512
    let busy := (s.jobs.map fun k => (k.coll.runs.filter fun q => q.tile / 512 == die && q.started).length).sum
    let first := j.coll.runs.all fun q => q.id ≥ id || q.started || q.tile / 512 != die
    let s := if !r.started && busy < 8 && first && reducesLanded j r then
        let s := startRun j r s
        replayEarly (fresh j s) r s
      else s
    let s := moveRun (fresh j s) id s
    match runOf j id s with
    | some r => if runFinished (fresh j s) r s then collDone (fresh j s) r s else s
    | none => s

/-- Every request of a job goes as far as it can; one that ends lets others start. -/
def settleRuns : Nat → Job → State → State
  | 0, _, s => s
  | n + 1, j, s => settleRuns n j ((fresh j s).coll.runs.foldl (fun s r => settleRun r.id j s) s)

/-- Settle a job's collectives. -/
def settleColl (j : Job) (s : State) : State := settleRuns ((fresh j s).coll.runs.length + 1) j s

end Sys2Proof.Machine
end

