-- ==== Sys2Proof/Machine/Agents.lean ====
section
/-! DEFINITION. Machine/Agents.lean: load sums and rebalancing advice that the fabric agents exchange (11 R416, R417). DESIGN CHOICE:
the payload of an ADVICE message, which belongs to the agents' firmware. -/
namespace Sys2Proof.Machine

/-- The load of each member under a placement of experts: `home` by expert. -/
def loadsOf (g : List Nat) (sums : List Nat) (home : List Nat) : List Nat :=
  g.map fun d => ((sums.zip home).map fun p => if p.2 == d then p.1 else 0).sum

/-- Imbalance in units of 1/256, rounded down. -/
def imbalance (loads : List Nat) : Nat := loads.foldl max 0 * loads.length * 256 / max 1 loads.sum

/-- The member of least proposed load with room, ties to the lower member. -/
def leastMember (g load left : List Nat) : Option Nat :=
  (g.zipIdx.filter fun p => left.getD p.2 0 != 0).foldl (fun b p => match b with
    | none => some p.2
    | some i => if load.getD p.2 0 < load.getD i 0 then some p.2 else some i) none

/-- Put expert `e` before the first one of a smaller sum. -/
def insertLoad (sums : List Nat) (e : Nat) : List Nat → List Nat
  | [] => [e]
  | x :: r => if sums.getD x 0 < sums.getD e 0 then e :: x :: r else x :: insertLoad sums e r

/-- The proposed placement (R416): experts in descending sum, ties in ascending number, each to the member of least load with fewer
experts than it now holds. -/
def proposePlacement (g sums home : List Nat) : List Nat :=
  let order := (List.range sums.length).foldl (fun l e => insertLoad sums e l) []
  let held := g.map fun d => (home.filter (· == d)).length
  let r := order.foldl (fun (q : List (Nat × Nat) × List Nat × List Nat) e =>
    match leastMember g q.2.1 q.2.2 with
    | some i => ((e, g.getD i 0) :: q.1, upd q.2.1 i (· + sums.getD e 0), upd q.2.2 i (· - 1))
    | none => q) ([], g.map fun _ => 0, held)
  (List.range sums.length).map fun e => match r.1.find? fun p => p.1 == e with
    | some p => p.2
    | none => home.getD e 0

/-- The advice record (Table 11.13). -/
def adviceRecord (layer step now' proposed : Nat) (sums home home' : List Nat) : List W64 :=
  let moves := (List.range sums.length).filter fun e => home.getD e 0 != home'.getD e 0
  [pack [(layer, 54, 10), (moves.length, 44, 10), (step, 0, 32)], pack [(now', 32, 32), (proposed, 0, 32)]] ++
    moves.map fun e => pack [(e, 54, 10), (home.getD e 0, 48, 6), (home'.getD e 0, 42, 6), (sums.getD e 0, 0, 32)]

/-- Change the advice record of a map. -/
def onAdvice (j : Job) (mi : Nat) (f : Advice → Advice) (s : State) : State :=
  onJob j.part j.num (fun j =>
    let l := if j.advice.any fun a => a.map == mi then j.advice else { map := mi } :: j.advice
    { j with advice := l.map fun a => if a.map == mi then f a else a }) s

/-- The advice record of a map. -/
def Job.adviceOf (j : Job) (mi : Nat) : Advice := (j.advice.find? fun a => a.map == mi).getD { map := mi }

/-- With the sums of every member there, the agent of the lowest member computes the advice (R416). -/
def computeAdvice (j : Job) (mi : Nat) (s : State) : State :=
  let j := fresh j s
  let m := j.rmap mi
  let g := groupOf m
  let a := j.adviceOf mi
  if g.head? != some (selfOf m s) || !g.all (fun d => a.received.any fun p => p.1 == d) then s
  else
    let n := mExperts m
    let home := (List.range n).map fun e => (j.home mi e).1
    let sums := (List.range n).map fun e =>
      let d := (j.home mi e).1
      match (j.expertsOn mi d).findIdx? fun p => p.1 == e, a.received.find? fun p => p.1 == d with
      | some i, some p => p.2.getD i 0
      | _, _ => 0
    let loads := loadsOf g sums home
    let s := onAdvice j mi (fun a => { a with received := [] }) s
    if loads.sum != 0 && mThreshold m * loads.sum ≤ loads.foldl max 0 * loads.length * 256 then
      let home' := proposePlacement g sums home
      let now' := imbalance loads
      let s := reportFm 4 (adviceRecord (mLayer m) ((j.step.toNat + 2 ^ 64 - 1) % 2 ^ 32) now'
        (imbalance (loadsOf g sums home')) sums home home') s
      raiseJ j 0x7004 (unitPart j.part) (pack [(mLayer m, 54, 10), (now', 0, 32)]) s
    else s

/-- After ADVICE_STEPS committed steps a member sends its sums to the others, and they restart (R416). -/
def exchangeAdvice (j : Job) (mi : Nat) (s : State) : State :=
  let j := fresh j s
  let m := j.rmap mi
  let a := j.adviceOf mi
  let me := selfOf m s
  let sums := (j.expertsOn mi me).map fun p => lookup0 (j.queueOf mi p.2) a.sums
  let s := onAdvice j mi (fun a => { a with sums := [], steps := 0, received := a.received ++ [(me, sums)] }) s
  let s := ((groupOf m).filter (· != me)).foldl (fun s d =>
    sendAgent j.part d 0x05 (pack [(mLayer m, 54, 10), (me, 48, 6), (sums.length, 0, 32)] :: sums.map (BitVec.ofNat 64)) s) s
  let s := if (groupOf m).head? == some me then s else onAdvice j mi (fun a => { a with received := [] }) s
  computeAdvice j mi s

/-- A step has been committed (R416): its sums count. -/
def adviceCommit (j : Job) (s : State) : State :=
  (List.range j.mapCount).foldl (fun s mi =>
    let m := j.rmap mi
    if mThreshold m == 0 then s
    else
      let s := onAdvice j mi (fun a => { a with
        sums := a.stepSums.foldl (fun l p => assign0 p.1 (lookup0 p.1 l + p.2) l) a.sums, stepSums := [], steps := a.steps + 1 }) s
      if mAdviceSteps m ≤ ((fresh j s).adviceOf mi).steps then exchangeAdvice j mi s else s) s

/-- A step that is not committed counts no load. -/
def adviceSkip (j : Job) (s : State) : State :=
  onJob j.part j.num (fun j => { j with advice := j.advice.map fun a => { a with stepSums := [] } }) s

/-- Load sums of another member arrive (R416). -/
def adviceArrives (k : Nat) (words : List W64) (s : State) : State :=
  match partOfLink k s with
  | none => s
  | some n =>
    let w := words.getD 0 0
    match s.jobs.find? fun j => j.part == n && j.running && (j.mapOf (fld w 63 54)).isSome with
    | none => s
    | some j =>
      let mi := (j.mapOf (fld w 63 54)).getD 0
      let src := fld w 53 48
      let sums := ((words.drop 1).take (fld w 31 0)).map BitVec.toNat
      if (groupOf (j.rmap mi)).contains src && (groupOf (j.rmap mi)).head? == some (selfOf (j.rmap mi) s) then
        computeAdvice j mi (onAdvice j mi (fun a => { a with received := a.received ++ [(src, sums)] }) s)
      else s

/-- ADVICE. -/
def execAdvice (link : Nat) (words : List W64) (s : State) : Host.Outcome State Fault Refusal := .next (adviceArrives link words s)

end Sys2Proof.Machine
end

