-- ==== Sys2Proof/Machine/FlashRecords.lean ====
section
/-! DEFINITION. Machine/FlashRecords.lean: activation headers and the update journal (16_management_attestation_update.md
R585 to R587), firmware images (R582) and floors (R583). -/
namespace Sys2Proof.Machine

/-- The words of a digest in stored order (R9). -/
def digestWords (d : Digest) : List W64 := (List.range 6).map fun i => BitVec.ofNat 64 (d.toNat >>> (64 * i))

/-- The digest that six words hold. -/
def digestOf (ws : List W64) : Digest := BitVec.ofNat 384 (leNat (ofWords (ws.take 6)))

/-- An activation header as fields (Table 16.9). -/
structure Header where
  seq : Nat
  fwSlot : Bool
  bpSlot : Bool
  fwPrev : Bool
  bpPrev : Bool
  trial : Bool
  fwTrial : Bool
  bpTrial : Bool
deriving DecidableEq, Repr

/-- The words of a header copy (Table 16.9), CHECK included. -/
def Header.words (h : Header) : List W64 :=
  let body := [pack [(0x48414D57, 32, 32), (h.seq, 0, 32)],
    pack [(b2n h.fwSlot, 63, 1), (b2n h.bpSlot, 62, 1), (b2n h.fwPrev, 61, 1), (b2n h.bpPrev, 60, 1),
      (b2n h.trial, 59, 1), (b2n h.fwTrial, 58, 1), (b2n h.bpTrial, 57, 1)]] ++ List.replicate 13 0
  body ++ [pack [(checkOf body, 0, 32)]]

/-- A valid header copy (R586): MAGIC, CHECK and every RSVD bit right. Bits 56:0 of w1 are reserved. -/
def readHeader (ws : List W64) : Option Header :=
  let w := fun i => ws.getD i (BitVec.allOnes 64)
  let b := fun i => bit (w 1).toNat i
  let rsvd := fld (w 1) 56 0 == 0 && (List.range 13).all (fun i => w (2 + i) == 0) && fld (w 15) 63 32 == 0
  if fld (w 0) 63 32 == 0x48414D57 && fld (w 15) 31 0 == checkOf (ws.take 15) && rsvd then
    some { seq := fld (w 0) 31 0, fwSlot := b 63, bpSlot := b 62, fwPrev := b 61, bpPrev := b 60, trial := b 59,
           fwTrial := b 58, bpTrial := b 57 }
  else none

/-- `a` is later than `b` (R586): (a - b) mod 2^32 is between 1 and 2^31 - 1. -/
def seqLater (a b : Nat) : Bool := inRange ((a + 2 ^ 32 - b) % 2 ^ 32) 1 (2 ^ 31 - 1)

/-- The header used when no copy is valid (R586). -/
def Header.none : Header :=
  { seq := 0, fwSlot := false, bpSlot := false, fwPrev := false, bpPrev := false, trial := false, fwTrial := false,
    bpTrial := false }

/-- The selected header and which copy it is (R586): the later valid copy, copy 0 when neither is later, none valid: slots
A with no trial, copy 1 counting as the one selected so that copy 0 is written first. -/
def selectHeader (f : Flash) : Header × Bool :=
  match readHeader f.hdr0, readHeader f.hdr1 with
  | some a, some b => if seqLater b.seq a.seq then (b, true) else (a, false)
  | some a, none => (a, false)
  | none, some b => (b, true)
  | none, none => (Header.none, true)

/-- The word of an area at a byte offset in it; past what was written it reads erased. -/
def areaWord (ws : List W64) (o : Nat) : W64 := ws.getD (o / 8) (BitVec.allOnes 64)

/-- The configuration flash by offset (R27, Table 2.1), in 64-bit words: both header copies, the update journal of 256-byte entries, the
reserved region, which is kept erased, the firmware and blueprint slots, the event log archive of 32-byte entries, and the factory
area, which nothing writes. DESIGN CHOICE (log 207): the archive's entries stand oldest first from the area's start, with PHASE 0. -/
def flashWord (f : Flash) (o : Nat) : W64 :=
  if o < 0x10000 then areaWord f.hdr0 o
  else if o < 0x20000 then areaWord f.hdr1 (o - 0x10000)
  else if o < 0x40000 then
    areaWord (((f.journal.find? fun e => e.1 == (o - 0x20000) / 256).map Prod.snd).getD []) ((o - 0x20000) % 256)
  else if o < 0x1000000 then BitVec.allOnes 64
  else if o < 0x3000000 then areaWord f.fwA (o - 0x1000000)
  else if o < 0x5000000 then areaWord f.fwB (o - 0x3000000)
  else if o < 0x5100000 then areaWord f.bpA (o - 0x5000000)
  else if o < 0x5200000 then areaWord f.bpB (o - 0x5100000)
  else if o < 0x8000000 then areaWord (match f.archive[(o - 0x5200000) / 32]? with
    | some e => eventWords e false
    | none => []) ((o - 0x5200000) % 32)
  else Config.factoryWord o

/-- Write a header (R586): the copy that was not selected is rewritten with SEQ one above the selected SEQ. -/
def writeHeader (h : Header) (s : State) : State :=
  let (cur, which) := selectHeader s.flash
  let ws := ({ h with seq := (cur.seq + 1) % 2 ^ 32 }).words
  { s with flash := if which then { s.flash with hdr0 := ws } else { s.flash with hdr1 := ws } }

/-- The words of a journal entry (Table 16.10), CHECK included. -/
def JEntry.words (j : JEntry) : List W64 :=
  let body := [pack [(0x4A554D57, 32, 32), (j.seq, 0, 32)],
    pack [(j.stage, 60, 4), (b2n j.bp, 59, 1), (b2n j.fw, 58, 1), (b2n j.fwTarget, 57, 1), (b2n j.bpTarget, 56, 1),
      (j.trialBoots, 52, 4), (j.updater, 40, 8), (j.bootCount, 0, 32)],
    j.trialStart, pack [(j.fwVersion, 32, 32), (j.bpVersion, 0, 32)]] ++
    digestWords j.fwDigest ++ digestWords j.bpDigest ++ List.replicate 15 0
  body ++ [pack [(checkOf body, 0, 32)]]

/-- A flash journal entry whose check passes (R105, R587). -/
def readJournal (ws : List W64) : Option JEntry :=
  let w := fun i => ws.getD i (BitVec.allOnes 64)
  let b := fun i => bit (w 1).toNat i
  if fld (w 0) 63 32 == 0x4A554D57 && fld (w 31) 31 0 == checkOf (ws.take 31) then
    some { seq := fld (w 0) 31 0, stage := fld (w 1) 63 60, fw := b 58, bp := b 59, fwTarget := b 57, bpTarget := b 56,
           trialBoots := fld (w 1) 55 52, updater := fld (w 1) 47 40, bootCount := fld (w 1) 31 0, trialStart := w 2,
           fwVersion := fld (w 3) 63 32, bpVersion := fld (w 3) 31 0, fwDigest := digestOf ((ws.drop 4).take 6),
           bpDigest := digestOf ((ws.drop 10).take 6) }
  else none

/-- The valid flash entries with their indices. -/
def validJournal (f : Flash) : List (Nat × JEntry) :=
  f.journal.filterMap fun e => (readJournal e.2).map fun j => (e.1, j)

/-- The valid entry with the highest sequence number (R105). -/
def latestJournal (f : Flash) : Option (Nat × JEntry) :=
  (validJournal f).foldl (fun best e => match best with
    | some b => if b.2.seq < e.2.seq then some e else some b
    | none => some e) none

/-- The entry that the journal pointer names, if its check passes. -/
def pointedJournal (s : State) : Option JEntry :=
  match s.aon.jPtr with
  | some i => ((validJournal s.flash).find? fun e => e.1 == i).map Prod.snd
  | none => none

/-- Write a journal entry (R100, R587): the flash copy first, then the pointer moves. The 512 entries lie in two halves of
256; before the first entry of a half is written that half is erased. -/
def writeJournal (j : JEntry) (s : State) : State :=
  let i := match s.aon.jPtr with
    | some i => (i + 1) % 512
    | none => 0
  let j := { j with seq := ((s.aon.jCur.map fun c => c.seq + 1).getD 0) % 2 ^ 32, bootCount := s.aon.bootCount }
  let kept := if i % 256 == 0 then s.flash.journal.filter fun e => e.1 / 256 != i / 256
    else s.flash.journal.filter fun e => e.1 != i
  { s with flash := { s.flash with journal := kept ++ [(i, j.words)] },
           aon := { s.aon with jPtr := some i, jCur := some j } }

/-- Move the update stage (R592 to R594) from the current journal entry. -/
def setStage (stage : Nat) (s : State) : State := writeJournal { s.aon.jCur.getD {} with stage } s

/-- The stage of the current journal entry; 0 IDLE when there is none. -/
def stageOf (s : State) : Nat := (s.aon.jCur.map JEntry.stage).getD 0

/-- A firmware slot's image length in words (Table 16.7). -/
def fwWords (img : List W64) : Nat := fld (img.getD 1 0) 63 32 / 8

/-- The words of a firmware image, read from its slot up to IMAGE_LENGTH. -/
def fwImageOf (slot : List W64) : List W64 :=
  slot.take (fwWords slot) ++ List.replicate (fwWords slot - slot.length) (BitVec.allOnes 64)

/-- The firmware image with its SIGNATURE, w16 to w27, replaced by zeros (R582, R35). -/
def zeroFwSignature (img : List W64) : List W64 := img.take 16 ++ List.replicate 12 0 ++ img.drop 28

/-- A firmware image passes (R582): frame, vendor key slot, signature, firmware floor, compatibility. -/
def firmwareOk (slot : List W64) (keys : List KeySlot) (floor : Nat) : Bool :=
  let w := fun i => slot.getD i (BitVec.allOnes 64)
  let len := fld (w 1) 63 32
  let framed := fld (w 0) 63 32 == 0x57464D57 && fld (w 0) 31 16 == 0x0001 && len % 64 == 0 && inRange len 4096 33554432
  let img := fwImageOf slot
  let k := keys.getD (fld (w 3) 33 33) ⟨false, 0, false⟩
  framed && k.programmed && !k.revoked && Config.sha384 ((img.drop 4).take 12) == k.hash
    && Config.ecdsaVerify ((img.drop 4).take 12) (Config.sha384 (zeroFwSignature img)) ((img.drop 16).take 12)
    && floor ≤ fld (w 1) 31 0 && fld (w 3) 63 52 == 0x084 && revOk (fld (w 3) 47 44) (fld (w 3) 43 40)

/-- A floor entry is used when any of its 40 bits reads 1 (R583). -/
def FloorEntry.used (e : FloorEntry) : Bool := e.value != 0 || e.check != 0

/-- A floor entry is valid when its check is non-zero and counts the ones of its value (R583). -/
def FloorEntry.valid (e : FloorEntry) : Bool := e.check != 0 && e.check == popcount e.value 32

/-- A floor: the value of the highest-numbered valid entry, or 0 (R583). -/
def floorOf (es : List FloorEntry) : Nat := es.foldl (fun f e => if e.valid then e.value else f) 0

/-- A raise programs the lowest entry that is not used, value then check (R583); none when no entry is left. -/
def raiseFloor (v : Nat) : List FloorEntry → Option (List FloorEntry)
  | [] => none
  | e :: r => if e.used then (raiseFloor v r).map (e :: ·) else some ({ value := v, check := popcount v 32 } :: r)

/-- FLOOR_RAISE within CONFIRM_UPDATE (R583, R593): when the version is above the floor; floor-raised, or floor-exhausted. -/
def raiseFloorTo (bp : Bool) (v : Nat) (s : State) : State :=
  let store := if bp then s.fuses.bpFloor else s.fuses.fwFloor
  let comp := if bp then 2 else 1
  if v ≤ floorOf store then s
  else match raiseFloor v store with
    | some st =>
      let s := { s with fuses := if bp then { s.fuses with bpFloor := st } else { s.fuses with fwFloor := st } }
      raiseM none 0xC008 0 (pack [(comp, 32, 8), (v, 0, 32)]) s
    | none => raiseM none 0xC009 0 (BitVec.ofNat 64 comp) s

/-- A flash slot's words. -/
def fwSlotWords (b : Bool) (f : Flash) : List W64 := if b then f.fwB else f.fwA
/-- A blueprint slot's words. -/
def bpSlotWords (b : Bool) (f : Flash) : List W64 := if b then f.bpB else f.bpA

end Sys2Proof.Machine
end

