-- ==== Sys2Proof/Machine/PowerUp.lean ====
section
/-! DEFINITION. Machine/PowerUp.lean: feeds, the wake sequencer, power-down, warm reset, the supply selector and the
backup cell (03_power_up_and_boot.md R75 to R107; 17_module_electrical_mechanical.md R601, R606, R607, R609). -/
namespace Sys2Proof.Machine

/-- The rail indices that a wake step brings up (Table 3.1). -/
def stepRails : Nat → List Nat
  | 2 => [0]
  | 3 => [1]
  | 5 => [2, 3, 4]
  | 6 => [5, 6]
  | 7 => [7, 8]
  | _ => []

/-- Rail bits with a list of rails switched on. -/
def railsOn (rails : Nat) (l : List Nat) : Nat := l.foldl (fun r i => r ||| 2 ^ i) rails

/-- Every feed within 40 to 60 V (R77 step 1, R601). -/
def feedsInRange (feeds : List Nat) : Bool := feeds.all fun v => inRange v 40000 60000

/-- The lowest feed voltage, which the input-voltage sensor reports (R601). -/
def lowestFeed (feeds : List Nat) : Nat := feeds.foldl min (feeds.headD 0)

/-- Start the wake sequence at step 1 of the first attempt (R77): FAULT_N deasserts (R79). -/
def startWake (s : State) : State :=
  { s with wake := { s.wake with phase := .waking 1 1, faultN := false, wakePending := false, inputLost := false },
           aon := { s.aon with wake := { attempts := 1 } } }

/-- Put a (step, cause) into the WAKE_STATUS byte of an attempt (R78, R81). -/
def WakeStatus.record (w : WakeStatus) (attempt step cause : Nat) (rail : Option Nat) : WakeStatus :=
  { w with bytes := w.bytes.set (attempt - 1) (step, cause), rail := rail.getD w.rail }

/-- A failed attempt (R78): recorded, the rails go off, then the 100 ms wait, or SAFE_HOLD after the fourth (R79). -/
def failAttempt (step attempt cause : Nat) (rail : Option Nat) (s : State) : State :=
  let ws := s.aon.wake.record attempt step cause rail
  let last := 4 ≤ attempt
  { s with
    aon := { s.aon with wake := if last then { ws with result := 2 } else ws },
    clk := Clk.reset,
    wake := { s.wake with rails := 0, bootOsc := false, pllLocked := false,
                          phase := if last then .safeHold else .retryWait attempt,
                          faultN := s.wake.faultN || last } }

/-- The cause that a step's timeout records (Table 3.2): input, rail, oscillator, reference or PLL, temperature. -/
def timeoutCause (step : Nat) (refQualified : Bool) : Nat :=
  match step with
  | 1 => 0x1
  | 4 => 0x4
  | 8 => if refQualified then 0x6 else 0x5
  | 9 => 0x7
  | _ => 0x2

/-- A module reset reaches the security core (R69, R77 step 9, R86, R624): it is released with every domain outside the
always-on domain reset, the stacks in self-refresh, the links idle, the issue gates shut and FAULT_N left to a thermal trip (R607). -/
def releaseSecurityCore (s : State) : State :=
  let s := volatileReset s
  { s with
    boot := { Boot.reset with secRunning := true },
    wake := { s.wake with gatesOpen := false, linksIdle := true, selfRefresh := true, faultN := s.wake.thermtripN },
    ports := s.ports.map fun p => { p with inReset := p.perst } }

/-- The power-down of Table 3.4 (R83, R84): the Clockwork backup is written (R106), PGOOD deasserts, everything outside
the always-on domain is lost; of the causes of FAULT_N only a thermal trip outlives it (R607). -/
def powerDown (s : State) : State :=
  let m := s.mgmt
  let s := volatileReset (writeBackup s)
  { s with
    mgmt := { Mgmt.reset with i3c := m.i3c, dynAddr := m.dynAddr, eids := m.eids },
    wake := { s.wake with phase := .standby, rails := 0, pgood := false, bootOsc := false, pllLocked := false,
                          wakePending := false, gatesOpen := false, linksIdle := true, selfRefresh := false,
                          faultN := s.wake.thermtripN } }

/-- The warm reset of R624: backup written, rails, PLL and PGOOD kept, WAKE_STATUS unchanged, security core released. -/
def warmReset (s : State) : State :=
  let c := s.clk
  let s := releaseSecurityCore (writeBackup s)
  { s with clk := { Clk.reset with source := c.source, qualA := c.qualA, qualB := c.qualB, goodA := c.goodA,
                                   goodB := c.goodB, losA := c.losA, losB := c.losB, noEdgesA := c.noEdgesA,
                                   noEdgesB := c.noEdgesB, first := c.first, dwell := c.dwell } }

/-- Every feed at or above 39.0 V, the input that the supply selector asks for (R101). -/
def feedsHigh (feeds : List Nat) : Bool := feeds.all fun v => 39000 ≤ v

/-- The selector sees the feeds change (R101): during a switch the change is kept for its end; on the cell the 10 ms run while every
feed is at or above 39.0 V, and a feed below breaks them. -/
def Selector.sees (q : Selector) (feeds : List Nat) : Selector :=
  if q.switching then { q with inputChanged := true }
  else if q.onCell then { q with qualifying := feedsHigh feeds }
  else q

/-- FEED_APPLIED (R603, R606, R79): the feed's voltage; the first feed samples the straps and returns the port to SMBus. SAFE_HOLD ends
when an input that was lost has returned. DESIGN CHOICE (log 198): lost is a feed below 37.0 V, returned is every feed at or above 39.0 V,
and a PWR_EN still asserted starts no wake. -/
def feedApplied (feed mv straps : Nat) (s : State) : State :=
  let first := s.wake.feeds.all fun v => v == 0
  let feeds := s.wake.feeds.set feed mv
  let s := { s with wake := { s.wake with feeds } }
  let s := if first then
      { s with aon := { s.aon with straps := straps % 8 }, mgmt := { s.mgmt with i3c := false, dynAddr := 0 } }
    else s
  let s := { s with aon := { s.aon with selector := s.aon.selector.sees feeds } }
  match s.wake.phase with
  | .safeHold =>
    if s.wake.inputLost && feedsHigh feeds then
      { s with wake := { s.wake with phase := .standby, inputLost := false } }
    else s
  | _ => s

/-- FEED_APPLIED. -/
def execFeedApplied (feed mv straps : Nat) (s : State) : Host.Outcome State Fault Refusal :=
  .next (feedApplied feed mv straps s)

/-- PWR_EN asserted (R77, R79, R81, R83, R609). A level already asserted is no assertion. While THERMTRIP_N is asserted
no wake starts; during a power-down the wake waits for its end. -/
def pwrEnAssert (downRunning : Bool) (s : State) : State :=
  if s.wake.pwrEn then s
  else
    let s := { s with wake := { s.wake with pwrEn := true }, aon := { s.aon with wake := {} } }
    if s.wake.thermtripN then s
    else match s.wake.phase with
      | .standby => if downRunning then { s with wake := { s.wake with wakePending := true } } else startWake s
      | .safeHold => if downRunning then { s with wake := { s.wake with wakePending := true } } else startWake s
      | _ => s

/-- PWR_EN_ASSERT. -/
def execPwrEnAssert (downRunning : Bool) (s : State) : Host.Outcome State Fault Refusal :=
  .next (pwrEnAssert downRunning s)

/-- PWR_EN deasserted (R83): a wake attempt ends with RESULT 0x3; after PGOOD the module powers down. -/
def pwrEnDeassert (s : State) : State :=
  if !s.wake.pwrEn then s
  else
    let s := { s with wake := { s.wake with pwrEn := false, wakePending := false } }
    let abort : State :=
      { s with wake := { s.wake with phase := .standby, rails := 0, bootOsc := false, pllLocked := false },
               clk := Clk.reset, aon := { s.aon with wake := { s.aon.wake with result := 3 } } }
    match s.wake.phase with
    | .waking _ _ => abort
    | .retryWait _ => abort
    | .running => powerDown s
    | _ => s

/-- PWR_EN_DEASSERT. -/
def execPwrEnDeassert (s : State) : Host.Outcome State Fault Refusal := .next (pwrEnDeassert s)

/-- The ready signal of the current step (R77, R116): the step's rails are on and the next step starts; step 8 needs a
qualified reference and locks to the one that qualified first, REFA where both did in one window; step 9 asserts PGOOD and releases the security core. -/
def wakeReady (s : State) : State :=
  match s.wake.phase with
  | .waking step attempt =>
    let next := { s with wake := { s.wake with phase := .waking (step + 1) attempt,
                                               rails := railsOn s.wake.rails (stepRails step) } }
    if step == 1 then if feedsInRange s.wake.feeds then next else s
    else if step == 4 then { next with wake := { next.wake with bootOsc := true }, clk := Clk.reset }
    else if step == 8 then
      match firstAfter s.clk.first s.clk.qualA s.clk.qualB with
      | some r => { next with wake := { next.wake with pllLocked := true },
                              clk := { s.clk with source := if r == .refB then .onRefB else .onRefA } }
      | none => s
    else if step == 9 then
      let c := s.clk
      let s := { s with wake := { s.wake with phase := .running, pgood := true },
                        aon := { s.aon with wake := { s.aon.wake with result := 1 } } }
      { releaseSecurityCore s with clk := c }
    else next
  | _ => s

/-- WAKE_READY_SIGNAL. -/
def execWakeReadySignal (s : State) : Host.Outcome State Fault Refusal := .next (wakeReady s)

/-- A step's timeout expires (R78, Table 3.2); `rail` is the rail of the step that is not good. -/
def wakeTimeout (rail : Nat) (s : State) : State :=
  match s.wake.phase with
  | .waking step attempt =>
    let rails := stepRails step
    let r := if rails.contains rail then some rail else rails.head?
    failAttempt step attempt (timeoutCause step (s.clk.qualA || s.clk.qualB)) r s
  | _ => s

/-- WAKE_STEP_TIMEOUT. -/
def execWakeStepTimeout (rail : Nat) (s : State) : Host.Outcome State Fault Refusal := .next (wakeTimeout rail s)

/-- Whether a rail can already be good at a step (R77, R78): the rails of the steps before, and of the step's own rails, which come up in
order, every one but the last, with whose good signal the step is over. -/
def railGood (step rail : Nat) (s : State) : Bool := s.wake.rails.testBit rail || (stepRails step).dropLast.contains rail

/-- A rail already good loses good during the wake sequence (R78): cause 0x3 at the current step. -/
def wakeRailFault (rail : Nat) (s : State) : State :=
  match s.wake.phase with
  | .waking step attempt => if railGood step rail s then failAttempt step attempt 0x3 (some rail) s else s
  | _ => s

/-- WAKE_RAIL_FAULT. -/
def execWakeRailFault (rail : Nat) (s : State) : Host.Outcome State Fault Refusal := .next (wakeRailFault rail s)

/-- The 100 ms after a failed attempt end (R78): the next attempt starts at step 1. -/
def wakeRetry (s : State) : State :=
  match s.wake.phase with
  | .retryWait attempt =>
    { s with wake := { s.wake with phase := .waking 1 (attempt + 1) },
             aon := { s.aon with wake := { s.aon.wake with attempts := attempt + 1 } } }
  | _ => s

/-- WAKE_RETRY_WAIT_END. -/
def execWakeRetryWaitEnd (s : State) : Host.Outcome State Fault Refusal := .next (wakeRetry s)

/-- A rail fault after PGOOD (R83): power-down, ATTEMPTS 1 with step 0xF cause 0x3, then SAFE_HOLD (R79). -/
def railFaultRunning (rail : Nat) (s : State) : State :=
  match s.wake.phase with
  | .running =>
    let s := powerDown s
    let ws : WakeStatus := { attempts := 1, result := 2, rail := rail, bytes := [(0xF, 0x3), (0, 0), (0, 0), (0, 0)] }
    { s with wake := { s.wake with phase := .safeHold, faultN := true }, aon := { s.aon with wake := ws } }
  | _ => s

/-- RAIL_FAULT_RUNNING. -/
def execRailFaultRunning (rail : Nat) (s : State) : Host.Outcome State Fault Refusal := .next (railFaultRunning rail s)

/-- Change the supply selector. -/
def onSelector (f : Selector → Selector) (s : State) : State :=
  { s with aon := { s.aon with selector := f s.aon.selector } }

/-- A power loss (R85, R601): a feed below 38.0 V for 50 µs while PGOOD is asserted. The always-on log keeps the cause. -/
def powerLoss (mv0 mv1 mv2 : Nat) (s : State) : State :=
  let feeds := [mv0, mv1, mv2]
  let s := { s with wake := { s.wake with feeds } }
  let s := onSelector (fun q => q.sees feeds) s
  if s.wake.pgood && feeds.any (fun v => v < 38000) then
    powerDown (logEvent (event 0x1006 0 0 (BitVec.ofNat 64 (lowestFeed feeds)) s) s)
  else s

/-- POWER_LOSS. -/
def execPowerLoss (mv0 mv1 mv2 : Nat) (s : State) : Host.Outcome State Fault Refusal := .next (powerLoss mv0 mv1 mv2 s)

/-- The input falls below 37.0 V (R101): the selector switches to the backup cell; a switch in progress completes first.
With every feed gone the management port loses what it holds (R99, R570). -/
def supplyToCell (mv0 mv1 mv2 : Nat) (s : State) : State :=
  let feeds := [mv0, mv1, mv2]
  let s := { s with wake := { s.wake with feeds, inputLost := true } }
  let s := if feeds.all (fun v => v == 0) then { s with mgmt := Mgmt.reset } else s
  onSelector (fun q =>
    if q.switching || q.onCell then q.sees feeds else { q with switching := true, inputChanged := false }) s

/-- SUPPLY_SWITCH_TO_CELL. -/
def execSupplySwitchToCell (mv0 mv1 mv2 : Nat) (s : State) : Host.Outcome State Fault Refusal :=
  .next (supplyToCell mv0 mv1 mv2 s)

/-- The input has stayed at or above 39.0 V for 10 ms (R101): the switch back to the converter starts. -/
def supplyQualified (s : State) : State :=
  onSelector (fun q => if q.onCell && !q.switching && q.qualifying && feedsHigh s.wake.feeds
    then { q with switching := true, qualifying := false, inputChanged := false } else q) s

/-- SUPPLY_QUALIFY_END. -/
def execSupplyQualifyEnd (s : State) : Host.Outcome State Fault Refusal := .next (supplyQualified s)

/-- The always-on domain loses its supply (R99, R104, Table 3.11): its contents and the state of its logic are gone, the latch of
THERMTRIP_N and the pins it holds with them; the canary is broken, WAKE_STATUS reads its reset value, and a SAFE_HOLD is over. -/
def aonLost (s : State) : State :=
  { s with
    aon := { Aon.reset with canary := 0, cell := s.aon.cell, selector := s.aon.selector, canaryLost := s.aon.canaryLost,
                            journalSource := s.aon.journalSource }
    wake := { s.wake with thermtripN := false, faultN := false,
                          phase := if s.wake.phase == .safeHold then .standby else s.wake.phase } }

/-- A selector switch completes (R101); an input change during it restarts the qualification, and an input that is below
37.0 V once the converter is in use sends the selector to the cell again. On a failed cell a lost input loses the always-on contents
(R103). -/
def supplyDone (s : State) : State :=
  let low := s.wake.feeds.any fun v => v < 37000
  let t := onSelector (fun q =>
    if !q.switching then q
    else if q.onCell then { q with onCell := false, switching := low, qualifying := false, inputChanged := false }
    else { q with onCell := true, switching := false, qualifying := feedsHigh s.wake.feeds, inputChanged := false }) s
  if s.aon.selector.switching && !s.aon.selector.onCell && s.aon.cell == .failed && low then aonLost t else t

/-- SUPPLY_SWITCH_DONE. -/
def execSupplySwitchDone (s : State) : Host.Outcome State Fault Refusal := .next (supplyDone s)

/-- CELL_LEVEL as the registers report it (R107). -/
def cellCode : CellLevel → Nat
  | .full => 0
  | .charging => 1
  | .low => 2
  | .failed => 3

/-- Whether firmware runs (R572): self-test, running or shelf state. -/
def firmwareRuns (s : State) : Bool := s.boot.stage == 2 || s.boot.stage == 3 || s.boot.stage == 4

/-- The backup cell's level changes (R103): firmware raises a backup-cell event on each change to low or failed. -/
def cellLevel (level : CellLevel) (s : State) : State :=
  let changed := s.aon.cell != level
  let s := { s with aon := { s.aon with cell := level } }
  if changed && (level == .low || level == .failed) && firmwareRuns s then
    raiseM none 0x1004 0 (BitVec.ofNat 64 (cellCode level)) s
  else s

/-- BACKUP_CELL_LEVEL_CHANGE. -/
def execBackupCellLevelChange (level : CellLevel) (s : State) : Host.Outcome State Fault Refusal :=
  .next (cellLevel level s)

/-- Whether a sensor index is a stack sensor (R549). -/
def stackSensor (i : Nat) : Bool := inRange i 74 81

/-- The trip temperature of a sensor in 0.25 °C (R565): 110 °C for a compute sensor, 105 °C for a stack sensor. -/
def tripPoint (i : Nat) : Nat := if stackSensor i then 420 else 440

/-- Thermal trip (R565, R607): THERMTRIP_N and FAULT_N assert, the event log takes a thermal-trip entry, the module powers
down. The sensor reads at least its trip point. Without PGOOD there is no power-down to run. -/
def thermalTrip (sensor : Nat) (s : State) : State :=
  match s.wake.phase with
  | .running =>
    let t := max (s.thermal.sensors.getD sensor 0) (tripPoint sensor)
    let e := event 0xB00A 0 0 (pack [(sensor, 32, 8), (t, 0, 10)]) s
    let s := powerDown (logEvent e s)
    { s with wake := { s.wake with thermtripN := true, faultN := true }, aon := { s.aon with tripLatch := true } }
  | _ => s

/-- THERMAL_TRIP. -/
def execThermalTrip (sensor : Nat) (s : State) : Host.Outcome State Fault Refusal := .next (thermalTrip sensor s)

/-- THERMTRIP_N releases (R609, R607) once the power-down has ended and PWR_EN reads deasserted; FAULT_N with it. -/
def thermtripRelease (s : State) : State :=
  if s.wake.thermtripN && !s.wake.pwrEn && s.wake.phase == .standby then
    { s with wake := { s.wake with thermtripN := false, faultN := false }, aon := { s.aon with tripLatch := false } }
  else s

/-- THERMTRIP_RELEASE. -/
def execThermtripRelease (s : State) : Host.Outcome State Fault Refusal := .next (thermtripRelease s)

/-- 100 ms after the last rail is off (R83): the wake that PWR_EN asked for during the power-down starts. -/
def wakeAfterPowerDown (s : State) : State :=
  if s.wake.wakePending && s.wake.pwrEn then
    match s.wake.phase with
    | .standby => startWake s
    | .safeHold => startWake s
    | _ => s
  else s

/-- WAKE_AFTER_POWER_DOWN. -/
def execWakeAfterPowerDown (s : State) : Host.Outcome State Fault Refusal := .next (wakeAfterPowerDown s)

/-- The always-on domain dips below 0.58 V with the input absent (R104, Table 3.11): the canary breaks; down to 0.50 V the
other words keep their contents, and a domain that falls to zero loses them, WAKE_STATUS reading its reset value. -/
def retentionDip (toZero : Bool) (s : State) : State :=
  if s.aon.selector.onCell then
    if toZero then aonLost s else { s with aon := { s.aon with canary := 0 } }
  else s

/-- RETENTION_VOLTAGE_DIP. -/
def execRetentionVoltageDip (toZero : Bool) (s : State) : Host.Outcome State Fault Refusal :=
  .next (retentionDip toZero s)

/-- The 5 ms after a winning MODULE_RESET expire (R186, R187, R624): the event log names the winner and the superseded
masters, every slot returns to IDLE, and the warm reset runs. The log entry's CODE is one the spec does not give. -/
def moduleResetNow (s : State) : State :=
  match s.orders.resetPending with
  | none => s
  | some r =>
    let (code, s) := freeWord s
    let e := event (code.toNat % 2 ^ 16) 0 (pack ((List.range r.superseded.length).map fun i => (r.superseded.getD i 0, 8 * i, 8)))
      (BitVec.ofNat 64 r.winner) s
    warmReset (logEvent e s)

/-- MODULE_RESET_DELAY_END. -/
def execModuleResetDelayEnd (s : State) : Host.Outcome State Fault Refusal := .next (moduleResetNow s)

end Sys2Proof.Machine
end

