-- ==== Sys2Proof/Machine/Boot.lean ====
section
/-! DEFINITION. Machine/Boot.lean: the boot ROM (R87 to R91, R104, R105), blueprint fallback and lock (R66, R67, R69), trials
at boot (R593 to R596) and the shelf and recovery states. -/
namespace Sys2Proof.Machine

/-- BP_FAIL's half for one slot (Table 2.20): stage, tried, type, word. -/
def failHalf (f : Option BpFail) (tried : Bool) : Nat :=
  match f with
  | some e => packN [(e.stage, 29, 3), (1, 28, 1), (e.type, 12, 16), (e.word, 0, 12)]
  | none => packN [(b2n tried, 28, 1)]

/-- BP_FAIL (R73). -/
def bpFailReg (b : Boot) : W64 := pack [(failHalf b.failB b.triedB, 32, 32), (failHalf b.failA b.triedA, 0, 32)]

/-- RETENTION_CANARY_CHECK and JOURNAL_RECOVERY, step 1 of Table 3.5 (R104, R105, R107): the boot counter increments. The
always-on-lost entry carries the boot counter as this boot reads it. -/
def bootStep1 (s : State) : State :=
  let lost := s.aon.canary != 0x5A3CC3A5
  let ptr := if lost then none else pointedJournal s
  let latest := latestJournal s.flash
  let (j, jPtr, source) := match ptr with
    | some j => (some j, s.aon.jPtr, 0)
    | none => match latest with
      | some (i, j) => (some j, some i, 1)
      | none => (none, none, 2)
  let count := if lost then (j.map JEntry.bootCount).getD 0 else s.aon.bootCount
  let count := satInc 0xFFFFFFFF count
  let cwValid := s.aon.cwValid && !lost
  let a := { s.aon with bootCount := count, jPtr, jCur := j, cwValid, cwValidAtReset := cwValid, canary := 0x5A3CC3A5,
                        canaryLost := lost, journalSource := source }
  if lost then
    let s := { s with aon := { a with log := [], logNew := 0, wake := {} } }
    raiseM none 0x1005 0 (BitVec.ofNat 64 count) s
  else { s with aon := a }

/-- The header after a rollback (R594): the previous slots of what was on trial, TRIAL at 0. -/
def Header.rolledBack (h : Header) : Header :=
  { h with fwSlot := if h.fwTrial then h.fwPrev else h.fwSlot, bpSlot := if h.bpTrial then h.bpPrev else h.bpSlot,
           trial := false, fwTrial := false, bpTrial := false }

/-- A rollback (R594): stage ROLLING_BACK, the header, stage ROLLED_BACK, update-rolled-back with its cause. -/
def rollback (cause : Nat) (s : State) : State :=
  let h := (selectHeader s.flash).1
  let s := setStage 9 (writeHeader h.rolledBack (setStage 8 s))
  raiseM none 0xC007 0 (BitVec.ofNat 64 cause) { s with update := { s.update with rollbackWarned := false } }

/-- Revoke a key slot. -/
def revokeAt (l : List KeySlot) (i : Nat) : List KeySlot := upd l i fun k => { k with revoked := true }

/-- REVOKE_OTHER of a confirmed firmware image (R582, R593). -/
def revokeOther (slot : List W64) (s : State) : State :=
  let w3 := slot.getD 3 0
  if bit w3.toNat 32 then
    let other := 1 - fld w3 33 33
    raiseM none 0xC00B 0 (pack [(1, 8, 1), (other, 0, 2)])
      { s with fuses := { s.fuses with vendorKeys := revokeAt s.fuses.vendorKeys other } }
  else s

/-- Steps 2 to 5 of a confirmation (R593), or what is left of them at a boot (R595): the header without a trial, the floors,
REVOKE_OTHER, stage CONFIRMED. -/
def finishConfirm (s : State) : State :=
  let h := (selectHeader s.flash).1
  let j := s.aon.jCur.getD {}
  let s := if h.trial then writeHeader { h with trial := false, fwTrial := false, bpTrial := false } s else s
  let s := if j.fw then raiseFloorTo false j.fwVersion s else s
  let s := if j.bp then raiseFloorTo true j.bpVersion s else s
  let s := if j.fw then revokeOther (fwSlotWords j.fwTarget s.flash) s else s
  let s := setStage 7 s
  raiseM none 0xC005 0 (BitVec.ofNat 64 (selectHeader s.flash).1.seq)
    { s with update := { s.update with rollbackWarned := false } }

/-- 30 minutes of the 32,768 Hz timekeeper (R593, R594). -/
def trialTicks : Nat := 30 * 60 * 32768

/-- Timekeeper time since the trial started. -/
def trialAge (s : State) : Nat := (s.aon.timekeeper - (s.aon.jCur.getD {}).trialStart).toNat

/-- TRIAL_BOOT_RECORD (R593): TRIAL_BOOTS rises by one; TRIAL_START is taken at the first trial boot, or anew when the
canary was found broken at this boot. -/
def trialBoot (s : State) : State :=
  let j := s.aon.jCur.getD {}
  let first := j.trialBoots == 0 || s.aon.canaryLost
  writeJournal { j with stage := 5, trialBoots := min 15 (j.trialBoots + 1),
                        trialStart := if first then s.aon.timekeeper else j.trialStart } s

/-- What the boot ROM does about an update before it selects slots (R593 to R596). -/
def bootUpdate (s : State) : State :=
  let h := (selectHeader s.flash).1
  let st := stageOf s
  if st == 6 then finishConfirm s
  else if st == 8 then
    let s := setStage 9 (if h.trial then writeHeader h.rolledBack s else s)
    let (c, s) := freeWord s
    raiseM none 0xC007 0 (c &&& 0xF) s
  else if h.trial then
    if s.aon.jCur.isNone then rollback 4 s
    else if 3 ≤ (s.aon.jCur.getD {}).trialBoots then rollback 1 s
    else if (s.aon.jCur.getD {}).trialBoots != 0 && !s.aon.canaryLost && trialTicks ≤ trialAge s then rollback 2 s
    else
      let s := trialBoot s
      { s with boot := { s.boot with trialThisBoot := true } }
  else if st == 4 then setStage 10 s
  else s

/-- Steps 3 and 4 with FIRMWARE_FALLBACK (R88): the slot that runs and whether it is the other one; none: both rejected. -/
def selectFirmware (h : Header) (s : State) : Option (Bool × Bool) :=
  let ok := fun b => firmwareOk (fwSlotWords b s.flash) s.fuses.vendorKeys (floorOf s.fuses.fwFloor)
  if ok h.fwSlot then some (h.fwSlot, false) else if ok (!h.fwSlot) then some (!h.fwSlot, true) else none

/-- BLUEPRINT_VALIDATION of one slot (R65). -/
def checkSlot (b : Bool) (s : State) : Except BpFail Blueprint :=
  validateBlueprint (bpSlotWords b s.flash) s.fuses.ownerKeys (floorOf s.fuses.bpFloor) Config.gradeF

/-- The failure of a result, for BP_FAIL. -/
def failOf (r : Except BpFail Blueprint) : Option BpFail := match r with
  | .error e => some e
  | .ok _ => none

/-- Record a slot's validation in BP_FAIL (R73). -/
def recordFail (slot : Bool) (f : Option BpFail) (b : Boot) : Boot :=
  if slot then { b with failB := f, triedB := true } else { b with failA := f, triedA := true }

/-- The words hashed into fuse_digest (R90): owner key slots, revoke bits and version floors. DESIGN CHOICE (log 206): for each owner slot a
word of its programmed and revoke bits and then its hash, then one word of the two floors as they read; vendor slots are left out. -/
def fuseWords (f : Fuses) : List W64 :=
  (f.ownerKeys.flatMap fun k => pack [(b2n k.programmed, 1, 1), (b2n k.revoked, 0, 1)] :: digestWords k.hash) ++
  [pack [(floorOf f.fwFloor, 32, 32), (floorOf f.bpFloor, 0, 32)]]

/-- BOOT_MEASUREMENT_EXTEND (R90): bmr := sha384(bmr || m). -/
def extend (bmr m : Digest) : Digest := Config.sha384 (digestWords bmr ++ digestWords m)

/-- The measurements taken at step 7 (R90, R91): the fourth is the blueprint measurement, or 48 bytes of 0xFF. -/
def measure (fw bp : Digest) (s : State) : State :=
  let ms := [Config.romDigest, Config.sha384 (fuseWords s.fuses), fw, bp]
  { s with boot := { s.boot with bmr := ms.foldl extend 0, measurements := ms } }

/-- The stack halves no partition holds (R40), as STACK_HALVES. -/
def unheldHalves (bp : Blueprint) : Nat := packN ((setBits 0xFFFF 16).filterMap fun i =>
  if bp.parts.any fun p => p.halves.testBit i then none else some (1, i, 1))

/-- The tile clusters no partition holds (R40), bit 33 x die + cluster. Cluster 32 of a die holds its spare cores, which serve any
partition, and is not parked (DEDUCED, log 199). -/
def unheldClusters (bp : Blueprint) : Nat := packN ((setBits 0xFFFFFFFF 32).flatMap fun c =>
  (if bp.parts.any fun p => p.clusters0.testBit c then [] else [(1, c, 1)]) ++
    (if bp.parts.any fun p => p.clusters1.testBit c then [] else [(1, 33 + c, 1)]))

/-- BLUEPRINT_LOCK (R69, R40, R52, R45, R94, R115, R124): the shadow and the flash protection, the cap and window of the power record,
the mailbox bindings; REFB is disqualified when the image says it is not fitted; ports no partition holds go to Detect. -/
def lockBlueprint (bp : Blueprint) (slot : Bool) (state : Nat) (s : State) : State :=
  let s := { s with
    boot := { s.boot with shadow := some bp, bpSlot := slot, bpState := state, parkedHalves := unheldHalves bp,
                          parkedClusters := unheldClusters bp },
    flash := { s.flash with bpProtect := some slot },
    power := { s.power with cap := bp.power.capW, windowS := bp.power.windowS, ticks := [], capNew := true },
    mail := mailboxes bp.bindings,
    ports := (List.range 4).map fun p =>
      let q := portOf p s
      match portPart bp.parts p with
      | some _ => q
      | none => { q with linkUp := false, rate := 0, width := 0 } }
  judgeClkmon (if bp.clocks.refbPresent then s else refDisqualified .refB s)

/-- What firmware does as it starts, whatever the module's state (R82, R135, R596): the Clockwork seed in u64 arithmetic that wraps (R14), wake-retried, and a
session that a reset cut short becomes CANCELLED. -/
def firmwareStart (s : State) : State :=
  let s := if s.aon.cwValidAtReset then
      { s with cwk := { s.cwk with now := s.aon.cwCount + ((s.aon.timekeeper - s.aon.cwTk) * 1000000000) / 32768 } }
    else s
  let ws := s.aon.wake
  let s := if ws.result == 1 && 1 < ws.attempts then
      raiseM none 0x1001 0 (pack ([(ws.attempts, 60, 4), (ws.result, 56, 4), (ws.rail, 48, 8)] ++
        (List.range 4).map fun i => let b := ws.bytes.getD i (0, 0); (b.1 * 16 + b.2, 8 * i, 8))) s
    else s
  let st := stageOf s
  if st == 1 || st == 2 || st == 3 then
    raiseM none 0xC002 0 (BitVec.ofNat 64 st) (setStage 10 s)
  else s

/-- SHELF_STATE_ENTRY (R67): no partition, H0 with BAR0 only, H1 to H3 in Detect, links idle, stacks in self-refresh, cores parked,
FAULT_N asserted. SLOT shows the slot that the header selected at this boot names, also where a rollback has just rewritten the header
(DESIGN CHOICE, log 200). -/
def enterShelf (h : Header) (s : State) : State :=
  firmwareStart { s with
    boot := { s.boot with bpState := 3, bpSlot := h.bpSlot, stage := 4 },
    wake := { s.wake with faultN := true, gatesOpen := false, linksIdle := true, selfRefresh := true },
    ports := (List.range 4).map fun p =>
      let q := portOf p s
      if p == 0 then q else { q with linkUp := false, rate := 0, width := 0 } }

/-- Steps 5 to 7 (R65 to R70): the named slot, then the other; BP_FAIL, fallback event, lock, measurements. A fallback
while a newly activated image awaits confirmation is a failed boot of its trial (R66, R594). -/
def bootBlueprint (h : Header) (fwDigest : Digest) (s : State) : State :=
  let r := checkSlot h.bpSlot s
  let s := { s with boot := recordFail h.bpSlot (failOf r) s.boot }
  match r with
  | .ok bp => measure fwDigest (Config.sha384 bp.image) (lockBlueprint bp h.bpSlot 1 s)
  | .error _ =>
    let trial := h.trial && s.boot.trialThisBoot
    let r2 := checkSlot (!h.bpSlot) s
    let s := { s with boot := recordFail (!h.bpSlot) (failOf r2) s.boot }
    let s := if trial then rollback 3 { s with boot := { s.boot with trialThisBoot := false } } else s
    match r2 with
    | .ok bp =>
      let s := measure fwDigest (Config.sha384 bp.image) (lockBlueprint bp (!h.bpSlot) 2 s)
      raiseM none 0x1003 0 (bpFailReg s.boot) s
    | .error _ => enterShelf h (measure fwDigest (BitVec.allOnes 384) s)

/-- The boot ROM, steps 1 to 7 of Table 3.5 (R87): firmware recovery when both firmware slots are rejected (R88, R591). -/
def bootRom (s : State) : State :=
  if !s.boot.secRunning || s.boot.romDone then s
  else
    let s := bootUpdate (bootStep1 { s with boot := { s.boot with romDone := true } })
    let h := (selectHeader s.flash).1
    match selectFirmware h s with
    | none =>
      let s := { s with
        boot := { s.boot with stage := 1, fwSlot := h.fwSlot, fwFallback := true, bpSlot := h.bpSlot },
        wake := { s.wake with faultN := true } }
      if h.fwTrial && s.boot.trialThisBoot then rollback 3 { s with boot := { s.boot with trialThisBoot := false } } else s
    | some (slot, fell) =>
      let s := { s with boot := { s.boot with fwSlot := slot, fwFallback := fell } }
      let fw := Config.sha384 (fwImageOf (fwSlotWords slot s.flash))
      if fell && h.fwTrial && s.boot.trialThisBoot then
        bootBlueprint h fw (rollback 3 { s with boot := { s.boot with trialThisBoot := false } })
      else bootBlueprint h fw s

/-- BOOT_ROM. -/
def execBootRom (s : State) : Host.Outcome State Fault Refusal := .next (bootRom s)

end Sys2Proof.Machine
end

