-- ==== Sys2Proof/Machine/Sparing.lean ====
section
/-! DEFINITION. Machine/Sparing.lean: spare cores, held tiles and swaps (14_determinism_faults_recovery.md, R533, R537 to R539). -/
namespace Sys2Proof.Machine

/-- Change the fault state. -/
def onFaults (f : Faults → Faults) (s : State) : State := { s with faults := f s.faults }

/-- Change a spare. -/
def onSpare (c : Nat) (f : Spare → Spare) : State → State :=
  onFaults fun q =>
    if 512 ≤ c % 528 then { q with spares := upd q.spares (16 * (c / 528) + (c % 528 - 512)) f }
    else { q with extra := q.extra.map fun p => if p.1 == c then (c, f p.2) else p }

/-- The lowest free spare of a die (R537) that is not chosen for a deferred swap. -/
def freeSpare (die : Nat) (s : State) : Option Nat :=
  ((allSpares s).find? fun p => dieOfCore p.1 == die && p.2.state == 0 && !p.2.deferred).map Prod.fst

/-- The spare chosen for a deferred swap of a position (R538). -/
def deferredSpare (pos : Nat) (s : State) : Option Nat :=
  ((allSpares s).find? fun p => p.2.deferred && p.2.serves == pos).map Prod.fst

/-! Held tiles (R528, R534). -/

/-- Something still holds a tile: a test, a swap, or a position without a core. -/
def tileHeld (t : Nat) (s : State) : Bool :=
  s.faults.tests.any (fun u => u.tile == some t) || s.faults.swaps.any (fun w => w.tile == some t) ||
    s.faults.lost.contains (positionOf t)

/-- A tile that issues or waits becomes HELD. -/
def JobTile.hold (x : JobTile) : JobTile := if inRange x.state 2 4 then { x with state := 7 } else x

/-- A HELD tile goes on; its held instructions replay in list order (R535). -/
def JobTile.unhold (x : JobTile) : JobTile := if x.state == 7 then { x with state := 2 } else x

/-- Change a tile in every running job that has it. -/
def onRunningTile (t : Nat) (f : JobTile → JobTile) (s : State) : State :=
  { s with jobs := s.jobs.map fun j => if j.running then j.onTile t f else j }

/-- A tile enters HELD. -/
def holdTile (t : Nat) (s : State) : State := onRunningTile t JobTile.hold s

/-- A tile leaves HELD once nothing holds it; what its datapath or its cluster's can start, starts. -/
def resumeTile (t : Nat) (s : State) : State := if tileHeld t s then s else startOps t (onRunningTile t JobTile.unhold s)

/-- An operation that a failed datapath ran goes on at another core (R535, R537): its arrays start there. -/
def moveOps (t core : Nat) (s : State) : State :=
  let gone := fun (e : Entry) => e.acc.isSome && !e.ended && s.faults.out.contains (.core e.core)
  let moved := s.jobs.any fun j => (j.tile t).any fun x => x.arrays.any gone
  if !moved then s
  else
    let old := s.faults.out.filterMap coreOfUnit
    startArrays core 4 (stopArrays (fun c => old.contains c) (onRunningTile t (fun x =>
      { x with arrays := x.arrays.map fun e => if gone e then { e with core := core } else e }) s))

/-- Resume the tile that a test or a swap held. -/
def resume (t : Option Nat) (s : State) : State := match t with
  | some t => resumeTile t s
  | none => s

/-- The tiles of a job whose run begins while something holds them are HELD at once. -/
def holdAtStart (j : Job) (s : State) : State :=
  j.tiles.foldl (fun s x => if tileHeld x.tile s then onTile j x.tile JobTile.hold s else s) s

/-! Out of service. -/

/-- How often a unit has left service since module reset (R544). -/
def leavesOf (u : TestUnit) (s : State) : Nat := ((s.faults.leaves.find? fun p => p.1 == u).map Prod.snd).getD 0

/-- A unit goes out of service. -/
def takeOut (u : TestUnit) (s : State) : State :=
  if s.faults.out.contains u then s
  else onFaults (fun q => { q with
    out := q.out ++ [u], suspects := q.suspects.filter fun v => v != u,
    leaves := (u, leavesOf u s + 1) :: q.leaves.filter fun p => p.1 != u }) s

/-- A core goes out of service: a spare with its SPARE_STATUS, a rejoined position leaves the pool. -/
def coreOut (c : Nat) (s : State) : State :=
  let s := takeOut (.core c) s
  if 512 ≤ c % 528 then onSpare c (fun p => { p with state := 2, deferred := false }) s
  else onFaults (fun q => { q with extra := q.extra.filter fun p => p.1 != c }) s

/-- The near lines of a spare's slice move to their homes (R320). -/
def clearSlice (c : Nat) (s : State) : State :=
  if c % 528 < 512 then s
  else
    let gone := fun (n : Option (Nat × Nat)) => match n with
      | some (d, k) => d == c / 528 && k / 128 == c % 528 - 512
      | none => false
    { s with jobs := s.jobs.map fun j => { j with ext := j.ext.map fun e => if gone e.near then { e with near := none } else e } }

/-- A spare enters service for a position (Table 14.7): serving, its near lines move, the swap begins. -/
def enterSpare (sp pos : Nat) (tile : Option Nat) (kind : SwapKind) (s : State) : State :=
  let s := onSpare sp (fun p => { p with
    state := 1, serves := pos, part := (partOfCore pos s).getD 0, emulating := pos % 16 < 2, deferred := false }) s
  clearSlice sp (onFaults (fun q => { q with swaps := q.swaps ++ [⟨pos, sp, tile, kind⟩] }) s)

/-- Datapaths left in a position's cluster on E grade (R539): of 14, those in service or served. -/
def datapathsLeft (pos : Nat) (s : State) : Nat :=
  let base := pos - pos % 528 + pos % 528 / 16 * 16
  ((List.range 14).filter fun i =>
    let c := base + i
    !s.faults.out.contains (.core c) || (allSpares s).any fun p => p.2.state == 1 && p.2.serves == c).length

/-- No spare is free for a position (R539): on E grade a datapath fault degrades the cluster, otherwise the tile stays HELD; a fault lasting
by bucket leaves the core in service as suspect. -/
def noSpareLeft (pos : Nat) (tile : Option Nat) (kind : SwapKind) (s : State) : State :=
  let part := partOfCore pos s
  match kind with
  | .deferred => resume tile (onFaults (fun q => { q with
      out := q.out.filter (fun u => u != .core pos), suspects := q.suspects ++ [.core pos] }) s)
  | _ =>
    if !Config.gradeF && kind == .datapath then
      let s := match tile with
        | some t => match (datapathPositions false (clusterOf t)).findSome? fun p => freeDatapath p s with
          | some core => moveOps t core s
          | none => s
        | none => s
      resume tile (raiseM part 0xA008 (clusterUnit (32 * (pos / 528) + pos % 528 / 16)) (BitVec.ofNat 64 (datapathsLeft pos s)) s)
    else
      let s := raiseM part 0xA005 (unitCore pos) (BitVec.ofNat 64 (dieOfCore pos)) (onFaults (fun q => { q with lost := q.lost ++ [pos] }) s)
      match part with
      | some n => failLost n s
      | none => s

/-- A swap of a position begins, or finds no spare (R537, R539). -/
def beginSwap (pos : Nat) (tile : Option Nat) (kind : SwapKind) (s : State) : State :=
  match (deferredSpare pos s).orElse fun _ => freeSpare (dieOfCore pos) s with
  | some sp => enterSpare sp pos tile kind s
  | none => noSpareLeft pos tile kind s

/-- The swaps that a partition deferred begin at its step boundary (R538). -/
def startDeferred (n : Nat) (s : State) : State :=
  let due := (allSpares s).filter fun p => p.2.deferred && partOfCore p.2.serves s == some n
  due.foldl (fun s p =>
    let pos := p.2.serves
    let t := tileOfCore pos
    let s := coreOut (holderOf pos s) s
    holdTile t (enterSpare p.1 pos (some t) .deferred s)) s

end Sys2Proof.Machine
end

