-- ==== Sys2Proof/Machine/StepCommit.lean ====
section
/-! DEFINITION. Machine/StepCommit.lean: the step vote, the decision and its application, repairs and their proof, replica digests, the
release of the next step (13 R499 to R515). -/
namespace Sys2Proof.Machine

/-! Health (R500) and the non-finite flag (R499). -/

/-- The stack channels of a partition (R314, R340). -/
def partChannels (n : Nat) (s : State) : List Nat :=
  (setBits (((partCfg n s).map PartCfg.halves).getD 0) 16).flatMap fun h => (List.range 16).map fun i => 32 * (h / 2) + 16 * (h % 2) + i

/-- Range of array `i` of Table 10.2 of a segment. -/
def arrayRange (part : Nat) (g : SegFields) (i : Nat) (s : State) : Nat × Nat :=
  let l := segStarts part g s
  (l.getD i 0, l.getD (i + 1) 0 - l.getD i 0)

/-- A range holds a poisoned line. -/
def hasPoison (r : Nat × Nat) (s : State) : Bool := s.poison.any fun l => r.1 < 64 * l + 64 && 64 * l < r.1 + r.2

/-- A held accumulator line of a segment is poisoned. -/
def accPoisoned (part : Nat) (g : Segment) (s : State) : Bool :=
  g.acc == 1 && hasPoison (arrayRange part (segFields g.words) 0 s) s

/-- The current slot of a segment holds a poisoned line. -/
def slotPoisoned (part : Nat) (g : Segment) (s : State) : Bool :=
  (List.range 4).any fun i => hasPoison (arrayRange part (segFields g.words) (slotArray g.slot + i) s) s

/-- A module's health has failed (R500). -/
def healthFailed (j : Job) (s : State) : Bool :=
  j.segs.any (fun g => accPoisoned j.part g s || (g.upd == 4 && slotPoisoned j.part g s)) ||
    (!j.segs.isEmpty && (partChannels j.part s).any fun c => unitOut (unitChannel c) s) ||
    j.tiles.any fun x => x.state == 7 && s.faults.lost.contains (positionOf x.tile)

/-- The step non-finite flag as the module votes (R499). DEDUCED: a tile's bit counts in the step in which it was set. -/
def stepNonfinite (j : Job) : Bool :=
  j.coll.nonfinite || j.tiles.any (fun x => x.num.nfAdd && !j.coll.addSeen.contains x.tile) ||
    (j.seenVotes && j.tiles.any fun x => x.num.nfSeen && !j.coll.nfSeen.contains x.tile)

/-! Records. -/

/-- The words of a vote record (Table 13.6). -/
def VoteRec.words (v : VoteRec) : List W64 :=
  [pack [(if v.nonfinite then 0xFF else 0, 56, 8), (if v.health then 0xFF else 0, 48, 8), (v.missing, 35, 13)], 0]

/-- Read a vote record. -/
def readVote (w : List W64) : VoteRec :=
  { nonfinite := fld (w.getD 0 0) 63 56 != 0, health := fld (w.getD 0 0) 55 48 != 0, missing := fld (w.getD 0 0) 47 35 }

/-- Combine two records (Table 13.6): maximum and sum. -/
def VoteRec.combine (a b : VoteRec) : VoteRec :=
  { nonfinite := a.nonfinite || b.nonfinite, health := a.health || b.health, missing := a.missing + b.missing }

/-- The words of a decision record. -/
def Decision.words (d : Decision) : List W64 := [pack [(d.outcome, 62, 2), (d.round, 58, 4), (d.missing, 45, 13)], d.count]

/-- Read a decision. -/
def readDecision (step : W64) (w : List W64) : Decision :=
  { step, outcome := fld (w.getD 0 0) 63 62, round := fld (w.getD 0 0) 61 58, missing := fld (w.getD 0 0) 57 45, count := w.getD 1 0 }

/-- Change the vote. -/
def onVote (j : Job) (f : VoteRun → VoteRun) (s : State) : State := onColl j (fun c => { c with vote := f c.vote }) s

/-- Send a message of the step vote to a rank. -/
def sendVote (j : Job) (rank ctype round : Nat) (words : List W64) (s : State) : State :=
  sendColl j j.voteGroup rank ctype round j.voteDesc 0 noChunk (ofWords words) s

/-- The module's ranks in the vote group: P, its own, ARITY. -/
def Job.votePlace (j : Job) : Nat × Nat × Nat := (j.ranks j.voteGroup, j.myRank j.voteGroup, j.arity j.voteGroup)

/-- The counter is LOCKED. -/
def locked (s : State) : Bool := s.cwk.state == .locked

/-- The outcome of a complete record (R503). -/
def outcomeOf (j : Job) (v : VoteRec) (round : Nat) : Nat :=
  if v.nonfinite then 1 else if v.health && round < j.retryLimit then 2 else if v.health then 3 else 0

/-- The outcome for the engines (R506): 0 COMMIT, 1 SKIP with the flag set, 2 SKIP with it clear. -/
def Decision.kind (d : Decision) : Nat := if d.outcome == 0 then 0 else if d.outcome == 1 then 1 else 2

/-- The decision of a step and round that this module holds. -/
def Job.held (j : Job) (step : Nat) (round : Nat) : Option Decision :=
  j.coll.decided.find? fun d => d.step.toNat % 2 ^ 32 == step && d.round == round

/-- A decision is held (R503, R504, R506): kept, queued for its count, passed to the children and to who asked. -/
def holdDecision (j : Job) (d : Decision) (s : State) : State :=
  let j := fresh j s
  let (p, me, a) := j.votePlace
  let asked := j.coll.queries
  let s := onColl j (fun c => { c with
    decided := (d :: c.decided).take 16, decision := some d, queries := [],
    vote := { c.vote with proposed := none, combined := none, contributed := none } }) s
  let s := commitAt j.part j.num d.count d.kind s
  let jd := { fresh j s with step := d.step }
  (voteKids p a me ++ asked).foldl (fun s r => sendVote jd r 5 d.round d.words s) s

/-- A decision is made (R503): COMMIT_COUNT is the count of this moment plus the lead; the deputy sends it to rank 0. -/
def makeDecision (j : Job) (d : Decision) (s : State) : State :=
  let d := { d with count := now s + BitVec.ofNat 64 (j.leadUs * 1000) }
  let s := holdDecision j d s
  if (j.votePlace).2.1 == 1 then sendVote { fresh j s with step := d.step } 0 5 d.round d.words s else s

/-- Rank 0 or the deputy decides while its counter is LOCKED (R503). -/
def tryDecide (j : Job) (s : State) : State :=
  let j := fresh j s
  let (p, me, _) := j.votePlace
  let v := j.coll.vote
  match v.combined, v.proposed with
  | some r, none =>
    if !locked s || 2 ≤ me then s
    else
      let d : Decision := { step := j.step, round := v.round, outcome := outcomeOf j r v.round, missing := r.missing, count := 0 }
      if p == 1 then makeDecision j d s
      else sendVote j (1 - me) 5 v.round d.words (onVote j (fun v => { v with proposed := some d }) s)
  | _, _ => s

/-- A node sends its record upward once it has all it needs, or its time has passed (R502); rank 0 decides, or hands its record to the
deputy (R503). -/
def tryCombine (j : Job) (s : State) : State :=
  let j := fresh j s
  let (p, me, a) := j.votePlace
  let v := j.coll.vote
  let lost := (voteKids p a me).filter fun k => !v.kids.any fun q => q.1 == k
  match v.own, v.sent with
  | some r, false =>
    if lost.isEmpty || v.timedOut then
      let r := v.kids.foldl (fun r k => r.combine k.2) r
      let gone := (lost.map fun k => subtree p a 13 k k).sum
      let r := if lost.isEmpty then r else { r with health := true, missing := r.missing + gone }
      let s := onVote j (fun v => { v with sent := true }) s
      if me != 0 then sendVote j ((me - 1) / max 1 a) 4 v.round r.words s
      else
        let s := onVote j (fun v => { v with combined := some r }) s
        if locked s || p == 1 then tryDecide j s else sendVote j 1 4 v.round r.words s
    else s
  | _, _ => s

/-- The module contributes its record (R501, R509). -/
def contribute (j : Job) (r : VoteRec) (s : State) : State :=
  tryCombine j (onVote j (fun v => { v with own := some r, contributed := some (now s), queried := 0 }) s)

/-- VOTE requests whose step's reductions have gone far enough contribute (R501): every earlier exponent pass is complete and every
earlier REDUCE_FP32 done. -/
def settleVotes (j : Job) (s : State) : State :=
  let j := fresh j s
  (j.coll.runs.filter fun r => cOp (j.cdesc r.cdesc) == 7 && r.started).foldl (fun s r =>
    let j := fresh j s
    let earlier := j.coll.runs.filter fun q => q.id < r.id && cOp (j.cdesc q.cdesc) < 2
    if earlier.all fun q => cOp (j.cdesc q.cdesc) == 0 && q.started && q.units.all fun u => u.pass == 1 || u.result.isSome then
      let s := contribute j { nonfinite := stepNonfinite j, health := healthFailed j s, missing := 0 } s
      collDone (fresh j s) r s
    else s) s

/-! Repairs (R510 to R512). -/

/-- Reduction group of a segment: descriptor, P and own rank. -/
def Job.replicas (j : Job) (seg : Nat) : Nat × Nat × Nat := match j.reduceOf seg with
  | some d => (d, j.ranks (cGroup (j.cdesc d)), j.myRank (cGroup (j.cdesc d)))
  | none => (0, 1, 0)

/-- Seat of the replica that is k ranks on. -/
def Job.replicaSeat (j : Job) (seg k : Nat) : Nat :=
  let (d, p, me) := j.replicas seg
  j.rankSeat (cGroup (j.cdesc d)) ((me + k) % max 1 p)

/-- A message about a segment to a rank of its reduction group. -/
def sendAbout (j : Job) (seg rank ctype chunk : Nat) (data : List Byte) (s : State) : State :=
  let (d, _, _) := j.replicas seg
  sendColl j (cGroup (j.cdesc d)) rank ctype 0 d 0 chunk data s

/-- The first word of a REQUEST or DIGEST message. DESIGN CHOICE: the payload layout: what it is in bits 63:60, the segment below. -/
def aboutWord (kind seg : Nat) : W64 := pack [(kind, 60, 4), (seg, 0, 32)]

/-- The bytes that a repair copies, as addresses in order: the accumulators, or the four fields of a slot element by element. -/
def repairPlaces (part : Nat) (g : SegFields) (kind : Nat) (slot : Bool) (s : State) : List Nat :=
  if kind == 0 then (List.range (4 * g.elements)).map (g.fieldBase + ·)
  else (List.range 4).flatMap fun f => (List.range g.elements).flatMap fun e =>
    let (a, n) := fieldAt part g (slotArray slot + f) e s
    (List.range n).map (a + ·)

/-- A repair that no replica can help fails (R512, R514): repair-failed names the segment and the replicas tried, which are a free
value where the group has one rank; the run completes FAULT. -/
def failRepair (j : Job) (r : Repair) (s : State) : State :=
  let j := fresh j s
  let s := onColl j (fun c => { c with repairs := c.repairs.filter fun x => x.seg != r.seg }) s
  let (w, s) := if (j.replicas r.seg).2.1 == 1 then freeWord s else (pack [(r.first, 32, 12), (j.replicaSeat r.seg r.k, 0, 12)], s)
  let s := raiseM (some j.part) 0x9004 (unitSegment r.seg) w s j.w2
  stopRun (fresh j s) 0x000E s

/-- The first repair is taken in hand (R510, R512): a REQUEST or a DIGEST request to its replica. With one rank there is no replica: a
digest counts as proven, anything else fails. -/
def beginRepair : Nat → Job → State → State
  | 0, _, s => s
  | n + 1, j, s =>
    let j := fresh j s
    match j.coll.repairs with
    | [] => s
    | r :: rest =>
      let (_, p, me) := j.replicas r.seg
      if r.asked then s
      else if p ≤ 1 || p ≤ r.k then
        if r.kind == 2 then
          let d := ((j.seg r.seg).map Segment.digest).getD 0
          beginRepair n j (onColl j (fun c => { c with
            repairs := rest, proven := (r.seg, d) :: c.proven.filter fun x => x.1 != r.seg,
            redone := if c.redone.contains r.seg then c.redone else r.seg :: c.redone }) s)
        else beginRepair n j (failRepair j r s)
      else
        let s := if r.kind == 1 then restoreBegin j.part j.num r.seg s else s
        let s := onColl j (fun c => { c with repairs := { r with asked := true, since := now s } :: rest }) s
        let rank := (me + r.k) % p
        if r.kind == 2 then sendAbout (fresh j s) r.seg rank 8 noChunk (ofWords [aboutWord 0 r.seg, 0]) s
        else sendAbout (fresh j s) r.seg rank 0xA noChunk (ofWords [aboutWord r.kind r.seg, 0]) s

/-- Take up whatever repair is first. -/
def pumpRepairs (j : Job) (s : State) : State := beginRepair ((fresh j s).coll.repairs.length + 1) j s

/-- Add a repair unless the segment has one. -/
def addRepair (j : Job) (r : Repair) (s : State) : State :=
  onColl j (fun c => if c.repairs.any fun x => x.seg == r.seg then c else { c with repairs := c.repairs ++ [r] }) s

/-- Lines of a range lose their poison. -/
def cleanRange (r : Nat × Nat) (s : State) : State :=
  { s with poison := s.poison.filter fun l => !(r.1 ≤ 64 * l && 64 * l < r.1 + r.2) }

/-- Every byte of a repair has come (R510, Table 13.9). -/
def finishRepair (j : Job) (r : Repair) (s : State) : State :=
  let j := fresh j s
  match j.seg r.seg with
  | none => s
  | some g =>
    let f := segFields g.words
    let s := onColl j (fun c => { c with repairs := c.repairs.filter fun x => x.seg != r.seg }) s
    if r.kind == 0 then cleanRange (arrayRange j.part f 0 s) s
    else
      let clean := fun (slot : Bool) (s : State) =>
        (List.range 4).foldl (fun s i => cleanRange (arrayRange j.part f (slotArray slot + i) s) s) s
      let s := clean g.slot s
      let s := if g.flipPending then clean (!g.slot) s else s
      let step := match j.coll.applied with
        | some a => a.decision.step
        | none => j.step
      let s := onSeg j r.seg (fun g => { g with flipPending := false, step }) s
      let s := restoreEnd j.part j.num r.seg s
      onColl j (fun c => { c with repairs := { seg := r.seg, kind := 2, k := r.k, fails := r.fails, first := r.first } :: c.repairs }) s

/-- DATA of a repair arrives (R510). -/
def repairData (j : Job) (r : Repair) (chunk : Nat) (data : List Byte) (s : State) : State :=
  match j.seg r.seg with
  | none => s
  | some g =>
    let f := segFields g.words
    let write := fun (slot : Bool) (s : State) =>
      let places := ((repairPlaces j.part f r.kind slot s).drop (65536 * chunk)).take data.length
      { s with mem := (places.zip data).foldl (fun m p => wrBytes p.1 [p.2] m) s.mem }
    let s := write g.slot s
    let s := if r.kind == 1 && g.flipPending then write (!g.slot) s else s
    let total := ((repairPlaces j.part f r.kind g.slot s).length + 65535) / 65536
    let got := if r.got.contains chunk then r.got else chunk :: r.got
    let s := onColl j (fun c => { c with repairs := c.repairs.map fun x => if x.seg == r.seg then { x with got, since := now s } else x }) s
    if got.length == total then finishRepair j { r with got } s else s

/-- Answer what other ranks asked for, as far as their segments allow (R510, R512): kind 2 asks for the digest of the step's update,
which must have ended. A poisoned line that the answer would read stops the run (R326). -/
def serveAsks (j : Job) (s : State) : State :=
  let j := fresh j s
  let ready := fun (a : Ask) => match j.seg a.seg with
    | some g => g.upd != 2 && g.upd != 5 && (a.kind != 2 || (g.upd != 1 && g.upd != 4 && !g.flipPending))
    | none => false
  let s := onColl j (fun c => { c with asks := c.asks.filter fun a => !ready a }) s
  (j.coll.asks.filter ready).foldl (fun s a =>
    match j.seg a.seg with
    | none => s
    | some g =>
      let f := segFields g.words
      let arrays := if a.kind == 0 then [0] else (List.range 4).map (slotArray g.slot + ·)
      if a.kind == 2 then sendAbout j a.seg a.rank 8 noChunk (ofWords [aboutWord 1 a.seg, g.digest]) s
      else match arrays.findSome? fun i => poisoned (arrayRange j.part f i s).1 (arrayRange j.part f i s).2 s with
      | some x => stopAt (fresh j s) 0 ⟨0x000D, x⟩ s
      | none =>
      let bytes := (repairPlaces j.part f a.kind g.slot s).map fun p => rdByte p s.mem
      (List.range ((bytes.length + 65535) / 65536)).foldl (fun s i =>
        sendAbout (fresh j s) a.seg a.rank 3 i ((bytes.drop (65536 * i)).take 65536) s) s) s

/-! Application (R506 to R511). -/

/-- The commit record (R508): written when the partition's memory holds its place. -/
def writeCommitRecord (j : Job) (a : Applied) (s : State) : State :=
  let j := fresh j s
  let d := a.decision
  let at' := j.commitRecords + 32 * (j.coll.index % 16)
  let s' := onColl j (fun c => { c with redone := [] }) s
  if inside at' 32 (stackRange j.part s) then
    storeWords at' [d.step, d.count, a.at',
      pack [(d.outcome, 62, 2), (d.round, 58, 4), (d.missing, 45, 13), (b2n a.late, 44, 1), (min 0xFFF j.coll.redone.length, 32, 12),
            (j.coll.index, 0, 32)]] s'
  else s'

/-- With its repairs done after SKIP_RETRY, the module restarts updates and votes again (R509). -/
def tryRetry (j : Job) (s : State) : State :=
  let j := fresh j s
  if !j.coll.retry || !j.coll.repairs.isEmpty || !j.running then s
  else
    let s := match j.coll.applied with
      | some a => writeCommitRecord j a s
      | none => s
    let s := onColl j (fun c => { c with retry := false, applied := none }) s
    let s := if earlyMode j.part s then
        (j.segs.filter fun g => g.acc == 1 && g.upd == 0).foldl (fun s g => startUpdate j.part j.num g.index s) s
      else s
    let j := fresh j s
    contribute j { nonfinite := false, health := healthFailed j s, missing := 0 } s

/-- What made the module's health fail and can be repaired in a round (R510). -/
def roundRepairs (j : Job) (s : State) : State :=
  let s := j.segs.foldl (fun s g =>
    if g.upd == 4 && slotPoisoned j.part g s then addRepair j { seg := g.index, kind := 1 } s
    else if accPoisoned j.part g s then addRepair j { seg := g.index, kind := 0 } s
    else s) s
  pumpRepairs j s

/-- The outcome queued in the engines takes effect (R374, R506): every engine at once, and on COMMIT the step counter advances. -/
def applyStep (part num : Nat) (s : State) : State :=
  match jobOf part num s with
  | none => s
  | some j => match j.outcome with
    | none => s
    | some o =>
      let late := o.count < now s
      let s := { s with cwk := { s.cwk with now := if now s < o.count then o.count else now s } }
      if s.wake.selfRefresh then s
      else
        let s := applyOutcome j o.kind s
        let s := onJob part num (fun j => { j with outcome := none, step := if o.kind == 0 then j.step + 1 else j.step }) s
        let s := if o.kind == 0 then adviceCommit j s else adviceSkip j s
        let s := startDeferred part s
        match j.coll.decision with
        | none => s
        | some d =>
          let s := if late then raiseJ j 0x9002 (unitPart part) (now s - o.count) s else s
          let a : Applied := { decision := d, at' := now s, late }
          let s := onColl j (fun c => { c with
            decision := none, applied := some a, index := c.index + 1, nonfinite := false,
            addSeen := (j.tiles.filter fun x => x.num.nfAdd).map JobTile.tile,
            nfSeen := (j.tiles.filter fun x => x.num.nfSeen).map JobTile.tile,
            vote := { round := if d.outcome == 2 then d.round + 1 else 0 },
            landed := if d.outcome == 2 then c.landed else [],
            retry := d.outcome == 2, abandoned := c.abandoned || d.outcome == 3 }) s
          if d.outcome == 2 then roundRepairs (fresh j s) s
          else if d.outcome == 3 then
            let s := writeCommitRecord j a s
            let s := onColl j (fun c => { c with applied := none }) s
            let s := raiseM (some part) 0x9003 (unitPart part) (BitVec.ofNat 64 d.missing) s j.w2
            stopRun (fresh j s) 0x000E s
          else s

/-! The release (R507). -/

/-- Segments that a step leaves to be repaired or proven (R507, R512, Table 13.9). A FAILED segment of early mode whose current slot is
intact waits for REDO. -/
def stepRepairs (j : Job) (s : State) : State :=
  let j := fresh j s
  let s := j.segs.foldl (fun s g =>
    if g.upd == 4 && (!earlyMode j.part s || slotPoisoned j.part g s) then addRepair j { seg := g.index, kind := 1 } s
    else if g.upd == 0 && (g.outcome == 3 || g.outcome == 4) && !j.coll.proven.contains (g.index, g.digest) then
      addRepair j { seg := g.index, kind := 2 } s
    else s) s
  pumpRepairs j s

/-- A segment holds nothing of a step that is still to be done (R507). -/
def Segment.settled (g : Segment) : Bool := !(g.upd == 1 || g.upd == 2 || g.upd == 4 || g.upd == 5) && !g.flipPending && !g.copyDirty

/-- Replica digests go to the next rank of each segment's group (R515). -/
def sendDigests (j : Job) (s : State) : State :=
  let n := (trainCfg j.part s).digestInterval
  if n == 0 || j.step.toNat % n != 0 then s
  else j.segs.foldl (fun s g =>
    let (_, p, me) := j.replicas g.index
    if p < 2 then s else sendAbout (fresh j s) g.index ((me + 1) % p) 8 noChunk (ofWords [aboutWord 2 g.index, g.digest]) s) s

/-- The next step curtain count is released once the outcome is applied and every repair proven (R507, R508). -/
def releaseStep (part num : Nat) (s : State) : State :=
  match jobOf part num s with
  | none => s
  | some j => match j.coll.applied with
    | none => s
    | some a =>
      if a.decision.outcome == 2 || !j.running then s
      else
        let s := stepRepairs j s
        let j := fresh j s
        if j.segs.all Segment.settled && j.coll.repairs.isEmpty then
          let s := writeCommitRecord j a s
          let s := onColl j (fun c => { c with applied := none }) s
          let next := a.decision.count + BitVec.ofNat 64 (j.gapUs * 1000)
          let s := onJob part num (fun j => { j with run := j.run.map fun r => { r with stepCurtains := r.stepCurtains ++ [next] } }) s
          if a.decision.outcome == 0 then sendDigests (fresh j s) s else s
        else s

/-! Messages. -/

/-- Two replicas differ (R515). -/
def digestMismatch (j : Job) (seg rank : Nat) (s : State) : State :=
  let (d, _, _) := j.replicas seg
  let other := j.rankSeat (cGroup (j.cdesc d)) rank
  let s := raiseM (some j.part) 0x9005 (unitSegment seg) (pack [(seatOf s, 32, 12), (other, 0, 12)]) s j.w2
  reportFm 5 [BitVec.ofNat 64 j.num, BitVec.ofNat 64 seg, j.step, BitVec.ofNat 64 other] s

/-- A DIGEST message (R512, R515): a request, an answer to one, a comparison, or word of a mismatch. -/
def digestMessage (j : Job) (m : CMsg) (s : State) : State :=
  let w := toWords m.data
  let kind := fld (w.getD 0 0) 63 60
  let seg := fld (w.getD 0 0) 31 0
  let rank := fld m.h1 63 52
  match j.seg seg with
  | none => s
  | some g =>
    if kind == 0 then serveAsks j (onColl j (fun c => { c with asks := c.asks ++ [{ kind := 2, seg, rank, cdesc := fld m.h0 55 40 }] }) s)
    else if kind == 2 then
      if g.digest == w.getD 1 0 then s
      else digestMismatch j seg rank (sendAbout j seg rank 8 noChunk (ofWords [aboutWord 3 seg, g.digest]) s)
    else if kind == 3 then digestMismatch j seg rank s
    else match j.coll.repairs.find? fun r => r.seg == seg && r.kind == 2 && r.asked with
      | none => s
      | some r =>
        let s := onColl j (fun c => { c with repairs := c.repairs.filter fun x => x.seg != seg }) s
        if w.getD 1 0 == g.digest then
          onColl j (fun c => { c with proven := (seg, g.digest) :: c.proven.filter (fun x => x.1 != seg),
                                      redone := if c.redone.contains seg then c.redone else seg :: c.redone }) s
        else if r.fails == 0 then
          onColl j (fun c => { c with repairs :=
            { seg, kind := 1, k := r.k + 1, fails := 1, first := j.replicaSeat seg r.k } :: c.repairs }) s
        else failRepair j r s

/-- A vote record arrives (R502, R503). One of a later round waits for it. -/
def voteMessage (j : Job) (m : CMsg) (s : State) : State :=
  let (p, me, a) := j.votePlace
  let rank := fld m.h1 63 52
  let v := j.coll.vote
  let late := collLate j 0 4 rank
  if fld m.h0 59 56 < v.round then late s
  else if fld m.h0 59 56 != v.round then onColl j (fun c => { c with early := c.early ++ [m] }) s
  else if me == 1 && rank == 0 then
    tryDecide j (onVote j (fun v => { v with combined := some (readVote (toWords m.data)) }) s)
  else if v.sent || !(voteKids p a me).contains rank || v.kids.any fun k => k.1 == rank then late s
  else tryCombine j (onVote j (fun v => { v with kids := v.kids ++ [(rank, readVote (toWords m.data))] }) s)

/-- A round of the job's step that runs now is decided: a decision waits for its count or has just been applied. A step that is run
again after a SKIP has its rounds undecided. -/
def Job.decidedNow (j : Job) (round : Nat) : Bool :=
  (match j.coll.decision with
    | some d => round ≤ d.round
    | none => false) ||
  match j.coll.applied with
    | some a => round ≤ a.decision.round
    | none => false

/-- A decision arrives (R503, R506): a proposal is acknowledged, a decision that is made is held, and applied at once when its count
has passed. One of a round already decided is late (R485); one that comes before the last is applied waits for that. -/
def decisionMessage (j : Job) (m : CMsg) (s : State) : State :=
  let (_, me, _) := j.votePlace
  let rank := fld m.h1 63 52
  let round := fld m.h0 59 56
  let d := readDecision j.step (toWords m.data)
  let copy := j.coll.decided.any fun e => e.step.toNat % 2 ^ 32 == fld m.h0 31 0 && e.round == round && e.count == d.count
  if copy || j.decidedNow round || round < j.coll.vote.round then collLate j 0 5 rank s
  else if j.coll.decision.isSome then onColl j (fun c => { c with early := c.early ++ [m] }) s
  else if d.count == 0 then
    if me == 0 && j.coll.vote.proposed.isSome then s
    else sendVote j rank 6 round [] (onVote j (fun v => { v with proposed := none }) s)
  else
    let s := holdDecision j d s
    if d.count ≤ now s then applyStep j.part j.num s else s

/-- The acknowledgement of a proposal makes the decision (R503). -/
def ackMessage (j : Job) (m : CMsg) (s : State) : State :=
  match j.coll.vote.proposed with
  | some d => if d.round == fld m.h0 59 56 && fld m.h1 63 52 == 1 - (j.votePlace).2.1 then makeDecision j d s else s
  | none => collLate j 0 6 (fld m.h1 63 52) s

/-- A rank asks for a decision (R504): one that is held is answered with; a round of the current step not yet decided here is answered
when it is. -/
def queryMessage (j : Job) (m : CMsg) (s : State) : State :=
  let rank := fld m.h1 63 52
  let round := fld m.h0 59 56
  let s := match j.held (fld m.h0 31 0) round with
    | some d => sendVote { j with step := d.step } rank 5 d.round d.words s
    | none => s
  if stepAge j m.h0 == 2 || (stepAge j m.h0 == 0 && (j.decidedNow round || round < j.coll.vote.round)) then s
  else onColl j (fun c => { c with queries := if c.queries.contains rank then c.queries else c.queries ++ [rank] }) s

/-- A collective message of the step, by CTYPE. A message for a descriptor that has not started waits. -/
def takeStepMessage (j : Job) (m : CMsg) (s : State) : State :=
  let ctype := fld m.h0 63 60
  let cd := fld m.h0 55 40
  let rank := fld m.h1 63 52
  if ctype == 4 then voteMessage j m s
  else if ctype == 5 then decisionMessage j m s
  else if ctype == 6 then ackMessage j m s
  else if ctype == 7 then queryMessage j m s
  else if ctype == 8 then
    if j.coll.applied.isSome && fld ((toWords m.data).getD 0 0) 63 60 == 2 then
      onColl j (fun c => { c with early := c.early ++ [m] }) s
    else digestMessage j m s
  else if ctype == 0xA then
    let w := toWords m.data
    serveAsks j (onColl j (fun c => { c with asks := c.asks ++
      [{ kind := fld (w.getD 0 0) 63 60, seg := fld (w.getD 0 0) 31 0, rank, cdesc := cd }] }) s)
  else match j.coll.runs.find? fun r => r.cdesc == cd && r.started with
    | some r => runMessage j r m s
    | none =>
      match if ctype == 3 then j.coll.repairs.find? fun r => r.asked && r.kind != 2 && j.reduceOf r.seg == some cd else none with
      | some r => repairData j r (fld m.h1 38 19) m.data s
      | none => onColl j (fun c => { c with early := c.early ++ [m] }) s

/-- Messages of this step that waited for it, but for those of descriptors, are taken now. -/
def takeEarly (j : Job) (s : State) : State :=
  let j := fresh j s
  let mine := fun (m : CMsg) => stepAge j m.h0 == 0 && inRange (fld m.h0 63 60) 4 8 && j.coll.applied.isNone
  let s := onColl j (fun c => { c with early := c.early.filter fun m => !mine m }) s
  (j.coll.early.filter mine).foldl (fun s m => takeStepMessage (fresh j s) m s) s

/-- Everything that a job's collectives and its step can do now. -/
def settleStep (j : Job) (s : State) : State :=
  let s := settleVotes j (settleColl j s)
  let s := settleColl j s
  let s := pumpRepairs j (serveAsks j (takeEarly j s))
  tryRetry j s

/-- A job that takes part in collectives: its normal run, or one that waits for repairs before its curtain count (R513, R514), or for a decision a loaded job that contributed (R506, R513). -/
def collJob (n ctype : Nat) (s : State) : Option Job :=
  match s.jobs.find? fun j => j.part == n && !j.csection.isEmpty && (j.running || j.coll.startWait) && (j.run.map Run.filler) == some false with
  | some j => some j
  | none => if ctype == 5 then s.jobs.find? fun j => j.part == n && !j.csection.isEmpty && j.coll.vote.contributed.isSome else none

/-- A collective message arrives on a link (R485): discarded and counted when it names no descriptor of the normal run or a closed
step. -/
def collMessage (ctype link : Nat) (h0 h1 : W64) (data : List Byte) (s : State) : State :=
  match partOfLink link s with
  | none => s
  | some n =>
    if fld h0 63 60 != ctype then s
    else match collJob n ctype s with
      | none => onPart n (fun p => { p with lateMessages := p.lateMessages + 1 }) s
      | some j =>
        let m : CMsg := ⟨h0, h1, data⟩
        let rank := fld h1 63 52
        let s := if j.cdescCount ≤ fld h0 55 40 then collLate j 0 ctype rank s
          else if ctype == 7 then queryMessage j m s
          else if stepAge j h0 == 2 then collLate j 0 ctype rank s
          else if stepAge j h0 == 1 then onColl j (fun c => { c with early := c.early ++ [m] }) s
          else takeStepMessage j m s
        settleStep j s

/-! Timers. -/

/-- VOTE_TIMEOUT_US has passed since the first record of a round (R502). -/
def voteTimeout (part num : Nat) (s : State) : State :=
  match jobOf part num s with
  | none => s
  | some j =>
    let v := j.coll.vote
    if v.sent || (v.own.isNone && v.kids.isEmpty) then s
    else settleStep j (tryCombine j (onVote j (fun v => { v with timedOut := true }) s))

/-- VOTE_TIMEOUT_US has passed without a decision (R504): rank 0 is asked, then rank 1. -/
def queryTimeout (part num : Nat) (s : State) : State :=
  match jobOf part num s with
  | none => s
  | some j =>
    let (p, me, _) := j.votePlace
    let v := j.coll.vote
    if v.contributed.isNone || j.coll.decision.isSome || 2 ≤ v.queried then s
    else
      let peer := v.queried
      let s := onVote j (fun v => { v with queried := peer + 1, since := if peer == 1 then some (now s) else v.since }) s
      if peer == me || p ≤ peer then s else sendVote j peer 7 v.round [] s

/-- Every send of a PERMUTE round has been accepted (R519): the next round starts, or all have been sent. -/
def permuteRoundEnd (part num cd : Nat) (s : State) : State :=
  match jobOf part num s with
  | none => s
  | some j => match j.coll.runs.find? fun r => r.cdesc == cd && r.started && cOp (j.cdesc cd) == 4 with
    | none => s
    | some r =>
      let n := moveRounds j.tempBytes (movesOf (j.cdesc cd) s.mem)
      let s := if r.round + 1 < n then permuteRound j r.id (r.round + 1) s
               else onRun j r.id (fun r => { r with round := n }) s
      settleStep j s

/-- A COLL instruction issues its request (R280, R478). -/
def coll (op t : Nat) (c : Ctx) (waits : List (Nat × Nat)) (s : State) : State :=
  whenRequested t c 4 op s fun j x w s =>
    let id := j.coll.nextId
    let r : CRun := { id, tile := t, cdesc := ifld w 103 88 }
    let s := onTile j t (fun y => (y.issued w c waits).enqueue .domino { entryOf x w 1 (wordClass j x w s) with id }) s
    let s := onColl j (fun q => { q with nextId := id + 1, runs := q.runs ++ [r] }) s
    settleStep j (holdRange (fresh j s) r s)

/-- The acknowledgement of an atomic may be the last of a Domino engine's fence (R488). -/
def settleParts (link : Nat) (s : State) : State := match partOfLink link s with
  | some n => (s.jobs.filter fun j => j.part == n && !j.coll.runs.isEmpty).foldl (fun s j => settleStep j s) s
  | none => s

/-- The counter may have become LOCKED (R503): rank 0 or the deputy decides. -/
def decideAll (s : State) : State :=
  (s.jobs.filter fun j => j.coll.vote.combined.isSome).foldl (fun s j => settleStep j (tryDecide j s)) s

/-- REDUCE_DX32. -/
def execReduceDx32 (tile : Nat) (ctx : Ctx) (waits : List (Nat × Nat)) (s : State) : Host.Outcome State Fault Refusal :=
  .next (coll 0 tile ctx waits s)
/-- REDUCE_FP32. -/
def execReduceFp32 (tile : Nat) (ctx : Ctx) (waits : List (Nat × Nat)) (s : State) : Host.Outcome State Fault Refusal :=
  .next (coll 1 tile ctx waits s)
/-- BROADCAST. -/
def execBroadcast (tile : Nat) (ctx : Ctx) (waits : List (Nat × Nat)) (s : State) : Host.Outcome State Fault Refusal :=
  .next (coll 2 tile ctx waits s)
/-- ALLGATHER. -/
def execAllgather (tile : Nat) (ctx : Ctx) (waits : List (Nat × Nat)) (s : State) : Host.Outcome State Fault Refusal :=
  .next (coll 3 tile ctx waits s)
/-- PERMUTE. -/
def execPermute (tile : Nat) (ctx : Ctx) (waits : List (Nat × Nat)) (s : State) : Host.Outcome State Fault Refusal :=
  .next (coll 4 tile ctx waits s)
/-- NORM. -/
def execNorm (tile : Nat) (ctx : Ctx) (waits : List (Nat × Nat)) (s : State) : Host.Outcome State Fault Refusal :=
  .next (coll 5 tile ctx waits s)
/-- COUNTS. -/
def execCounts (tile : Nat) (ctx : Ctx) (waits : List (Nat × Nat)) (s : State) : Host.Outcome State Fault Refusal :=
  .next (coll 6 tile ctx waits s)
/-- VOTE. -/
def execVote (tile : Nat) (ctx : Ctx) (waits : List (Nat × Nat)) (s : State) : Host.Outcome State Fault Refusal :=
  .next (coll 7 tile ctx waits s)
/-- COLL_EXPONENT. -/
def execCollExponent (link : Nat) (h0 h1 : W64) (data : List Byte) (s : State) : Host.Outcome State Fault Refusal :=
  .next (collMessage 0 link h0 h1 data s)
/-- COLL_VALUE. -/
def execCollValue (link : Nat) (h0 h1 : W64) (data : List Byte) (s : State) : Host.Outcome State Fault Refusal :=
  .next (collMessage 1 link h0 h1 data s)
/-- COLL_PARTIAL. -/
def execCollPartial (link : Nat) (h0 h1 : W64) (data : List Byte) (s : State) : Host.Outcome State Fault Refusal :=
  .next (collMessage 2 link h0 h1 data s)
/-- COLL_VOTE. -/
def execCollVote (link : Nat) (h0 h1 : W64) (data : List Byte) (s : State) : Host.Outcome State Fault Refusal :=
  .next (collMessage 4 link h0 h1 data s)
/-- COLL_DECISION. -/
def execCollDecision (link : Nat) (h0 h1 : W64) (data : List Byte) (s : State) : Host.Outcome State Fault Refusal :=
  .next (collMessage 5 link h0 h1 data s)
/-- COLL_DECISION_ACK. -/
def execCollDecisionAck (link : Nat) (h0 h1 : W64) (s : State) : Host.Outcome State Fault Refusal :=
  .next (collMessage 6 link h0 h1 [] s)
/-- COLL_QUERY. -/
def execCollQuery (link : Nat) (h0 h1 : W64) (s : State) : Host.Outcome State Fault Refusal :=
  .next (collMessage 7 link h0 h1 [] s)
/-- COLL_DONE. -/
def execCollDone (link : Nat) (h0 h1 : W64) (s : State) : Host.Outcome State Fault Refusal :=
  .next (collMessage 9 link h0 h1 [] s)
/-- COLL_REQUEST. -/
def execCollRequest (link : Nat) (h0 h1 : W64) (data : List Byte) (s : State) : Host.Outcome State Fault Refusal :=
  .next (collMessage 0xA link h0 h1 data s)
/-- VOTE_TIMEOUT. -/
def execVoteTimeout (partition job : Nat) (s : State) : Host.Outcome State Fault Refusal := .next (voteTimeout partition job s)
/-- DECISION_QUERY_TIMEOUT. -/
def execDecisionQueryTimeout (partition job : Nat) (s : State) : Host.Outcome State Fault Refusal :=
  .next (queryTimeout partition job s)
/-- PERMUTE_ROUND_END. -/
def execPermuteRoundEnd (partition job cdesc : Nat) (s : State) : Host.Outcome State Fault Refusal :=
  .next (permuteRoundEnd partition job cdesc s)
/-- COMMIT_COUNT_REACHED. -/
def execCommitCountReached (partition job : Nat) (s : State) : Host.Outcome State Fault Refusal :=
  let s' := applyStep partition job s
  .next (match jobOf partition job s' with
    | some j => settleStep j s'
    | none => s')
/-- STEP_CURTAIN_RELEASE. -/
def execStepCurtainRelease (partition job : Nat) (s : State) : Host.Outcome State Fault Refusal :=
  let s' := releaseStep partition job s
  .next (match jobOf partition job s' with
    | some j => settleStep j s'
    | none => s')
/-- Decisions whose count passed while the stacks were in self-refresh are applied as they leave it (R506). -/
def applyDue (before s : State) : State :=
  if !before.wake.selfRefresh || s.wake.selfRefresh then s
  else s.jobs.foldl (fun s j => match j.outcome with
    | some o => if o.count ≤ now s then settleStep j (applyStep j.part j.num s) else s
    | none => s) s

/-- REFERENCE_SWITCH_END. -/
def execReferenceSwitchEnd (s : State) : Host.Outcome State Fault Refusal := .next (applyDue s (switchEnd s))
/-- ATOMIC_ACK (R439, R441). -/
def execAtomicAck (link : Nat) (h0 h1 : W64) (s : State) : Host.Outcome State Fault Refusal :=
  .next (settleParts link (responseArrives link 0x82 ⟨h0, h1, []⟩ (answerArrives (some link) ⟨h0, h1, []⟩) s))

end Sys2Proof.Machine
end

