-- ==== Sys2Proof/Machine/LoadCheck.lean ====
section
/-! DEFINITION. Machine/LoadCheck.lean: the job package (08 R262 to R271, 11 R383 to R395, 13 R480 to R483) and the five stages
of checks of LOAD_JOB (R305, Table 8.22). -/
namespace Sys2Proof.Machine

/-- A failed check (R305): stage, section TYPE, the index of the entry or instruction, and the tile it concerns, if any. -/
structure Reject where
  stage : Nat
  typ : Nat
  index : Nat
  tile : Option Nat := none
deriving DecidableEq, Repr

/-- The completion status of a failed check (Table 8.22): NO_SPACE at stage 5, else INVALID_FIELD. -/
def Reject.status (r : Reject) : Nat := if r.stage == 5 then 0x0006 else 0x0002

/-- A check: none when it holds. -/
def need (ok : Bool) (r : Reject) : Option Reject := if ok then none else some r

/-- The first check that fails. -/
def firstReject (l : List (Option Reject)) : Option Reject := l.findSome? id

/-- The first of a numbered list of items that breaks a check: its number. -/
def badAt {α : Type} (ok : Nat → α → Bool) (l : List α) : Option Nat := l.zipIdx.findSome? fun p => if ok p.2 p.1 then none else some p.2

/-- An entry of the section table (R263), with its words. -/
structure Sec where
  typ : Nat
  len : Nat
  off : Nat
  rsvd : Nat
deriving DecidableEq, Repr

/-- Cut words into entries of `n` words, `k` of them. -/
def entriesOf (n : Nat) : Nat → List W64 → List (List W64)
  | 0, _ => []
  | k + 1, ws => ws.take n :: entriesOf n k (ws.drop n)

/-- The section table: SECTION_COUNT entries from byte 128 on (R263). -/
def secTable (p : List W64) : List Sec :=
  (entriesOf 2 (fld (p.getD 0 0) 7 0) (p.drop 16)).map fun e =>
    { typ := fld (e.getD 0 0) 7 0, len := fld (e.getD 0 0) 63 32, off := (e.getD 1 0).toNat, rsvd := fld (e.getD 0 0) 31 8 }

/-- The words of the section of a TYPE; none when the package has none. -/
def sectionWords (p : List W64) (typ : Nat) : List W64 := match (secTable p).find? fun s => s.typ == typ with
  | some s => (p.drop (s.off / 8)).take (s.len / 8)
  | none => []

/-- The package has a section of a TYPE. -/
def hasSection (p : List W64) (typ : Nat) : Bool := (secTable p).any fun s => s.typ == typ

/-- Entry size in bytes of a section (Table 8.2); none for a TYPE it does not list. -/
def entrySize : Nat → Option Nat
  | 0x01 => some 32
  | 0x02 => some 16
  | 0x03 => some 32
  | 0x04 => some 64
  | 0x05 => some 32
  | 0x06 => some 128
  | 0x07 => some 16
  | 0x08 => some 64
  | 0x09 => some 64
  | _ => none

/-- Most entries of a section (Table 8.2). -/
def entryLimit : Nat → Nat
  | 0x01 => 1024
  | 0x02 => 67108864
  | 0x03 => 16777216
  | 0x04 => 16777216
  | 0x05 => 16384
  | 0x06 => 64
  | 0x07 => 4096
  | _ => 2 ^ 32

/-- The entries of a section, cut by Table 8.2. -/
def sectionEntries (p : List W64) (typ : Nat) : List (List W64) :=
  let n := (entrySize typ).getD 64 / 8
  let ws := sectionWords p typ
  entriesOf n (ws.length / n) ws

/-! The job that a package describes. -/

/-- An instruction word from its two words. -/
def word128 (e : List W64) : W128 := (e.getD 1 0) ++ (e.getD 0 0)

/-- A tile of the package (Table 8.3). -/
def tileOf (lists : List (List W64)) (descs epis : List (List W64)) (t : Nat) (e : List W64) : JobTile :=
  let t0 := e.getD 0 0
  let t1 := e.getD 1 0
  { tile := t,
    list := ((lists.drop (fld t0 63 32)).take (fld t0 31 0)).map word128,
    descs := ((descs.drop (fld t1 63 40)).take (fld t1 39 31)).map Desc.ofWords,
    epis := ((epis.drop (fld t1 23 0)).take (fld t1 30 24)).map Epi.ofWords,
    depths := (List.range 15).map fun s => fld (e.getD 2 0) (4 * s + 3) (4 * s),
    shared := bit (e.getD 3 0).toNat 0 }

/-- A tile channel (Table 8.6). -/
def channelOfWords (c : List W64) : Channel :=
  let c0 := c.getD 0 0
  { srcTile := fld c0 63 54, srcIndex := fld c0 53 50, dstTile := fld c0 49 40, dstIndex := fld c0 39 36,
    dstSeat := fld c0 35 24, depth := fld c0 23 20, entryBytes := fld (c.getD 1 0) 63 32, buffer := fld (c.getD 2 0) 47 0 }

/-- A barrier's member mask (R269). -/
def maskOf (b : List W64) : Nat := leNat (ofWords b)

/-- The tile table's entries with a non-empty list, with their tile numbers. -/
def listTiles (p : List W64) : List (List W64 × Nat) := (sectionEntries p 0x01).zipIdx.filter fun e => fld (e.1.getD 0 0) 31 0 != 0

/-- The job that a package describes (R262 to R269). -/
def packageJob (part num port qp slot : Nat) (p : List W64) : Job :=
  let lists := sectionEntries p 0x02
  let descs := sectionEntries p 0x03
  let epis := sectionEntries p 0x04
  { part, num, port, qp, slot, stats := fld (p.getD 2 0) 47 0, stateBytes := (p.getD 3 0).toNat, buildId := p.getD 4 0,
    stuckMs := fld (p.getD 5 0) 15 0, step := p.getD 1 0, seeds := (p.drop 8).take 8,
    tiles := (listTiles p).map fun e => tileOf lists descs epis e.2 e.1,
    channels := (sectionEntries p 0x05).map channelOfWords,
    barriers := (sectionEntries p 0x06).map maskOf,
    buffers := (sectionEntries p 0x07).map fun b => ⟨fld (b.getD 0 0) 47 0, fld (b.getD 1 0) 31 0⟩,
    jsection := sectionWords p 0x08, csection := sectionWords p 0x09 }

/-! Stage 1: frame. -/

/-- LENGTH of a section is as its TYPE lays it down (R264, R383, R480). -/
def lengthOk (p : List W64) (s : Sec) : Bool := match entrySize s.typ with
  | none => false
  | some z =>
    let n := s.len / z
    let j := packageJob 0 0 0 0 0 []
    s.len % z == 0 && n ≤ entryLimit s.typ && (s.typ != 0x01 || n == 1024) &&
      (s.typ != 0x08 ||
        (let j := { j with jsection := sectionWords p 0x08 }
         n == 1 + 17 * j.mapCount + j.queueCount + 2 * j.jdescCount)) &&
      (s.typ != 0x09 ||
        (let j := { j with csection := sectionWords p 0x09 }
         n == j.groupAt j.groupCount + j.cdescCount))

/-- Two sections share no byte. -/
def apart (a b : Sec) : Bool := a.off + a.len ≤ b.off || b.off + b.len ≤ a.off

/-- Stage 1: header frame, section table, and LENGTH of the command equal to the end of the last section. -/
def stage1 (len : Nat) (p : List W64) : Option Reject :=
  let ss := secTable p
  let n := fld (p.getD 0 0) 7 0
  firstReject
    [need (128 ≤ len && fld (p.getD 0 0) 63 32 == 0x504A4D57 && fld (p.getD 0 0) 31 16 == 1 && inRange n 3 9) ⟨1, 0, 0, none⟩,
     ss.zipIdx.findSome? fun q =>
       let s := q.1
       let before := ss.take q.2
       need (before.all (fun b => b.typ != s.typ && apart b s) && s.off % 64 == 0 && 128 + 16 * n ≤ s.off && s.off + s.len ≤ len &&
         lengthOk p s) ⟨1, s.typ, q.2, none⟩,
     [0x01, 0x02, 0x03].findSome? fun t => need (hasSection p t) ⟨1, t, 0, none⟩,
     need (ss.foldl (fun m s => max m (s.off + s.len)) 0 == len) ⟨1, 0, 0, none⟩]

/-! Stage 2: tiles. -/

/-- Body of the LOOP at index `i`: its first and last index. -/
def loopBody (w : W128) (i : Nat) : Nat × Nat := (i + 1, i + ifld w 71 56)

/-- The loops of a list, as (index, first, last). -/
def loopsOf (l : List W128) : List (Nat × Nat × Nat) :=
  l.zipIdx.filterMap fun p => if iclass p.1 == 6 && iop p.1 == 1 then some (p.2, loopBody p.1 p.2) else none

/-- The nesting and target rules (R283, R305 stage 2) at index `i` of a list. -/
def flowOk (l : List W128) (loops : List (Nat × Nat × Nat)) (i : Nat) (w : W128) : Bool :=
  let inBody := fun k => loops.any fun b => b.2.1 ≤ k && k ≤ b.2.2
  if iclass w != 6 then true
  else if iop w == 1 then
    let last := (loopBody w i).2
    let outer := loops.filter fun b => b.2.1 ≤ i && i ≤ b.2.2
    last < l.length && outer.length < 4 && outer.all fun b => last ≤ b.2.2
  else if iop w == 2 || iop w == 3 then
    ifld w 103 72 < l.length && !inBody i && !inBody (ifld w 103 72)
  else true

/-- Stage 2 for one tile with a list. -/
def tileFail (held : Nat → Bool) (nlist ndesc nepi : Nat) (e : List W64) (x : JobTile) : Option Reject :=
  let t0 := e.getD 0 0
  let t1 := e.getD 1 0
  let first := fld t0 63 32
  let ok := held (clusterOf x.tile) && first + fld t0 31 0 ≤ nlist && fld t1 39 31 ≤ 256 && fld t1 63 40 + fld t1 39 31 ≤ ndesc &&
    fld t1 30 24 ≤ 64 && fld t1 23 0 + fld t1 30 24 ≤ nepi
  let last := x.list.getLastD 0
  firstReject
    [need ok ⟨2, 0x01, x.tile, some x.tile⟩,
     need (iclass last == 6 && (iop last == 7 || iop last == 2)) ⟨2, 0x02, first + x.list.length - 1, some x.tile⟩,
     (badAt (flowOk x.list (loopsOf x.list)) x.list).map fun i => ⟨2, 0x02, first + i, some x.tile⟩]

/-- Stage 2. -/
def stage2 (held : Nat → Bool) (p : List W64) (j : Job) : Option Reject :=
  let n := fun t => (sectionWords p t).length / ((entrySize t).getD 64 / 8)
  ((listTiles p).zip j.tiles).findSome? fun q => tileFail held (n 2) (n 3) (n 4) q.1.1 q.2

/-! Stage 3: encodings. -/

/-- Every bit of a mask is clear in the words of an entry: `ms` is a mask for each word. -/
def clear (ms : List Nat) (e : List W64) : Bool := (ms.zip e).all fun p => p.1 &&& p.2.toNat == 0

/-- The bits hi to lo, as a mask. -/
def maskBits (hi lo : Nat) : Nat := 2 ^ (hi + 1) - 2 ^ lo

/-- All 64 bits. -/
def maskAll : Nat := maskBits 63 0

/-- RSVD bits of the body of an instruction (Tables 8.9 to 8.14), with bits 106:104; none for a reserved CLASS or OP. -/
def rsvdMask (cls op : Nat) : Option Nat :=
  let body : Option Nat := match cls, op with
    | 0x0, 0 => some 0
    | 0x0, 1 => some (maskBits 51 33)
    | 0x0, 2 => some (maskBits 41 32)
    | 0x0, 3 => some (maskBits 84 0)
    | 0x0, 4 => some (maskBits 103 88 + maskBits 85 84 + maskBits 51 0)
    | 0x0, 5 => some (maskBits 35 0)
    | 0x1, 0 => some (maskBits 4 0)
    | 0x2, k => if k < 5 then some (maskBits 11 0) else none
    | 0x3, k => if k < 4 then some (maskBits 33 0) else none
    | 0x4, k => if k < 8 then some (maskBits 77 0) else none
    | 0x5, 0 => some (maskBits 101 48)
    | 0x5, 1 => some (maskBits 97 0)
    | 0x5, 2 => some (maskBits 51 0)
    | 0x5, 3 => some (maskBits 87 0)
    | 0x5, 4 => some (maskBits 103 0)
    | 0x5, 5 => some (maskBits 103 0)
    | 0x6, 0 => some (maskBits 103 0)
    | 0x6, 1 => some (maskBits 55 0)
    | 0x6, 2 => some (maskBits 71 0)
    | 0x6, 3 => some (maskBits 13 0)
    | 0x6, 4 => some (maskBits 68 0)
    | 0x6, 5 => some (maskBits 68 0)
    | 0x6, 6 => some (maskBits 75 0)
    | 0x6, 7 => some (maskBits 103 0)
    | _, _ => none
  body.map (· + maskBits 106 104)

/-- The instruction has an indexed field (Table 8.8). -/
def hasIndexed (cls op : Nat) : Bool :=
  (cls == 0 && op != 3 && op != 4) || inRange cls 1 3 || (cls == 5 && op == 2) || (cls == 6 && op == 6)

/-- Instructions that always vary (Table 8.17). -/
def alwaysVaries (w : W128) : Bool :=
  (iclass w == 0 && iop w == 5 && (ifld w 87 80 != 0xFF || (ifld w 79 76 == 0 && ifld w 75 72 == 2))) || (iclass w == 6 && iop w == 6)

/-- FUNC codes of a VEC operation (Table 8.12). -/
def funcOk (op f : Nat) : Bool := match op with
  | 0 => f ≤ 6 || inRange f 0x10 0x19
  | 1 => f ≤ 1
  | 4 => inRange f 1 8
  | _ => f == 0

/-- The operands of a TOPK (Table 11.1). -/
def topkOk (x : JobTile) (w : W128) : Bool :=
  let d := fun i => x.descs.getD i (Desc.ofWords [])
  let k := ifld w 79 72
  let cols := ifld w 35 20
  let a := d (ifld w 103 96)
  let b := d (ifld w 95 88)
  let dst := d (ifld w 87 80)
  a.format == 0 && inRange cols k 512 && cols ≤ a.cols && dst.format == 0xB && dst.cols == 2 * k && ifld w 19 12 == 0xFF &&
    (ifld w 95 88 == 0xFF || (b.format == 0 && b.rows == 1 && b.cols == cols) || (b.format == 0xB && b.cols == 1))

/-- The descriptors of a tile that an instruction names, each with whether 0xFF stands for none. -/
def descRefs (w : W128) : List (Nat × Bool) :=
  let f := ifld w
  match iclass w, iop w with
  | 0x0, 0 => [(f 103 96, false), (f 95 88, false)]
  | 0x0, 1 => [(f 103 96, false), (f 95 88, false)]
  | 0x0, 2 => [(f 103 96, false), (f 95 88, false), (f 87 80, true)]
  | 0x0, 5 => [(f 103 96, false), (f 95 88, false), (f 87 80, true)]
  | 0x1, 0 => (if f 9 8 == 0 then [(f 103 96, false)] else []) ++ (if f 9 8 == 2 then [] else [(f 95 88, false)])
  | 0x2, 0 => [(f 103 96, false), (f 95 88, true), (f 87 80, false)]
  | 0x2, 3 => [(f 87 80, false)]
  | 0x2, 4 => [(f 103 96, false), (f 95 88, true), (f 87 80, false)]
  | 0x2, _ => [(f 103 96, false), (f 87 80, false)]
  | 0x5, 2 => [(f 95 88, false)]
  | 0x5, 3 => [(f 95 88, false)]
  | 0x6, 3 => [(f 71 64, false)]
  | 0x6, 6 => [(f 103 96, false)]
  | _, _ => []

/-- The epilogue entry that an instruction names, if any. -/
def epiRef (w : W128) : Option Nat :=
  let e := if iclass w == 1 then ifld w 87 80 else if iclass w == 2 then ifld w 19 12 else 0xFF
  if e == 0xFF then none else some e

/-- The checks of a MAC: BATCH, formats (R230), K (R205), shared-weight mode (R195, R241). -/
def macOk (x : JobTile) (w : W128) : Bool :=
  let f := macFields w
  let a := x.descs.getD f.descA (Desc.ofWords [])
  let b := x.descs.getD f.descB (Desc.ofWords [])
  let grp := if f.batch == 2 then some 0 else fmtGroup b.format
  let pair := f.batch != 0 || fmtGroup a.format == grp
  let kOk := match grp with
    | some g => f.batch == 2 || (f.k != 0 && f.k % kGranule g b.sparse == 0)
    | none => false
  let mx := match x.epi f.epi with
    | some e => e.has 7 && isMx e.conv
    | none => false
  f.batch < 3 && pair && kOk && (!f.shared || (x.tile % 16 < 2 && x.shared && f.stream == 0 && !mx))

/-- What feeds stream `k` of a tile, as (place in the list, formats of the rows it brings): a GATHER its SRC and SRC2, a FEED the FORMAT of its
Jacks descriptor (R276, R395). -/
def streamFeeds (j : Job) (x : JobTile) (k : Nat) : List (Nat × List Nat) :=
  x.list.zipIdx.filterMap fun p =>
    let w := p.1
    let fmt := fun i => (x.descs.getD i (Desc.ofWords [])).format
    if iclass w == 0 && iop w == 2 && ifld w 43 42 == k then
      some (p.2, fmt (ifld w 103 96) :: if ifld w 87 80 == 0xFF then [] else [fmt (ifld w 87 80)])
    else if iclass w == 3 && ifld w 103 102 == 2 && dStream (j.jdesc (ifld w 101 88)) == k then some (p.2, [dFormat (j.jdesc (ifld w 101 88))])
    else none

/-- How many BATCH_OPENs of stream `k` stand before a place of the list. -/
def opensBefore (x : JobTile) (k i : Nat) : Nat :=
  ((x.list.take i).filter fun w => iclass w == 0 && iop w == 3 && ifld w 87 86 == k).length

/-- The operands of a MAC that come through a stream (R230). DEDUCED (log 212): a MAC takes the rows of the GATHERs and FEEDs that stand
between the same two BATCH_OPENs of its stream in the list; each format lies in one group with DESC_B's, and in a key batch with the other
operand's. -/
def pairsOk (j : Job) (x : JobTile) (i : Nat) (w : W128) : Bool :=
  let f := macFields w
  iclass w != 1 || f.batch == 0 || f.streams.all fun k =>
    ((streamFeeds j x k).filter fun q => opensBefore x k q.1 == opensBefore x k i).all fun q =>
      let gs := (q.2 ++ if f.batch == 1 then [(x.descs.getD f.descB (Desc.ofWords [])).format] else []).map fmtGroup
      gs.all fun g => g.isSome && g == gs.headD none

/-- KIND, SIDE and OP go together (Table 11.7). -/
def routeAllowed (op side kind : Nat) : Bool := match op, side with
  | 0, 0 => kind == 0 || kind == 2
  | 1, 0 => kind == 1
  | 1, 1 => kind == 0
  | 2, 0 => kind == 0
  | 3, 0 => kind == 1
  | 3, 1 => kind == 0
  | 0, _ => kind == 1
  | 2, _ => kind == 1
  | _, _ => false

/-- The checks of a ROUTE instruction (R390, R392, R394). -/
def routeOk (j : Job) (w : W128) : Bool :=
  let i := ifld w 101 88
  let d := j.jdesc i
  let rows := ifld w 49 34
  i < j.jdescCount && dLayer d == ifld w 87 78 && routeAllowed (iop w) (ifld w 103 102) (dKind d) &&
    (dKind d != 0 || ifld w 69 50 + rows ≤ dTokens d) && (rows != 0 || (ifld w 103 102 == 2 && dKeys d))

/-- The checks of a COLL instruction (R482). -/
def collOk (j : Job) (w : W128) : Bool :=
  let i := ifld w 103 88
  i < j.cdescCount && cOp (j.cdesc i) == iop w && cLayer (j.cdesc i) == ifld w 87 78

/-- The plain ranges of an instruction's fields. -/
def rangesOk (x : JobTile) (w : W128) : Bool :=
  let f := ifld w
  let fmt := fun i => (x.descs.getD i (Desc.ofWords [])).format
  match iclass w, iop w with
  | 0x0, 0 => f 47 32 != 0 && fmt (f 103 96) == fmt (f 95 88)
  | 0x0, 2 => fmt (f 95 88) == 0xB
  | 0x0, 3 => 16 ≤ f 103 88
  | 0x0, 5 => f 79 76 ≤ 4 && f 75 72 ≤ 3
  | 0x1, _ => macOk x w
  | 0x2, k => funcOk k (f 79 72) && f 51 36 != 0 && f 35 20 != 0 && (k != 4 || topkOk x w)
  | 0x5, 0 => f 103 102 ≤ 1
  | 0x6, 1 => f 103 72 != 0 && f 71 56 != 0
  | _, _ => true

/-- Stage 3 for one instruction of a tile. -/
def instrOk (j : Job) (x : JobTile) (w : W128) : Bool :=
  match rsvdMask (iclass w) (iop w) with
  | none => false
  | some m =>
    let str := fun s => s == 15 || x.depths.getD s 0 != 0
    m &&& w.toNat == 0 && str (waitStr w) && str (postStr w) && (!bit w.toNat 110 || hasIndexed (iclass w) (iop w)) &&
      (mayVary w || !alwaysVaries w) &&
      (descRefs w).all (fun r => r.1 < x.descs.length || (r.2 && r.1 == 0xFF)) &&
      (match epiRef w with
        | some e => e < x.epis.length
        | none => true) &&
      rangesOk x w && (iclass w != 3 || routeOk j w) && (iclass w != 4 || collOk j w)

/-- RSVD bits and codes of a descriptor (Table 8.4, R229, R267). -/
def descOk (e : List W64) : Bool :=
  let d := Desc.ofWords e
  clear [maskBits 54 48, 0, 0, maskBits 25 0] e && d.format < 0xD && d.space < 2 && d.rows != 0 && d.cols != 0 &&
    (d.space == 0 || (!d.sparse && !d.transposable))

/-- RSVD bits and codes of an epilogue entry (Table 8.5, R231). -/
def epiOk (e : List W64) : Bool :=
  let x := Epi.ofWords e
  clear [maskBits 4 0, maskBits 39 32, maskBits 47 32, 0, maskAll, maskAll, maskAll, maskAll] e && x.act ≤ 4 && x.round < 3 &&
    x.conv < 0xD

/-- The descriptors that an epilogue entry's stages use lie within the tile's count. -/
def epiRefsOk (n : Nat) (e : Epi) : Bool :=
  (!e.has 8 || e.out < n) && (!e.has 1 || e.scalar? || e.scale < n) && (!e.has 2 || e.bias < n) && (!e.has 3 || e.resid < n)

/-- RSVD bits and ranges of a channel entry (Table 8.6). -/
def channelOk (e : List W64) : Bool :=
  let b := fld (e.getD 1 0) 63 32
  clear [maskBits 19 0, maskBits 31 0, maskBits 63 48, maskAll] e && b != 0 && b % 64 == 0 && b ≤ 16777216

/-- A shared-buffer entry (R269). -/
def sharedOk (e : List W64) : Bool :=
  clear [maskBits 63 48, maskBits 63 32] e && fld (e.getD 0 0) 47 0 % 64 == 0 && fld (e.getD 1 0) 31 0 % 64 == 0

/-- The header's RSVD bits and ranges (Table 8.1). -/
def headerOk (p : List W64) : Bool :=
  let stuck := fld (p.getD 5 0) 15 0
  clear [maskBits 15 8, 0, maskBits 63 48, 0, 0, maskBits 63 16, maskAll, maskAll] p && fld (p.getD 2 0) 47 0 % 256 == 0 &&
    (stuck == 0 || inRange stuck 10 10000)

/-- A tile table entry's RSVD bits, and SHARED_WEIGHT only in slots 0 and 1 (R195, R265). -/
def tileEntryOk (t : Nat) (e : List W64) : Bool :=
  clear [0, 0, maskBits 63 60, maskBits 63 1] e && (!bit (e.getD 3 0).toNat 0 || t % 16 < 2)

/-! Section 0x08. -/

/-- A map (R384, R385). `own` is the module's member. -/
def mapOk (own : Nat) (j : Job) (i : Nat) : Bool :=
  let m := j.rmap i
  let es := List.range (mExperts m)
  let place := fun e => j.placement i e
  clear [maskBits 23 0, 0, 0, maskBits 31 0, maskAll, maskAll, maskAll, maskAll] m && inRange (mExperts m) 1 512 &&
    inRange (mAdviceSteps m) 1 65536 &&
    (if mLocal m then mQueue0 m + mExperts m ≤ j.queueCount
     else
       let ps := es.map fun e => bits (place e) 15 5
       (mGroup m).contains own && es.all (fun e => (mGroup m).contains (bits (place e) 15 10) && bits (place e) 4 0 == 0) &&
         distinct ps &&
         es.all fun e => bits (place e) 15 10 != own ||
           ((List.range j.queueCount).filter fun q =>
             qLayer (j.rqueue q) == mLayer m && qLocal (j.rqueue q) == bits (place e) 9 5).length == 1)

/-- A queue entry (R386, R387). -/
def queueOk (n : Nat) (s : State) (j : Job) (i : Nat) : Bool :=
  let q := j.rqueue i
  let hi := maskBits 63 48
  clear [0, 0, hi, hi, hi, hi, hi, maskAll] q && inRange (qFrames q) 1 15 && inRange (qReleasers q) 1 1024 &&
    (qCap q == 0 || (inRange (qCap q) 16 32752 && qCap q % 16 == 0)) && qOcc q % 64 == 0 && qRecord q % 64 == 0 &&
    (match (j.mapOf (qLayer q)).map fun m => mLocal (j.rmap m) with
      | some true => qLocal q < 512
      | _ => qLocal q < 32) &&
    (poolsOf n s).any fun c => c.pool == qPool q && c.purpose == 1

/-- Words of a Jacks descriptor from the 3rd on that hold an address: KIND 0 d2 to d8, KIND 1 none, KIND 2 d2 to d5 and d8. -/
def jdescWordOk (kind i : Nat) (w : W64) : Bool :=
  let addr := match kind with
    | 0 => inRange i 2 8
    | 2 => inRange i 2 5 || i == 8
    | _ => false
  if addr then fld w 63 48 == 0 else w == 0

/-- A Jacks descriptor (R391, R395, R402, R419). -/
def jdescOk (j : Job) (i : Nat) : Bool :=
  let d := j.jdesc i
  let k := dKind d
  let words := (d.drop 2).zipIdx.all fun p => jdescWordOk k (p.2 + 2) p.1
  let rowOk := dRowBytes d % 64 == 0 && inRange (dRowBytes d) 64 65536
  words && match k with
  | 0 =>
    clear [maskBits 29 28 + maskBits 26 26 + maskBits 25 0] d && inRange (dK d) 1 8 && dFormat d < 3 && dMap d < j.mapCount &&
      mLayer (j.rmap (dMap d)) == dLayer d && inRange (dSlots d) 1 15 && rowOk && inRange (dTokens d) 1 524288 &&
      dTokens d * dK d ≤ 2097152 &&
      (List.range j.jdescCount).all fun o => o == i || dKind (j.jdesc o) != 0 || dLayer (j.jdesc o) != dLayer d
  | 1 =>
    clear [maskBits 25 0, maskBits 19 0] d && dFormat d < 3 && dMap d < j.mapCount && mLayer (j.rmap (dMap d)) == dLayer d && rowOk &&
      dQueue d < j.queueCount && qLayer (j.rqueue (dQueue d)) == dLayer d &&
      (!dKeys d || qXsave (j.rqueue (dQueue d)) != 0)
  | 2 =>
    clear [maskBits 59 54 + maskBits 43 32] d && dMode d < 3 && (dMode d == 2 || dRowBytes d % 64 == 0)
  | _ => false

/-- The routing section at stage 3; an index counts the section's 64 B entries. -/
def routingFail (n : Nat) (s : State) (j : Job) : Option Reject :=
  if j.jsection.isEmpty then none
  else
    let at' := fun i => (⟨3, 0x08, i, none⟩ : Reject)
    let maps := List.range j.mapCount
    firstReject
      [need (fld (j.jsection.getD 0 0) 27 0 == 0 && ((j.jsection.drop 1).take 7).all (· == 0)) (at' 0),
       maps.findSome? fun i => need (mapOk (seatOf s % 64) j i) (at' (1 + 17 * i)),
       (List.range j.queueCount).findSome? fun i => need (queueOk n s j i) (at' (1 + 17 * j.mapCount + i)),
       (List.range j.jdescCount).findSome? fun i => need (jdescOk j i) (at' (1 + 17 * j.mapCount + j.queueCount + 2 * i))]

/-! Section 0x09. -/

/-- The header of the collective section (R480, R516). -/
def collHeaderOk (n : Nat) (s : State) (j : Job) : Bool :=
  let tr := trainCfg n s
  let hi := maskBits 63 48
  clear [maskBits 23 0, hi, hi, 0, hi, 0, maskAll, maskAll] j.csection && inRange j.groupCount 1 64 && j.cdescCount != 0 &&
    inRange j.vstages 1 8 && j.voteGroup < j.groupCount && inRange j.leadUs 100 1000000 && j.gapUs ≤ 1000000 &&
    j.commitRecords % 64 == 0 && j.optTable % 64 == 0 && j.tempBase % 4096 == 0 && j.tempBytes % 4096 == 0 &&
    j.vstages ≤ tr.maxVirtualStages && (j.vstages ≤ 1 || tr.bubblePolicy != 1)

/-- A group (R481, R483). -/
def groupOk (own : Nat) (j : Job) (g : Nat) : Bool :=
  let h := j.centry (j.groupAt g)
  let p := j.ranks g
  let word := fun r =>
    let w := (j.csection.getD (8 * (j.groupAt g + 1 + r / 32) + r % 32 / 4) 0).toNat
    bits w (16 * (r % 4) + 15) (16 * (r % 4))
  let seats := (List.range p).map word
  clear [maskBits 33 0, maskAll, maskAll, maskAll, maskAll, maskAll, maskAll, maskAll] h && inRange p 1 4096 && j.myRank g < p &&
    inRange (j.arity g) 2 16 && seats.all (· < 4096) && distinct seats && word (j.myRank g) == own &&
    (List.range (32 * ((p + 31) / 32) - p)).all fun i => word (p + i) == 0

/-- A collective descriptor (R479, R482, R483). DEDUCED: PERMUTE and VOTE, which use no ALGO, accept RING and TREE. -/
def cdescOk (own : Nat) (j : Job) (i : Nat) : Bool :=
  let c := j.cdesc i
  let op := cOp c
  let a := cAlgo c
  let g := cGroup c
  let hi := maskBits 63 48
  let segs := op < 2 || op == 5
  clear [maskBits 16 0, maskBits 51 48, hi, 0, maskBits 31 0, hi, maskAll, maskAll] c && op < 8 && a < 3 && g < j.groupCount &&
    cBytes c % 64 == 0 && cScratch c % 64 == 0 &&
    (if segs then inRange (cSegCount c) 1 4096 else cSegCount c == 0) &&
    (a == 1 || (op != 1 && op != 5)) && (a == 0 || op != 3) && (a != 2 || op == 0) &&
    (a != 2 || (List.range (j.ranks g)).all fun r => j.rankSeat g r / 64 == own / 64) &&
    (op != 7 || g == j.voteGroup) && (j.optTable != 0 || !(segs || op == 6)) && (op != 2 || cRoot c < j.ranks g)

/-- The collective section at stage 3. -/
def collectiveFail (n : Nat) (s : State) (j : Job) : Option Reject :=
  if j.csection.isEmpty then none
  else
    let at' := fun i => (⟨3, 0x09, i, none⟩ : Reject)
    firstReject
      [need (collHeaderOk n s j) (at' 0),
       (List.range j.groupCount).findSome? fun g => need (groupOk (seatOf s) j g) (at' (j.groupAt g)),
       (List.range j.cdescCount).findSome? fun i => need (cdescOk (seatOf s) j i) (at' (j.groupAt j.groupCount + i))]

/-- Stage 3. -/
def stage3 (n : Nat) (s : State) (p : List W64) (j : Job) : Option Reject :=
  let bad := fun typ (ok : Nat → List W64 → Bool) => (badAt ok (sectionEntries p typ)).map fun i => (⟨3, typ, i, none⟩ : Reject)
  firstReject
    [need (headerOk p) ⟨3, 0, 0, none⟩,
     (secTable p).zipIdx.findSome? fun q => need (q.1.rsvd == 0) ⟨3, q.1.typ, q.2, none⟩,
     (badAt tileEntryOk (sectionEntries p 0x01)).map fun i => ⟨3, 0x01, i, some i⟩,
     bad 0x03 fun _ e => descOk e,
     bad 0x04 fun _ e => epiOk e,
     bad 0x05 fun _ e => channelOk e,
     bad 0x07 fun _ e => sharedOk e,
     ((listTiles p).zip j.tiles).findSome? fun q =>
       firstReject
         [(badAt (fun _ e => epiRefsOk q.2.descs.length e) q.2.epis).map fun i =>
            ⟨3, 0x04, fld (q.1.1.getD 1 0) 23 0 + i, some q.2.tile⟩,
          (badAt (fun i w => instrOk j q.2 w && pairsOk j q.2 i w) q.2.list).map fun i => ⟨3, 0x02, fld (q.1.1.getD 0 0) 63 32 + i, some q.2.tile⟩],
     routingFail n s j,
     collectiveFail n s j]

/-! Stage 4: declarations. -/

/-- The producer of a channel is a tile of this module: any channel to another seat, or one whose SRC_TILE has a list. DEDUCED: a
channel to the own seat whose SRC_TILE has no list comes from another module. -/
def Channel.localSrc (own : Nat) (j : Job) (c : Channel) : Bool := c.dstSeat != own || (j.tile c.srcTile).isSome

/-- Channel `i` names tiles of the job, with indices that are unique at each end and DEPTH of at least 2. -/
def channelDeclOk (own : Nat) (j : Job) (i : Nat) (c : Channel) : Bool :=
  let before := j.channels.take i
  2 ≤ c.depth && (c.dstSeat == own || (j.tile c.srcTile).isSome) && (c.dstSeat != own || (j.tile c.dstTile).isSome) &&
    (!c.localSrc own j || before.all fun b => !(b.localSrc own j && b.srcTile == c.srcTile && b.srcIndex == c.srcIndex)) &&
    (c.dstSeat != own || before.all fun b => !(b.dstSeat == own && b.dstTile == c.dstTile && b.dstIndex == c.dstIndex))

/-- SYNC instructions name barriers and channels that are declared. DEDUCED: a SEND or RECV of an undeclared channel fails here. -/
def declared (own : Nat) (j : Job) (x : JobTile) (w : W128) : Bool :=
  if iclass w != 5 then true
  else if iop w == 1 then (j.barriers.getD (ifld w 103 98) 0).testBit x.tile
  else if iop w == 2 then (j.channels.any fun c => c.localSrc own j && c.srcTile == x.tile && c.srcIndex == ifld w 103 96)
  else if iop w == 3 then (inChannel j x.tile (ifld w 103 96) own).isSome
  else true

/-- Stage 4. -/
def stage4 (own : Nat) (p : List W64) (j : Job) : Option Reject :=
  firstReject
    [(badAt (channelDeclOk own j) j.channels).map fun i => ⟨4, 0x05, i, none⟩,
     (badAt (fun _ m => m != 0) j.barriers).map fun i => ⟨4, 0x06, i, none⟩,
     ((listTiles p).zip j.tiles).findSome? fun q =>
       (badAt (fun _ w => declared own j q.2 w) q.2.list).map fun i => ⟨4, 0x02, fld (q.1.1.getD 0 0) 63 32 + i, some q.2.tile⟩]

/-! Stage 5: space. -/

/-- The descriptors of a tile whose address an index register, RECV or MCAST changes when the instruction runs. -/
def runtimeDescs (x : JobTile) (w : W128) : List Nat :=
  let f := ifld w
  let xs := if !bit w.toNat 110 then [] else match iclass w, iop w with
    | 0x0, 0 => [f 103 96]
    | 0x0, 1 => [f 103 96]
    | 0x0, 2 => [f 95 88]
    | 0x0, 5 => [f 103 96]
    | 0x1, _ => match x.epi (f 87 80) with
      | some e => [e.out]
      | none => []
    | 0x2, _ => [f 103 96, f 95 88, f 87 80]
    | 0x5, 2 => [f 95 88]
    | 0x6, 6 => [f 103 96]
    | _, _ => []
  xs ++ (if iclass w == 5 && iop w == 3 then [f 95 88] else []) ++ (if iclass w == 0 && iop w == 1 then [f 95 88] else [])

/-- The ranges of memory that a descriptor names: its lines, its scale bytes and its 2:4 metadata (R266, R267, R250, R251). -/
def descExtent (d : Desc) : List (Nat × Nat) :=
  let b := elemBits d.format
  let lines := (d.base, (d.lines - 1) * d.stride + (d.lineLen * b + 7) / 8)
  let scales := if isMx d.format then [(d.base + d.aux, d.lines * d.scaleLen)] else []
  let nibbles := if d.sparse && !isMx d.format then [(d.base + d.aux, d.rows / 2 * (d.cols / 2))] else []
  let trans := if d.transposable then [(d.base + d.keyT, 2 * d.rows * ((d.cols / 4 + 1) / 2))] else []
  lines :: scales ++ nibbles ++ trans

/-- A descriptor's range may be named at LOAD_JOB: what the tile may reach (R141). DEDUCED: an address in the host spill window is
judged when the instruction runs. -/
def loadable (n t : Nat) (r : Nat × Nat) (s : State) : Bool :=
  inside r.1 r.2 (spillWindow n, 2 ^ 37) || (reach n t r.1 r.2 s).isNone

/-- Bytes of the statistics area (Table 8.21, R324, R338). -/
def statsBytes : Nat := 0x49000

/-- The addresses that a Jacks descriptor names (R391, R419): SRC and DST of an index copy may name cluster stores. -/
def jdescSpaceOk (n : Nat) (s : State) (d : List W64) : Bool :=
  let own := fun a => inside a 1 (jobRange n s)
  match dKind d with
  | 0 => (List.range 7).all fun i => own (dAddr d (i + 2))
  | 2 => own (dAddr d (if dMode d == 2 then 5 else 2)) && own (dAddr d 8) && [3, 4].all fun i =>
      own (dAddr d i) || (inClusterWindow (dAddr d i) && partOfCluster ((dAddr d i - clusterWindow 0) / 2 ^ 24) s == some n)
  | _ => true

/-- Buffers that the frames of a queue take (R387). -/
def Job.queueBuffers (j : Job) (q : Nat) (s : State) : Nat :=
  qFrames (j.rqueue q) * j.areaBuffers q s * (if qShared (j.rqueue q) then 1 else 2)

/-- The buffers of every queue of a job, as (pool, buffer). -/
def Job.allBuffers (j : Job) (s : State) : List (Nat × Nat) :=
  (List.range j.queueCount).flatMap fun q =>
    (List.range (j.queueBuffers q s)).map fun i => (qPool (j.rqueue q), qBuffer0 (j.rqueue q) + i)

/-- Every buffer of a queue lies below BUFFER_COUNT and is free, and no earlier queue takes it (R387). -/
def queueSpaceOk (j : Job) (s : State) (q : Nat) : Bool :=
  let e := j.rqueue q
  let first := qBuffer0 e
  let n := j.queueBuffers q s
  let clash := fun b => first ≤ b && b < first + n
  (match poolCfg (qPool e) s with
    | some c => first + n ≤ c.bufferCount
    | none => false) &&
    (poolOf (qPool e) s).buffers.all (fun b => !clash b.num) &&
    (List.range q).all fun o => qPool (j.rqueue o) != qPool e || qBuffer0 (j.rqueue o) + j.queueBuffers o s ≤ first ||
      first + n ≤ qBuffer0 (j.rqueue o)

/-- Stage 5: STATE_BYTES fits the memory that jobs may use (R62), the list area in the package's copy lies in it, and so do the statistics
area and the descriptors. -/
def stage5 (n len : Nat) (s : State) (p : List W64) (j : Job) : Option Reject :=
  firstReject
    [need (j.stateBytes ≤ (jobRange n s).2) ⟨5, 0, 3, none⟩,
     need (inside j.place len (jobRange n s)) ⟨5, 0x02, 0, none⟩,
     need (inside j.stats statsBytes (jobRange n s)) ⟨5, 0, 2, none⟩,
     ((listTiles p).zip j.tiles).findSome? fun q =>
       let later := q.2.list.flatMap (runtimeDescs q.2)
       (badAt (fun i d => d.space != 0 || later.contains i || (descExtent d).all fun r => loadable n q.2.tile r s) q.2.descs).map fun i =>
         ⟨5, 0x03, fld (q.1.1.getD 1 0) 63 40 + i, some q.2.tile⟩,
     (List.range j.jdescCount).findSome? fun i =>
       need (jdescSpaceOk n s (j.jdesc i)) ⟨5, 0x08, 1 + 17 * j.mapCount + j.queueCount + 2 * i, none⟩,
     (List.range j.queueCount).findSome? fun q => need (queueSpaceOk j s q) ⟨5, 0x08, 1 + 17 * j.mapCount + q, none⟩]

/-- The checks of LOAD_JOB in the order of Table 8.22 (R305). -/
def loadFail (n len : Nat) (s : State) (p : List W64) (j : Job) : Option Reject :=
  let held := fun g => match partCfg n s with
    | some c => c.holds g
    | none => false
  (stage1 len p).orElse fun _ => (stage2 held p j).orElse fun _ => (stage3 n s p j).orElse fun _ =>
    (stage4 (seatOf s) p j).orElse fun _ => stage5 n len s p j

end Sys2Proof.Machine
end

