-- ==== Sys2Proof/Machine/Power.lean ====
section
/-! DEFINITION. Machine/Power.lean: pacing, the peak guard, the governor, operating-point decisions, droop holds and thermal states
(15 R548 to R568). -/
namespace Sys2Proof.Machine

/-! Pacing (R548 to R552). -/

/-- Ticks of the averaging window. -/
def windowTicks (s : State) : Nat := s.power.windowS * 1000

/-- The pacing target (R551) from the ticks of history that count, newest first. -/
def pacingTarget (cap w : Nat) (ticks : List Nat) : Nat :=
  let h := ticks.take (w - 1)
  let slack : Int := (cap : Int) * h.length - h.sum
  (min 2650 ((cap : Int) + slack)).toNat

/-- Effective MAX_OP (R564): MAX_OP in thermal states 0 and 1, else the point in force. -/
def effectiveMaxOp (s : State) : Nat := if s.thermal.state < 2 then (clocksCfg s).maxOp else s.clk.opCurrent

/-- Mean share of clusters in MAC phases over the last 1 s, as a sum and a count. -/
def macMean (s : State) : Nat × Nat := s.power.macShares.foldl (fun a p => (a.1 + p.1, a.2 + p.2)) (0, 0)

/-- POWER_STATUS (R567, Table 15.4). -/
def powerStatus (s : State) : W64 :=
  let p := s.power
  let h := p.ticks.take (windowTicks s)
  let (sum, n) := macMean s
  pack [(p.inputW, 52, 12), (if h.isEmpty then 0 else h.sum / h.length, 40, 12), (p.cap, 28, 12), (effectiveMaxOp s, 25, 3),
        (b2n p.peakGuard, 24, 1), (b2n (2 ≤ s.thermal.state), 23, 1), (b2n p.watchdog, 22, 1),
        (p.shares.foldl min 64, 15, 7), (if n == 0 then 32 else sum / n, 8, 7)]

/-! The peak guard (R553). -/

/-- A share falls by 4/64, not below 8/64; one that is lower stays. -/
def fallShare (x : Nat) : Nat := max (min x 8) (x - 4)

/-- Shares rise by 1/64 up to the value the governor last set. -/
def riseShares (gov now' : List Nat) : List Nat := List.zipWith (fun g x => if x < g then x + 1 else x) gov now'

/-- Some share is below the governor's value. -/
def anyBelow (gov now' : List Nat) : Bool := (gov.zip now').any fun p => p.2 < p.1

/-- What thermal action leaves of cluster shares (R562): in CLAMP 8/64. -/
def coolShares (l : List Nat) (s : State) : List Nat := if s.thermal.state == 3 then l.map fun _ => 8 else l

/-- What thermal action leaves of Serden shares (R562, R563): in CLAMP 8/64, on a THROTTLED stack at most 16/64. -/
def coolSerden (l : List Nat) (s : State) : List Nat :=
  coolShares (l.zipIdx.map fun q => if s.thermal.stackStates.getD q.2 0 == 2 then min q.1 16 else q.1) s

/-- A power sample (R548, R553). Thermal action wins over the guard's release (R564). -/
def powerSample (watts : Nat) (s : State) : State :=
  let p := s.power
  let l := (watts :: p.samples).take 10
  let s := { s with power := { p with samples := l, tickSum := p.tickSum + watts, tickN := p.tickN + 1 } }
  if l.length < 10 then s
  else
    let mean := l.sum / 10
    let p := s.power
    if 26500 < l.sum then
      let fell := p.peakGuard || p.shares.map fallShare != p.shares || p.serden.map fallShare != p.serden
      let p' := { p with shares := p.shares.map fallShare, serden := p.serden.map fallShare, guardTicks := 0, peakGuard := fell,
                         guardHigh := if p.peakGuard then max p.guardHigh mean else mean }
      let s := { s with power := p' }
      if p.peakGuard || !fell then s else raiseM none 0xB002 0 (BitVec.ofNat 64 mean) s
    else if l.sum < 25500 && p.peakGuard then
      if p.guardTicks < 9 then { s with power := { p with guardTicks := p.guardTicks + 1 } }
      else
        let sh := coolShares (riseShares p.govShares p.shares) s
        let se := coolSerden (riseShares p.govSerden p.serden) s
        { s with power := { p with shares := sh, serden := se, guardTicks := 0,
                                   peakGuard := anyBelow p.govShares sh || anyBelow p.govSerden se } }
    else { s with power := { p with guardTicks := 0 } }

/-- POWER_SAMPLE. -/
def execPowerSample (watts : Nat) (s : State) : Host.Outcome State Fault Refusal := .next (powerSample watts s)

/-! The governor (R557 to R559). -/

/-- Cluster power at share L/64: the part that scales with the share, and the part that does not (R558). -/
def powerAt (full held l : Nat) : Nat := held + (full - held) * l / 64

/-- A MAC phase. -/
def PhaseKey.mac (k : PhaseKey) : Bool := k.cls < 4

/-- A measure weighs 1/8 (R558). -/
def eighth (old new : Nat) : Nat := (7 * old + new) / 8

/-- Learn one measure of a phase: the newest first, at most 2,048 (R558). -/
def learn (o : PhaseSeen) (l : List PhaseLearned) : List PhaseLearned :=
  let key : PhaseKey := ⟨o.job, o.layer, o.cls⟩
  let p : PhaseLearned := match l.find? fun p => p.key == key with
    | some p => ⟨key, eighth p.full o.fullMw, eighth p.held o.heldMw, eighth p.duration o.ns⟩
    | none => ⟨key, o.fullMw, o.heldMw, o.ns⟩
  (p :: l.filter fun q => q.key != key).take 2048

/-- A unit's phase is noted in the order of the step when it is not the one noted last (R558). -/
def noteOrder (o : PhaseSeen) (l : List (Nat × Nat × PhaseKey)) : List (Nat × Nat × PhaseKey) :=
  let key : PhaseKey := ⟨o.job, o.layer, o.cls⟩
  if ((l.find? fun p => p.1 == o.part && p.2.1 == o.unit).map fun p => p.2.2) == some key then l else (o.part, o.unit, key) :: l

/-- Max-min fair sharing of a budget: who asks for at most an equal part of what is left gets what it asks for. -/
def fairShare : Nat → Nat → List (Nat × Nat) → List (Nat × Nat)
  | 0, _, _ => []
  | n + 1, budget, l =>
    let level := budget / max 1 l.length
    let low := l.filter fun p => p.2 ≤ level
    if l.isEmpty then []
    else if low.isEmpty then l.map fun p => (p.1, level)
    else low ++ fairShare n (budget - (low.map Prod.snd).sum) (l.filter fun p => level < p.2)

/-- Sharing in proportion to weights, what one does not use going to the others in the same proportion (R559): entries are (who,
weight, demand). -/
def weighted : Nat → Nat → List (Nat × Nat × Nat) → List (Nat × Nat)
  | 0, _, _ => []
  | n + 1, budget, l =>
    let sum := max 1 (l.map fun p => p.2.1).sum
    let part := fun (p : Nat × Nat × Nat) => budget * p.2.1 / sum
    let low := l.filter fun p => p.2.2 ≤ part p
    if l.isEmpty then []
    else if low.isEmpty then l.map fun p => (p.1, part p)
    else low.map (fun p => (p.1, p.2.2)) ++ weighted n (budget - (low.map fun p => p.2.2).sum) (l.filter fun p => part p < p.2.2)

/-- The largest share from 1 to `most` whose predicted power fits an allotment. -/
def shareFor (full held most allot : Nat) : Nat :=
  (((List.range 64).map (· + 1)).filter fun l => l ≤ most && powerAt full held l ≤ allot).foldl max 1

/-- A partition has an active run. -/
def activePart (n : Nat) (s : State) : Bool := s.jobs.any fun j => j.part == n && j.running

/-- What the governor has learned of a phase, or the tick's own measure of it. -/
def learnedOf (o : PhaseSeen) (s : State) : Nat × Nat :=
  match (s.power.phases.getD o.part []).find? fun p => p.key == ⟨o.job, o.layer, o.cls⟩ with
  | some p => (p.full, p.held)
  | none => (o.fullMw, o.heldMw)

/-- The share of a MAC phase of a partition is at most the step's plan (R559). -/
def planOf (n : Nat) (s : State) : Nat := match s.power.planTargets.find? fun p => p.1 == n with
  | some p => p.2
  | none => 64

/-- The units' allotments of the dynamic budget in mW (R559): with GOVERNOR_MODE 0 by partition weight and then max-min fair by
predicted demand, with GOVERNOR_MODE 1 in equal parts. -/
def allotments (budget : Nat) (seen : List PhaseSeen) (s : State) : List (Nat × Nat) :=
  let act := seen.filter fun o => activePart o.part s
  if (powerCfg s).governorEqual then act.map fun o => (o.unit, budget / max 1 act.length)
  else
    let demand := fun (o : PhaseSeen) => (learnedOf o s).1
    let ps := (partIds s).filter fun n => act.any fun o => o.part == n
    let parts := weighted 5 budget (ps.map fun n =>
      (n, (powerCfg s).weights.getD n 1, ((act.filter fun o => o.part == n).map demand).sum))
    parts.flatMap fun p =>
      let mine := act.filter fun o => o.part == p.1
      fairShare (mine.length + 1) p.2 (mine.map fun o => (o.unit, demand o))

/-- The governor's share of a unit, lowered by what HOT asks (R562). -/
def unitShare (al : List (Nat × Nat)) (o : PhaseSeen) (s : State) : Nat :=
  let (full, held) := learnedOf o s
  let most := if o.cls < 4 then planOf o.part s else 64
  max 1 ((match al.find? fun p => p.1 == o.unit with
    | some p => shareFor full held most p.2
    | none => most) - s.thermal.lowered)

/-- Shares in force follow what the governor sets, but for what the guard or thermal action holds (R553, R562, R563). -/
def applyShares (s : State) : State :=
  let p := s.power
  let cap := fun (gov cur : List Nat) => if p.peakGuard then List.zipWith min gov cur else gov
  let sh := cap p.govShares p.shares
  let se := cap p.govSerden p.serden
  { s with power := { p with shares := coolShares sh s, serden := coolSerden se s,
                             peakGuard := p.peakGuard && (anyBelow p.govShares sh || anyBelow p.govSerden se) } }

/-- Firmware writes the shares: the watchdog's state clears (R557). -/
def writeShares (gov serden : List Nat) (s : State) : State :=
  applyShares { s with power := { s.power with govShares := gov, govSerden := serden, written := true, watchdog := false } }

/-- The tick ends and the governor sets the shares of the next one (R551, R558, R559); in the clock-loss wait they stay, and the energy of
the tick is counted. -/
def governorTick (fixedMw : Nat) (seen : List PhaseSeen) (s : State) : State :=
  let p := s.power
  let e := p.tickSum / max 1 p.tickN
  let ticks := if p.capNew then [] else (e :: p.ticks).take (windowTicks s)
  let target := pacingTarget p.cap (windowTicks s) ticks
  let phases := if (powerCfg s).governorEqual then p.phases
    else (List.range 4).map fun n => (seen.filter fun o => o.part == n).foldl (fun l o => learn o l) (p.phases.getD n [])
  let order := if (powerCfg s).governorEqual then p.orderNow else seen.foldl (fun l o => noteOrder o l) p.orderNow
  let s := { s with power := { p with
    inputW := e, ticks, tickSum := 0, tickN := 0, capNew := false, target, fixedMw, phases, orderNow := order } }
  let floor := fixedMw + (seen.map fun o => powerAt (learnedOf o s).1 (learnedOf o s).2 1).sum
  let al := allotments (1000 * target - fixedMw) seen s
  let set := fun (l : List Nat) (first count : Nat) => (List.range count).map fun i =>
    match seen.find? fun o => o.unit == first + i && activePart o.part s with
    | some o => unitShare al o s
    | none => l.getD i 32
  if s.clk.gated then s
  else
  let s := writeShares (set s.power.govShares 0 66) (set s.power.govSerden 66 8) s
  let mac := seen.filter fun o => o.cls < 4 && o.unit < 66
  let shares := mac.map fun o => s.power.shares.getD o.unit 0
  { s with power := { s.power with
    floorHit := s.power.floorHit || 1000 * target < floor,
    macShares := ((shares.sum, shares.length) :: s.power.macShares).take 1000 } }

/-- GOVERNOR_TICK. -/
def execGovernorTick (fixedMw : Nat) (seen : List PhaseSeen) (s : State) : Host.Outcome State Fault Refusal :=
  .next (governorTick fixedMw seen s)

/-- The predicted mean power of a step in mW at share l of its MAC phases (R559, as in the worked example): the share stretches a MAC
phase, and only the part that does not scale is drawn for longer. -/
def predictedMean (n l : Nat) (s : State) : Nat :=
  let steps := (s.power.orderDone.filter fun o => o.1 == n).filterMap fun o =>
    ((s.power.phases.getD n []).find? fun p => p.key == o.2.2).map fun p => (o.2.1, p)
  let units := (List.range 74).filter fun u => steps.any fun p => p.1 == u
  let time := fun (p : PhaseLearned) => if p.key.mac then p.duration * 64 / max 1 l else p.duration
  let power := fun (p : PhaseLearned) => if p.key.mac then powerAt p.full p.held l else p.full
  s.power.fixedMw + (units.map fun u =>
    let mine := (steps.filter fun p => p.1 == u).map Prod.snd
    (mine.map fun p => power p * time p).sum / max 1 (mine.map time).sum).sum

/-- The governor plans a step (R559): the largest share whose predicted mean is at most the cap in force. -/
def planStep (n : Nat) (s : State) : State :=
  if (powerCfg s).governorEqual then s
  else
    let mine := s.power.orderNow.filter fun o => o.1 == n
    let s := if mine.isEmpty then s else { s with power := { s.power with
      orderDone := mine ++ s.power.orderDone.filter (fun o => o.1 != n), orderNow := s.power.orderNow.filter fun o => o.1 != n } }
    let share := (((List.range 64).map (· + 1)).filter fun l => predictedMean n l s ≤ 1000 * s.power.cap).foldl max 1
    { s with power := { s.power with planTargets := (n, share) :: s.power.planTargets.filter fun p => p.1 != n } }

/-- Firmware misses its share write for 10 ms (R557); thermal action stays above it. -/
def shareWatchdog (s : State) : State :=
  raiseM none 0xB003 0 10 { s with power := { s.power with
    shares := coolShares (List.replicate 66 32) s, serden := coolSerden (List.replicate 8 32) s, watchdog := true } }

/-- SHARE_WATCHDOG_TIMEOUT. -/
def execShareWatchdogTimeout (s : State) : Host.Outcome State Fault Refusal := .next (shareWatchdog s)

/-! Operating points (R560). -/

/-- The governor or thermal action asks for a point, and its change is reported (R560, R562). -/
def moveOp (index pause : Nat) (s : State) : State :=
  let s' := opTarget index pause { s with clk := { s.clk with opFrom := some s.clk.opCurrent } }
  if s'.clk.opTarget == index then s' else { s' with clk := { s'.clk with opFrom := s.clk.opFrom } }

/-- The decision of every 100 ms (R560): `predicted` is the share that the learned model predicts at the faster point, in 1/64. -/
def opDecision (predicted pause : Nat) (s : State) : State :=
  let (sum, n) := macMean s
  let i := s.clk.opCurrent
  let down := (n != 0 && sum < 52 * n) || s.power.floorHit
  let up := effectiveMaxOp s < i && 60 ≤ predicted && s.thermal.state == 0
  let s := { s with power := { s.power with floorHit := false } }
  if down then (if i < 5 then moveOp (i + 1) pause s else s)
  else if up then moveOp (i - 1) pause s
  else s

/-- OP_DECISION. -/
def execOpDecision (predicted pause : Nat) (s : State) : Host.Outcome State Fault Refusal := .next (opDecision predicted pause s)

/-! Droop (R561). -/

/-- A rail `belowMv` under the nominal voltage, `cycles` after the last hold of the cluster began (R561): a hold is counted, and more
than 1,000 within a second raise droop-rate once. -/
def droop (c belowMv cycles : Nat) (s : State) : State :=
  if belowMv < 40 || cycles < 32 || 66 ≤ c then s
  else
    let p := s.power
    let p := if (now s - p.droopStart).toNat < 1000000000 then p
      else { p with droopSecond := List.replicate 66 0, droopRaised := [], droopStart := now s }
    let p := { p with droops := upd p.droops c (· + 1), droopSecond := upd p.droopSecond c (· + 1) }
    let k := p.droopSecond.getD c 0
    if 1000 < k && !p.droopRaised.contains c then
      raiseM none 0xB005 (unitCluster c) (BitVec.ofNat 64 k) { s with power := { p with droopRaised := c :: p.droopRaised } }
    else { s with power := p }

/-- DROOP_DETECT. -/
def execDroopDetect (cluster belowMv cycles : Nat) (s : State) : Host.Outcome State Fault Refusal :=
  .next (droop cluster belowMv cycles s)

/-! Thermal states (R562 to R564, R568). -/

/-- The compute sensors (R549). -/
def computeSensors : List Nat := List.range 74 ++ (List.range 8).map (82 + ·)

/-- The hottest of some sensors: reading and index, the lowest index of a tie. -/
def hottest (is l : List Nat) : Nat × Nat :=
  is.foldl (fun b i => if b.1 < l.getD i 0 then (l.getD i 0, i) else b) (0, is.headD 0)

/-- Entry threshold of a thermal state in 0.25 °C (Table 15.2). -/
def thermalEntry : Nat → Nat
  | 1 => 380
  | 2 => 400
  | _ => 420

/-- Entry threshold of a stack state in 0.25 °C (Table 15.3). -/
def stackEntry : Nat → Nat
  | 1 => 340
  | _ => 380

/-- The state for a reading: entered at its threshold, left 3 °C below it. -/
def heatState (entry : Nat → Nat) (top cur reading : Nat) : Nat :=
  (((List.range top).map (· + 1)).filter fun k => entry k ≤ reading || (k ≤ cur && entry k < reading + 12)).foldl max 0

/-- w3 of the thermal events (Table 15.7). -/
def thermalWord (h : Nat × Nat) : W64 := pack [(h.2, 32, 8), (h.1, 0, 10)]

/-- The event of a thermal state that is entered. -/
def thermalCode (st : Nat) : Nat := 0xB005 + st

/-- One stack's state follows its sensor (R563). -/
def stackUpdate (s : State) (i : Nat) : State :=
  let t := s.thermal.sensors.getD (74 + i) 0
  let old := s.thermal.stackStates.getD i 0
  let st := heatState stackEntry 2 old t
  let s := { s with thermal := { s.thermal with stackStates := setAt s.thermal.stackStates i st } }
  if old == 0 && st != 0 then raiseM none 0xB009 (unitChannel (32 * i)) (pack [(st, 42, 2), (t, 0, 10)]) s else s

/-- The sensors refresh (R549, R562, R563): states change, CLAMP sets every share to 8/64 and drives the sequencer to point 5, a
THROTTLED stack's Serden share is held at 16/64. -/
def thermalUpdate (readings : List Nat) (pause : Nat) (s : State) : State :=
  let s := { s with thermal := { s.thermal with sensors := (List.range 90).map fun i => readings.getD i 0 } }
  let h := hottest computeSensors s.thermal.sensors
  let old := s.thermal.state
  let st := heatState thermalEntry 3 old h.1
  let s := { s with thermal := { s.thermal with
    state := st, lowered := if st == 2 then s.thermal.lowered else 0, throttles := if old < st && 2 ≤ st then satInc 0xFFFF s.thermal.throttles else s.thermal.throttles } }
  let s := if old < st then raiseM none (thermalCode st) 0 (thermalWord h) s else s
  let s := (List.range 8).foldl stackUpdate s
  let s := if old < 3 && st == 3 then opTarget 5 pause s else s
  applyShares s

/-- THERMAL_SENSOR_UPDATE. -/
def execThermalSensorUpdate (readings : List Nat) (pause : Nat) (s : State) : Host.Outcome State Fault Refusal :=
  .next (thermalUpdate readings pause s)

/-- Every 10 ms in HOT (R562): one operating point lower, or at the slowest that R114 still allows every share 4/64 lower. -/
def hotThrottle (pause : Nat) (s : State) : State :=
  if s.thermal.state != 2 then s
  else
    let i := s.clk.opCurrent
    if i < 5 && i < s.clk.slowestAllowed then moveOp (i + 1) pause s
    else
      let f := fun (l : List Nat) => l.map fun x => max 1 (x - 4)
      { s with thermal := { s.thermal with lowered := min 64 (s.thermal.lowered + 4) }
               power := { s.power with shares := f s.power.shares, serden := f s.power.serden,
                                       govShares := f s.power.govShares, govSerden := f s.power.govSerden } }

/-- HOT_THROTTLE_TIMER. -/
def execHotThrottleTimer (pause : Nat) (s : State) : Host.Outcome State Fault Refusal := .next (hotThrottle pause s)

/-- THERMAL_STATUS (R568, Table 15.5). -/
def thermalStatus (s : State) : W64 :=
  let t := s.thermal
  let h := hottest computeSensors t.sensors
  pack [(h.1, 54, 10), ((hottest ((List.range 8).map (74 + ·)) t.sensors).1, 44, 10), (t.state, 42, 2), (t.stackStates.foldl max 0, 40, 2),
        (h.2, 32, 8), (t.throttles, 16, 16)]

end Sys2Proof.Machine
end

