-- ==== Sys2Proof/Machine/RunChecks.lean ====
section
/-! DEFINITION. Machine/RunChecks.lean: what is checked when a run starts: the optimiser table (10 R348 to R356), the segments that
descriptors name (13 R483), units out of service (14 R542, R543). -/
namespace Sys2Proof.Machine

/-- Words of memory from an address on. -/
def memWords (a n : Nat) (m : Mem) : List W64 := (List.range n).map fun i => BitVec.ofNat 64 (rdNat (a + 8 * i) 8 m)

/-- Read the optimiser table (Table 10.3): header, SCHED_COUNT schedules and their points. -/
def readTable (base : Nat) (m : Mem) : OptTable :=
  let h := memWords base 8 m
  let k := min 16 (fld (h.getD 0 0) 47 40)
  { base, header := h, scheds := (List.range k).map fun i => memWords (base + 64 + 32 * i) 4 m,
    points := (List.range k).map fun i => memWords (base + 576 + 512 * i) 64 m }

/-- SEG_COUNT. -/
def OptTable.segCount (t : OptTable) : Nat := fld (t.header.getD 0 0) 63 48

/-- The segment entries of a table. -/
def readSegs (t : OptTable) (m : Mem) : List (List W64) :=
  (List.range (min 4096 t.segCount)).map fun i => memWords (t.base + 8768 + 64 * i) 8 m

/-- The header's counts are in range and its RSVD bits zero (Table 10.4). -/
def OptTable.headerOk (t : OptTable) : Bool :=
  let h0 := t.header.getD 0 0
  let hi := maskBits 63 48
  inRange t.segCount 1 4096 && inRange (fld h0 47 40) 1 16 && fld h0 39 27 ≤ 4096 &&
    clear [maskBits 26 0, hi, 0, 0, hi, maskAll, maskAll, maskAll] t.header

/-- STEP values rise strictly (R354). -/
def risingSteps : List W64 → Bool
  | a :: b :: r => fld a 31 0 < fld b 31 0 && risingSteps (b :: r)
  | _ => true

/-- A schedule entry (Table 10.5) and its point table (R354). -/
def schedOk (e pts : List W64) : Bool :=
  let kind := fld (e.getD 0 0) 63 60
  let n := fld (e.getD 0 0) 59 53
  kind ≤ 4 && clear [maskBits 52 32, 0, maskBits 31 0, maskAll] e && (if kind == 4 then inRange n 2 64 else n == 0) &&
    (kind != 4 || risingSteps (pts.take n))

/-- A segment entry by itself (Table 10.7, R348, R356): codes, RSVD bits, SCHED, COUNT_INDEX, its field area. -/
def segOk (n : Nat) (t : OptTable) (w : List W64) (s : State) : Bool :=
  let g := segFields w
  let (a, z) := segArea n g s
  g.opt != 3 && clear [maskBits 28 13, maskBits 63 48, 0, 0, 0, 0, maskBits 31 0, maskAll] w && g.elements != 0 &&
    g.sched < fld (t.header.getD 0 0) 47 40 && (!g.expert || g.countIndex < fld (t.header.getD 0 0) 39 27) &&
    (a - (stackRange n s).1) % max 1 (bundleStride n s) == 0 && inside a z (jobRange n s)

/-- The field areas that other loaded jobs of the partition hold (R356). -/
def otherAreas (n num : Nat) (s : State) : List (Nat × Nat) :=
  (s.jobs.filter fun j => j.part == n && j.num != num).flatMap fun j => j.segs.map fun g => segArea n (segFields g.words) s

/-- The first segment that breaks R356. -/
def badSegment (n num : Nat) (t : OptTable) (ws : List (List W64)) (s : State) : Option Nat :=
  let areas := ws.map fun w => segArea n (segFields w) s
  let others := otherAreas n num s
  badAt (fun i w =>
    let a := segArea n (segFields w) s
    segOk n t w s && !((areas.take i).any fun b => overlap a b) && !(others.any fun b => overlap a b)) ws

/-- The optimiser table breaks R354 or R356, or the segments of a descriptor break R483: the index that job-refused names. -/
def tableFail (j : Job) (t : OptTable) (ws : List (List W64)) (s : State) : Option Nat :=
  if !t.headerOk || ((t.scheds.zip t.points).any fun p => !schedOk p.1 p.2) then some 0
  else (badSegment j.part j.num t ws s).orElse fun _ =>
    let red := (List.range j.cdescCount).filter fun i => cOp (j.cdesc i) < 2
    (List.range j.cdescCount).find? fun i =>
      let c := j.cdesc i
      let seg := cOp c < 2 || cOp c == 5
      (seg && t.segCount < cSegFirst c + cSegCount c) ||
        (red.contains i && red.any fun k => k < i && overlap (cSegFirst c, cSegCount c) (cSegFirst (j.cdesc k), cSegCount (j.cdesc k)))

/-- Segments of the partition's other loaded jobs (R356). -/
def otherSegments (n num : Nat) (s : State) : Nat :=
  ((s.jobs.filter fun j => j.part == n && j.num != num).map fun j => j.segs.length).sum

/-- The dies that a partition's clusters lie on. -/
def diesOf (n : Nat) (s : State) : List Nat := match partCfg n s with
  | some p => [0, 1].filter fun d => (clustersHeld p).any fun g => g / 32 == d
  | none => []

/-- A lasting fault that sparing did not repair completes runs of the partition FAULT (R542, R543): a channel, a cluster store bank, an
engine of a die. -/
def faultBlocks (n : Nat) (s : State) : Bool :=
  (partChannels n s).any (fun c => unitOut (unitChannel c) s) ||
    (match partCfg n s with
      | some p => (clustersHeld p).any fun g => unitOut (clusterUnit g) s
      | none => false) ||
    (diesOf n s).any fun d => unitOut (unitJacks d) s || unitOut (unitDomino d) s

end Sys2Proof.Machine
end

