-- ==== Sys2Proof/Machine/Runs.lean ====
section
/-! DEFINITION. Machine/Runs.lean: the start of a run (08 R306, 04 R138): set-up, resolution of regions, declarations of channels and
groups, repairs before the curtain count, the curtain count. -/
namespace Sys2Proof.Machine

/-- A command that has not completed ends with a status and RESULT 0. -/
def endWith (port q seq status : Nat) (s : State) : State := endCommand port q seq status 0 false false s

/-- A job-refused event of a partition (R305, R356): stage, section TYPE, index. -/
def jobRefused (n num unit stage typ index : Nat) (s : State) : State :=
  raiseP n 0x4001 unit (pack [(stage, 56, 8), (typ, 48, 8), (index, 0, 32)]) s (pack [(num, 32, 32)])

/-! Set-up: steps 1 and 2 of R306. -/

/-- A tile at the start of a run (R246, R299, R306): its records of LOAD_JOB stay, the rest is as at first. -/
def JobTile.atStart (x : JobTile) : JobTile :=
  { tile := x.tile, list := x.list, descs := x.descs, epis := x.epis, depths := x.depths, shared := x.shared,
    seq := x.seq, extra := x.extra, act := x.act }

/-- A channel at the start of a run (R290). -/
def Channel.atStart (h : Channel) : Channel :=
  { h with credits := h.depth, written := 0, arrived := 0, taken := 0, srcSeat := none, acked := 0 }

/-- What the collectives keep from one run of a job to the next: decisions, proofs, the index of commit records. -/
def CollRun.atStart (c : CollRun) : CollRun :=
  { nextId := c.nextId, decided := c.decided, decision := c.decision, applied := c.applied, index := c.index, proven := c.proven,
    redone := c.redone, abandoned := c.abandoned }

/-- The segment entry of a segment at START_JOB (R350, R369): the state it has, or its first use after LOAD_JOB. -/
def startSegment (j : Job) (early : Bool) (i : Nat) (w : List W64) : Segment :=
  let g := segFields w
  match j.seg i with
  | some o =>
    let old := segFields o.words
    if old.fieldBase == g.fieldBase && old.elements == g.elements then { o with words := w, upd := if o.upd == 5 then 4 else o.upd }
    else { index := i, words := w, slot := early && g.initSlot, step := j.step }
  | none => { index := i, words := w, slot := early && g.initSlot, step := j.step }

/-- The audits of a partition's pools reset at the start of a run (R324). -/
def resetAudits (n : Nat) (s : State) : State :=
  (poolsOf n s).foldl (fun s c => onPool c.pool (fun p => { p with audit := {} }) s) s

/-- Steps 1 and 2 of R306, and the engines' copy of the optimiser table (R350). -/
def setUpRun (j : Job) (r : Run) (table : Option OptTable) (segs : List (List W64)) (s : State) : State :=
  let early := earlyMode j.part s
  resetAudits j.part (onJob j.part j.num (fun j =>
    { j with
      tiles := j.tiles.map JobTile.atStart, channels := j.channels.map Channel.atStart, route := {}, coll := j.coll.atStart,
      run := some r, table, segs := segs.zipIdx.map fun p => startSegment j early p.2 p.1 }) s)

/-! Regions (R447, R466, R488). -/

/-- Add without repeating. -/
def addOnce {α : Type} [BEq α] (l : List α) (a : α) : List α := if l.contains a then l else l ++ [a]

/-- The (MEMBER, KEY) pairs that a run resolves: those of SPACE 1 descriptors, and the scratch shards of ATOMIC descriptors. -/
def Job.resolvePairs (j : Job) : List (Nat × Nat) :=
  let own := j.tiles.flatMap fun x => (x.descs.filter fun d => d.space == 1).map fun d => (d.member, d.keyT)
  let coll := (List.range j.cdescCount).flatMap fun i =>
    let c := j.cdesc i
    if cOp c == 0 && cAlgo c == 2 then (List.range (j.ranks (cGroup c))).map fun q => (j.rankSeat (cGroup c) q % 64, cKey c) else []
  (own ++ if j.csection.isEmpty then [] else coll).foldl addOnce []

/-- The region of a partition that carries a key: that of the lowest REGION (R447). -/
def regionByKey (n key : Nat) (s : State) : Option RegionCfg := match s.boot.shadow with
  | some b => (b.regions.filter fun r => r.partition == n && r.key == key).foldl (fun o r => match o with
      | some q => if r.region < q.region then some r else o
      | none => some r) none
  | none => none

/-- READ, WRITE and ATOMIC of a region as bits 0 to 2. -/
def RegionCfg.perm (r : RegionCfg) : Nat := b2n r.read + 2 * b2n r.write + 4 * b2n r.atomic

/-- Ask for one region (R447): the module's own is looked up at once, any other by a RESOLVE. -/
def askRegion (j : Job) (s : State) (p : Nat × Nat) : State :=
  let wait := onFab (fun f => { f with resolves := f.resolves ++ [⟨j.part, j.num, p.1, p.2⟩] }) s
  if p.1 == seatOf s % 64 then
    match regionByKey j.part p.2 s with
    | some r => onJob j.part j.num (fun j => { j with run := j.run.map fun q => { q with
        regions := q.regions ++ [⟨p.1, p.2, r.base, r.size * 2 ^ 21, r.perm⟩] } }) s
    | none => wait
  else sendAgent j.part p.1 0x01 [pack [(p.2, 0, 32)]] wait

/-- The member of a dispatch group that is not a member of the pod (R466). -/
def groupOutside (j : Job) (s : State) : Bool :=
  (List.range j.mapCount).any fun i =>
    !mLocal (j.rmap i) && (mGroup (j.rmap i)).any fun d => podMembers? s ≤ d

/-! Declarations (R306, R483). -/

/-- The module at the other end of a channel takes part in the run: a consumer on another module. -/
def Channel.outward (own : Nat) (h : Channel) : Bool := h.dstSeat != own

/-- A channel whose producer is on another module. -/
def Channel.inward (own : Nat) (j : Job) (h : Channel) : Bool := h.dstSeat == own && !h.localSrc own j

/-- The first two words of a channel's entry. -/
def Channel.words (h : Channel) : List W64 :=
  [pack [(h.srcTile, 54, 10), (h.srcIndex, 50, 4), (h.dstTile, 40, 10), (h.dstIndex, 36, 4), (h.dstSeat, 24, 12), (h.depth, 20, 4)],
   pack [(h.entryBytes, 32, 32)]]

/-- A declaration is about a channel: the same tiles, indices and consumer. -/
def Channel.named (h : Channel) (c0 : W64) : Bool :=
  fld c0 63 24 == fld ((h.words).getD 0 0) 63 24

/-- DEPTH and ENTRY_BYTES agree. -/
def Channel.agrees (h : Channel) (c0 c1 : W64) : Bool := fld c0 23 20 == h.depth && fld c1 63 32 == h.entryBytes

/-- The declaration of a peer about a remote channel of a job: from the consumer's seat, or for the consumer from any seat but its
own. -/
def declFor (own : Nat) (j : Job) (h : Channel) : Option (Nat × W64 × W64) := j.decls.findSome? fun d => match d with
  | .channel seat c0 c1 =>
    if h.named c0 && (if h.outward own then seat == h.dstSeat else seat != own) then some (seat, c0, c1) else none
  | .group _ _ _ _ => none

/-- Words of a digest. -/
def seatDigestWords (d : Digest) : List W64 := (List.range 6).map fun i => BitVec.ofNat 64 (d.toNat >>> (64 * i))

/-- The digest of a group's seat list (R483). -/
def Job.seatDigest (j : Job) (g : Nat) : Digest :=
  Config.sha384 ((j.csection.drop (8 * (j.groupAt g + 1))).take (8 * ((j.ranks g + 31) / 32)))

/-- OP, ALGO and element count or BYTES of each descriptor on a group (R483). -/
def Job.groupDescs (j : Job) (g : Nat) : List (Nat × Nat × Nat) :=
  ((List.range j.cdescCount).filter fun i => cGroup (j.cdesc i) == g).map fun i =>
    let c := j.cdesc i
    let elements := ((cSegs c).map fun q => ((j.seg q).map fun x => (segFields x.words).elements).getD 0).sum
    (cOp c, cAlgo c, if cOp c < 2 || cOp c == 5 then elements else cBytes c)

/-- Send a declaration to a seat: on VL4 in the pod, as a DMT message of class 4 beyond it (R457, R466). -/
def sendDeclaration (n seat : Nat) (words : List W64) (s : State) : State :=
  if seat / 64 == seatOf s / 64 then sendAgent n (seat % 64) 0x04 words s
  else dmtSend n seat 4 0 0 (packet 4 0xC3 (seat % 64) (seatOf s % 64) 0 true true (0x04 * 2 ^ 24) 0 0 []).h0 (ofWords words) s

/-- Step 3 of R306: a producer declares its remote channels, each rank its groups; a consumer answers what has come already. -/
def declare (j : Job) (s : State) : State :=
  let own := seatOf s
  let s := (j.channels.filter (Channel.outward own)).foldl (fun s h => sendDeclaration j.part h.dstSeat h.words s) s
  let s := (j.channels.filter (Channel.inward own j)).foldl (fun s h => match declFor own j h with
    | some d => sendDeclaration j.part d.1 h.words s
    | none => s) s
  if j.csection.isEmpty then s
  else (List.range j.groupCount).foldl (fun s g =>
    let words := BitVec.ofNat 64 g :: seatDigestWords (j.seatDigest g) ++
      (j.groupDescs g).flatMap fun d => [pack [(d.1, 60, 4), (d.2.1, 58, 2)], BitVec.ofNat 64 d.2.2]
    ((List.range (j.ranks g)).filter (· != j.myRank g)).foldl (fun s q => sendDeclaration j.part (j.rankSeat g q) words s) s) s

/-- A rank's declaration of a group. -/
def groupDecl (j : Job) (g rank : Nat) : Option (Digest × List (Nat × Nat × Nat)) := j.decls.findSome? fun d => match d with
  | .group seat k dig ds => if k == g && seat == j.rankSeat g rank then some (dig, ds) else none
  | .channel _ _ _ => none

/-- The other ranks of every group, as (group, rank). -/
def otherRanks (j : Job) : List (Nat × Nat) :=
  if j.csection.isEmpty then []
  else (List.range j.groupCount).flatMap fun g => ((List.range (j.ranks g)).filter (· != j.myRank g)).map fun q => (g, q)

/-- The remote channels of a job. -/
def remoteChannels (own : Nat) (j : Job) : List Channel := j.channels.filter fun h => h.outward own || h.inward own j

/-- A declaration that has come differs from the own one. -/
def mismatch (own : Nat) (j : Job) : Bool :=
  ((remoteChannels own j).any fun h => match declFor own j h with
    | some d => !h.agrees d.2.1 d.2.2
    | none => false) ||
  (otherRanks j).any fun p => match groupDecl j p.1 p.2 with
    | some d => d.1 != j.seatDigest p.1 || d.2 != j.groupDescs p.1
    | none => false

/-- Every declaration has come. -/
def declared? (own : Nat) (j : Job) : Bool :=
  ((remoteChannels own j).all fun h => (declFor own j h).isSome) && (otherRanks j).all fun p => (groupDecl j p.1 p.2).isSome

/-! Repairs before the curtain count (R511, R513, R514). -/

/-- After an ABANDON the held accumulators are cleared, and each segment with a dirty copy emits it again (R511). -/
def clearHeld (j : Job) (s : State) : State :=
  if !j.coll.abandoned then s
  else
    let s := (j.segs.filter fun g => g.acc == 1).foldl (fun s g =>
      onSeg j g.index (fun q => { q with acc := 0 }) (clearAcc (segFields g.words) s)) s
    let s := (j.segs.filter Segment.copyDirty).foldl (fun s g =>
      onSeg j g.index (fun q => { q with copyDirty := false }) (emitCopy j (segFields g.words) g.slot g.step s)) s
    onColl j (fun c => { c with abandoned := false }) s

/-- What the module repairs before the curtain count: every segment of a REJOIN package, else what an applied step left. -/
def startRepairs (j : Job) (s : State) : State :=
  if j.csection.isEmpty then s
  else
    let s := onColl j (fun c => { c with startWait := true }) s
    if j.rejoin then pumpRepairs j (j.segs.foldl (fun s g => addRepair j { seg := g.index, kind := 1 } s) s)
    else stepRepairs j s

/-- The repairs are over. -/
def repaired (j : Job) : Bool := !j.coll.startWait || (j.coll.repairs.isEmpty && j.segs.all fun g => !g.flipPending)

/-! The curtain count (R136 to R138, R170). -/

/-- The tiles issue (R306): a count that has passed starts them at once, and each counts a late curtain (R137). -/
def beginRun (j : Job) (count : W64) (late : Bool) (s : State) : State :=
  let own := seatOf s
  let s := onJob j.part j.num (fun j => { j with
    decls := [], coll := { j.coll with startWait := false },
    channels := j.channels.map fun h => if h.inward own j then { h with srcSeat := (declFor own j h).map Prod.fst } else h,
    tiles := j.tiles.map fun x => { x with state := 2, extra := if late then { x.extra with late := count32 x.extra.late 1 } else x.extra },
    run := j.run.map fun r => { r with started := true, start := count, ready := true } }) s
  let s := match j.coll.applied with
    | some a => onColl j (fun c => { c with applied := none }) (writeCommitRecord j a s)
    | none => s
  let s := if late then j.tiles.foldl (fun s x =>
      raiseJ j 0x2008 (unitTile x.tile) (now s - count) (onPart j.part (fun p => { p with lateCurtains := p.lateCurtains + 1 }) s)) s
    else s
  planStep j.part (holdAtStart j s)

/-- Steps 1 to 3 of R306 are over: regions, declarations, repairs. -/
def waitsOver (j : Job) (s : State) : Bool :=
  s.fab.resolves.all (fun q => !(q.part == j.part && q.job == j.num)) && declared? (seatOf s) j && repaired j

/-- The count is learned once the counter allows it (R138, R170): CURTAIN 0 when LOCKED, at a count that the agents agree, otherwise out
of UNSYNCED. -/
def learnCount (j : Job) (r : Run) (s : State) : Option (W64 × State) :=
  match r.count with
  | some c => some (c, s)
  | none =>
    let set := fun (c : W64) (s : State) => onJob j.part j.num (fun j => { j with run := j.run.map fun r => { r with count := some c } }) s
    if r.curtain == 0 then
      if locked s then
        let (v, s) := freeWord s
        let c := if now s + v < now s then now s else now s + v
        some (c, set c s)
      else none
    else if s.cwk.state == .unsynced then none
    else some (r.curtain, set r.curtain s)

/-- A run that waits goes on as far as it can (R306, R138). -/
def tryBegin (j : Job) (s : State) : State :=
  let j := fresh j s
  match j.run with
  | none => s
  | some r =>
    if !r.setup || r.started then s
    else if mismatch (seatOf s) j then completeRun j 0x0002 s
    else if !waitsOver j s then s
    else match learnCount j r s with
      | none => s
      | some (c, s) =>
        let ready := r.ready
        let s := onJob j.part j.num (fun j => { j with run := j.run.map fun r => { r with ready := true } }) s
        if c ≤ now s then beginRun (fresh j s) c (!ready && c < now s) s else s

/-- Every run that waits goes on. -/
def tryBeginAll (s : State) : State := s.jobs.foldl (fun s j => tryBegin j s) s

/-! RUN_START. -/

/-- Two runs have a tile with a list in common. -/
def shareTile (a b : Job) : Bool := a.tiles.any fun x => b.tiles.any fun y => x.tile == y.tile

/-- A START_JOB waits in its slot (R306, R517): its job runs, a tile of it is in another normal run, or another filler run is there. -/
def startWaits (j : Job) (filler : Bool) (s : State) : Bool :=
  j.run.isSome || s.jobs.any fun k => k.part == j.part && match k.run with
    | some r => if filler then r.filler else !r.filler && shareTile j k
    | none => false

/-- The optimiser table as the job's run takes it, or the completion status that refuses it (R350, R356, R483). -/
def takeTable (j : Job) (s : State) : Except (Nat × Nat) (Option OptTable × List (List W64)) :=
  if j.csection.isEmpty || j.optTable == 0 then .ok (none, [])
  else
    let t := readTable j.optTable s.mem
    let ws := readSegs t s.mem
    match tableFail j t ws s with
    | some i => .error (0x0002, i)
    | none => if 4096 < ws.length + otherSegments j.part j.num s then .error (0x0006, 0) else .ok (some t, ws)

/-- The first region of a run that lies outside the pod (R447, R466). -/
def pairOutside (j : Job) (s : State) : Option (Nat × Nat) := j.resolvePairs.find? fun p => podMembers? s ≤ p.1

/-- A region cannot be resolved (R447). -/
def resolveFailed (j : Job) (p : Nat × Nat) (s : State) : State := raiseJ j 0x800A (unitPart j.part) (pack [(p.1, 32, 6), (p.2, 0, 32)]) s

/-- A run that passes every check is set up and waits for what R306 has it wait for. At a job's first run the partition's flows start again
(R460); DESIGN CHOICE (log 140): not while another run of the partition goes on. -/
def launch (j : Job) (r : Run) (table : Option OptTable) (segs : List (List W64)) (s : State) : State :=
  let s := onFab (fun f => { f with resolves := f.resolves.filter fun q => !(q.part == j.part && q.job == j.num) }) s
  let s := clearHeld (fresh j s) (setUpRun j r table segs (if j.opened || s.jobs.any (fun k => k.part == j.part && k.running) then s
    else restartFlows j.part s))
  let s := onJob j.part j.num (fun j => { j with opened := true }) s
  let s := declare (fresh j s) (j.resolvePairs.foldl (askRegion j) s)
  tryBegin j (startRepairs (fresh j s) s)

/-- RUN_START: a START_JOB that waits starts its run, or completes without running. -/
def runStart (port q seq : Nat) (s : State) : State :=
  match partOfPort port s, commandOf port q seq s with
  | some n, some c =>
    if c.opcode != 2 || c.state != .started || (partOf n s).state != 2 ||
        s.jobs.any (fun j => match j.run with
          | some r => r.port == port && r.qp == q && r.seq == seq
          | none => false) then s
    else match jobOf n c.job s with
      | none => endWith port q seq 0x0003 s
      | some j =>
        let filler := fld (c.w 0) 8 8 == 1
        if startWaits j filler s then s
        else
          let s := startDeferred n s
          if faultBlocks n s then endWith port q seq 0x000E s
          else match takeTable j s with
            | .error (st, i) =>
              endWith port q seq st (if st == 0x0002 then jobRefused n j.num (unitPart n) 0 0x09 i s else s)
            | .ok (table, segs) =>
              match pairOutside j s with
              | some p => endWith port q seq 0x0002 (resolveFailed j p s)
              | none =>
                if groupOutside j s then endWith port q seq 0x0002 s
                else launch j { port, qp := q, seq, filler, curtain := c.w 4, setup := true } table segs s
  | _, _ => s

/-- RUN_START. -/
def execRunStart (port qp seq : Nat) (s : State) : Host.Outcome State Fault Refusal := .next (runStart port qp seq s)

/-! What a waiting run hears. -/

/-- RESOLVE (R447): the agent looks among the regions of the partition that holds the link, and answers. -/
def resolveArrives (k member key : Nat) (s : State) : State :=
  match partOfLink k s with
  | none => s
  | some n => match regionByKey n key s with
    | none => s
    | some r => sendAgent n member 0x01 [pack [(key, 0, 32), (r.perm, 32, 3)], BitVec.ofNat 64 r.base, BitVec.ofNat 64 (r.size * 2 ^ 21)] s

/-- RESOLVE. -/
def execResolve (link member key : Nat) (s : State) : Host.Outcome State Fault Refusal := .next (resolveArrives link member key s)

/-- RESOLVE_REPLY (R447): every run of the partition that waits for the region learns it. -/
def resolveReply (k member key base size perm : Nat) (s : State) : State :=
  match partOfLink k s with
  | none => s
  | some n =>
    let mine := s.fab.resolves.filter fun q => q.part == n && q.member == member && q.key == key
    let s := onFab (fun f => { f with resolves := f.resolves.filter fun q => !(q.part == n && q.member == member && q.key == key) }) s
    mine.foldl (fun s q => match jobOf n q.job s with
      | some j => tryBegin j (onJob n q.job (fun j => { j with run := j.run.map fun r => { r with
          regions := r.regions ++ [⟨member, key, base, size, perm⟩] } }) s)
      | none => s) s

/-- RESOLVE_REPLY. -/
def execResolveReply (link member key base size perm : Nat) (s : State) : Host.Outcome State Fault Refusal :=
  .next (resolveReply link member key base size perm s)

/-- No region has answered within 1 ms (R447): the START_JOB completes INVALID_FIELD without running. -/
def resolveTimeout (part num : Nat) (s : State) : State :=
  match s.fab.resolves.find? fun q => q.part == part && q.job == num, jobOf part num s with
  | some q, some j =>
    if j.running then s else completeRun j 0x0002 (resolveFailed j (q.member, q.key) s)
  | _, _ => s

/-- REGION_RESOLVE_TIMEOUT. -/
def execRegionResolveTimeout (partition job : Nat) (s : State) : Host.Outcome State Fault Refusal :=
  .next (resolveTimeout partition job s)

/-- A loaded job that a declaration is about. -/
def declaredIn (own : Nat) (d : Declared) (j : Job) : Bool := match d with
  | .channel seat c0 _ => (remoteChannels own j).any fun h => h.named c0 && (if h.outward own then seat == h.dstSeat else seat != own)
  | .group seat g _ _ => !j.csection.isEmpty && g < j.groupCount && (List.range (j.ranks g)).any fun q => j.rankSeat g q == seat

/-- The job that takes a declaration: one whose run waits, else one without a run, else one whose run goes on and which keeps the
declaration for its next run. -/
def declTarget (n own : Nat) (d : Declared) (s : State) : Option Job :=
  let fits := s.jobs.filter fun j => j.part == n && declaredIn own d j
  (fits.find? fun j => j.run.isSome && !j.running).orElse fun _ => (fits.find? fun j => !j.running).orElse fun _ => fits.head?

/-- CHANNEL_DECLARE (R306, R483): kept until the run's set-up; a consumer whose run waits answers with its own declaration. -/
def declareArrives (k : Nat) (d : Declared) (s : State) : State :=
  match partOfLink k s with
  | none => s
  | some n =>
    let own := seatOf s
    match declTarget n own d s with
    | none => s
    | some j =>
      let s := onJob n j.num (fun j => { j with decls := d :: j.decls }) s
      let s := match d, j.run.isSome && !j.running with
        | .channel seat c0 _, true =>
          ((remoteChannels own j).filter fun h => h.named c0 && h.inward own j).foldl (fun s h => sendDeclaration n seat h.words s) s
        | _, _ => s
      tryBegin j s

/-- CHANNEL_DECLARE. -/
def execChannelDeclare (link : Nat) (declared : Declared) (s : State) : Host.Outcome State Fault Refusal :=
  .next (declareArrives link declared s)

/-! The counter. -/

/-- The Clockwork counter reaches a curtain count (R136): waiting runs start, and at a step curtain count the governor plans the step
(R559). -/
def curtainReached (count : W64) (s : State) : State :=
  let s := { s with cwk := { s.cwk with now := if now s < count then count else now s } }
  let s := tryBeginAll s
  (partIds s).foldl (fun s n =>
    if s.jobs.any fun j => j.part == n && match j.run with
      | some r => r.started && r.stepCurtains.contains count
      | none => false
    then planStep n s else s) s

/-- CURTAIN_COUNT_REACHED. -/
def execCurtainCountReached (count : W64) (s : State) : Host.Outcome State Fault Refusal := .next (curtainReached count s)

/-- SYNC_INTERVAL_TIMER. -/
def execSyncIntervalTimer (t1 : W64) (refs : List Nat) (s : State) : Host.Outcome State Fault Refusal :=
  .next (tryBeginAll (decideAll (syncInterval t1 refs s)))
/-- SYNC_RESP. -/
def execSyncResp (link seat : Nat) (t1 t2 t3 t4 : W64) (s : State) : Host.Outcome State Fault Refusal :=
  .next (tryBeginAll (decideAll (syncResp link seat t1 t2 t3 t4 s)))

/-- SYNCIN_EDGE: the first edge leaves UNSYNCED, and runs that waited for it go on (R138). -/
def execSyncinEdge (at8 : W64) (s : State) : Host.Outcome State Fault Refusal := .next (tryBeginAll (decideAll (syncinEdge at8 s)))

/-! Orders (R181 to R187): a resynchronisation may leave UNSYNCED, and runs that waited for it go on (R138). -/

/-- ORDER_POWER_CAP. -/
def execOrderPowerCap (mid : Nat) (word : W64) (last : Bool) (s : State) : Host.Outcome State Fault Refusal :=
  .next (tryBeginAll (enterOrder mid (withKind 1 word) last s))
/-- ORDER_CLOCK_RESYNC. -/
def execOrderClockResync (mid : Nat) (word : W64) (last : Bool) (s : State) : Host.Outcome State Fault Refusal :=
  .next (tryBeginAll (enterOrder mid (withKind 2 word) last s))
/-- ORDER_LINK_DISABLE. -/
def execOrderLinkDisable (mid : Nat) (word : W64) (last : Bool) (s : State) : Host.Outcome State Fault Refusal :=
  .next (tryBeginAll (enterOrder mid (withKind 3 word) last s))
/-- ORDER_LINK_ENABLE. -/
def execOrderLinkEnable (mid : Nat) (word : W64) (last : Bool) (s : State) : Host.Outcome State Fault Refusal :=
  .next (tryBeginAll (enterOrder mid (withKind 4 word) last s))
/-- ORDER_PARTITION_RESET. -/
def execOrderPartitionReset (mid : Nat) (word : W64) (last : Bool) (s : State) : Host.Outcome State Fault Refusal :=
  .next (tryBeginAll (enterOrder mid (withKind 5 word) last s))
/-- ORDER_MODULE_RESET. -/
def execOrderModuleReset (mid : Nat) (word : W64) (last : Bool) (s : State) : Host.Outcome State Fault Refusal :=
  .next (tryBeginAll (enterOrder mid (withKind 6 word) last s))
/-- ORDER_RESERVED_KIND (R184): a KIND that is not one of the six completes INVALID. -/
def execOrderReservedKind (mid : Nat) (word : W64) (last : Bool) (s : State) : Host.Outcome State Fault Refusal :=
  .next (if inRange (orderKind word) 1 6 then s else tryBeginAll (enterOrder mid word last s))

/-! Repairs of a run that waits. -/

/-- A collective message that may end the repairs of a run that waits. -/
def repairMessage (ctype link : Nat) (h0 h1 : W64) (data : List Byte) (s : State) : State :=
  tryBeginAll (collMessage ctype link h0 h1 data s)

/-- COLL_DATA. -/
def execCollData (link : Nat) (h0 h1 : W64) (data : List Byte) (s : State) : Host.Outcome State Fault Refusal :=
  .next (repairMessage 3 link h0 h1 data s)
/-- COLL_DIGEST. -/
def execCollDigest (link : Nat) (h0 h1 : W64) (data : List Byte) (s : State) : Host.Outcome State Fault Refusal :=
  .next (repairMessage 8 link h0 h1 data s)

/-- Every lane of a segment has finished; in a run that waits for its repairs the redone update is proven next (R512, R513). -/
def updateDone (part num i : Nat) (failed : Option Nat) (s : State) : State :=
  let s := segmentDone part num i failed s
  match jobOf part num s with
  | some j => if j.coll.startWait then tryBegin j (if j.rejoin then s else stepRepairs j s) else s
  | none => s

/-- SEGMENT_UPDATE_DONE. -/
def execSegmentUpdateDone (partition job segment : Nat) (failed : Option Nat) (s : State) : Host.Outcome State Fault Refusal :=
  .next (updateDone partition job segment failed s)

end Sys2Proof.Machine
end

