-- ==== Sys2Proof/Machine/DeadTargets.lean ====
section
/-! DEFINITION. Machine/DeadTargets.lean: waits for other modules that have lasted too long (11 R411, 12 R453, R454, 13 R489), and what the
agents relay (02 R44, 12 R457). -/
namespace Sys2Proof.Machine

/-- A wait that has lasted DEAD_TARGET_MS: partition, job, member. -/
structure DeadWait where
  part : Nat
  job : Nat
  member : Nat
deriving DecidableEq, Repr

/-- Memory requests and channel writes without an answer (R453). -/
def deadRequests (s : State) : List DeadWait := (s.fab.reqs.filter fun r => tooLong r.since s).map fun r => ⟨r.part, r.job, r.member⟩

/-- Segments of DMT flows without an acknowledgement, those that wait for an address too (R453, R462, R465). Sync, heartbeats and agent messages
are no requests: a peer's death causes no teardown by itself (R455; DEDUCED, log 140). -/
def deadSegments (s : State) : List DeadWait :=
  (s.fab.tx.filter fun f => f.cls != 4 && f.segs.any fun g => tooLong g.since s).map fun f =>
    ⟨f.part, ((s.jobs.find? fun j => j.part == f.part && j.running).map Job.num).getD 0, f.seat % 64⟩

/-- Collective requests, repairs and decisions that wait for other ranks (R489, R504, R510). -/
def deadCollectives (s : State) : List DeadWait :=
  s.jobs.filterMap fun j =>
    if !j.running then none
    else
      let run := j.coll.runs.find? fun r => r.started && cOp (j.cdesc r.cdesc) != 7 && tooLong r.since s
      let rep := j.coll.repairs.find? fun r => r.asked && tooLong r.since s
      let vote := match j.coll.vote.since with
        | some t => j.coll.vote.contributed.isSome && tooLong t s
        | none => false
      match run, rep with
      | some r, _ =>
        let c := j.cdesc r.cdesc
        let g := cGroup c
        some ⟨j.part, j.num, j.rankSeat g ((j.myRank g + j.ranks g - 1) % max 1 (j.ranks g)) % 64⟩
      | none, some r => some ⟨j.part, j.num, j.replicaSeat r.seg r.k % 64⟩
      | none, none => if vote then some ⟨j.part, j.num, j.rankSeat j.voteGroup 1 % 64⟩ else none

/-- The member whose message a ROUTE request waits for (R411), if it waits for one. DESIGN CHOICE: where the rows of an expert-side use
are due from several members, the lowest other one of the dispatch group is named. -/
def awaited (j : Job) (r : RReq) (s : State) : Option Nat :=
  let d := j.jdesc r.desc
  let own := selfOf (j.rmap (dMap d)) s
  let home := fun (u : TUse) (c : Nat × Nat) => (j.home (dMap d) (u.choices.getD (c.1 * dK d + c.2) 512)).1
  let others := (groupOf (j.rmap (dMap d))).filter (· != own)
  let noGrant := fun (u : TUse) => ((choicesOf d r.row r.rows).filter fun c =>
    u.choices.getD (c.1 * dK d + c.2) 512 != 512).findSome? fun c =>
      if home u c != own && !u.grants.any (fun g => g.1 == home u c) then some (home u c) else none
  let target := fun (c : Nat × Nat) => bits (rdRecord d r.micro c.1 c.2 s) 60 55
  let live := (choicesOf d r.row r.rows).filter fun c => !(rdRecord d r.micro c.1 c.2 s).testBit 62
  match dKind d, r.side with
  | 0, 0 => match j.tuse r.desc r.micro with
    | some u =>
      if !r.admitted then none
      else if r.op == 0 then (if u.counted.isSome then noGrant u else none)
      else live.findSome? fun c => if target c != own && !u.ready.contains (target c) then some (target c) else none
    | none => none
  | 0, _ => match j.tuse r.desc r.micro with
    | some u =>
      if !u.covered.isEmpty && !choicesKnown j d u r.row r.rows then (if u.counted.isSome then noGrant u else none)
      else
        let mask := if r.op == 3 then u.ret else u.combine
        live.findSome? fun c => if target c != own && !mask.testBit (c.1 * dK d + c.2) then some (target c) else none
    | none => none
  | 1, _ => match (j.quse (dQueue d) (r.op == 3 || r.grad) r.micro).filter fun u => !u.freed with
    | some u =>
      if u.frame.isNone then none
      else if u.used.isSome && slotsReady u r then none
      else others.head?
    | none => none
  | _, _ => none

/-- ROUTE requests that have waited too long (R411). -/
def deadRoutes (s : State) : List DeadWait :=
  s.jobs.flatMap fun j => if !j.running then [] else
    (j.route.reqs.filter fun r => tooLong r.since s).filterMap fun r => (awaited j r s).map fun m => ⟨j.part, j.num, m⟩

/-- The first wait of each partition. -/
def firstOfParts : List Nat → List DeadWait → List DeadWait
  | [], _ => []
  | n :: r, l => (match l.find? fun w => w.part == n with
      | some w => [w]
      | none => []) ++ firstOfParts r l

/-- DEAD_TARGET_CHECK (R453): a partition with a wait that has lasted DEAD_TARGET_MS is torn down. -/
def deadTargetCheck (s : State) : State :=
  let ws := deadRequests s ++ deadSegments s ++ deadRoutes s ++ deadCollectives s
  (firstOfParts (partIds s) ws).foldl (fun s w => teardown w.part w.job w.member s) s

/-- DEAD_TARGET_CHECK. -/
def execDeadTargetCheck (s : State) : Host.Outcome State Fault Refusal := .next (deadTargetCheck s)

/-- REPORT (R44, R457): a module with an Ethernet-mode link passes a report on to the fabric manager; what the fabric manager sends is
taken as if it had come on the link. -/
def report (k : Nat) (m : Relay) (s : State) : State := match m with
  | .up kind words => reportFm kind words s
  | .down src f => tryBeginAll (fabricManager k src f s)

/-- REPORT. -/
def execReport (link : Nat) (message : Relay) (s : State) : Host.Outcome State Fault Refusal := .next (report link message s)

/-- FABRIC_MANAGER_MESSAGE (R44): on an Ethernet-mode link; no other link carries such a packet. -/
def execFabricManagerMessage (link : Nat) (message : FmPacket) (s : State) : Host.Outcome State Fault Refusal :=
  .next (if (linkCfg link s).mode == 2 then tryBeginAll (fabricManager link message.src message.body s) else s)

end Sys2Proof.Machine
end

