-- ==== Sys2Proof/Machine/Mailboxes.lean ====
section
/-! DEFINITION. Machine/Mailboxes.lean: mailbox channels (05_partitions_and_host_ports.md R157 to R162). -/
namespace Sys2Proof.Machine

/-- BAR0 offset of a channel (R157). -/
def chanOffset (c : Nat) : Nat := 0x10000 + 0x400 * c

/-- Whether a MID is a channel's sender. -/
def isSender (m : Mailbox) (mid : Nat) : Bool := match m.bind with
  | some b => b.sender == mid
  | none => false

/-- Whether a MID is a channel's receiver. -/
def isReceiver (m : Mailbox) (mid : Nat) : Bool := match m.bind with
  | some b => b.receiver == mid
  | none => false

/-- The host-access-error of a write to a channel by a master that is not its sender (R160). DESIGN CHOICE (log 202): a master that is no
host has no port and no partition, so UNIT is its MID and the event goes where the channel's partition is, a device channel's to the log
and the management port. -/
def mailAccessError (mid c offset : Nat) (s : State) : State :=
  if inRange mid 0x10 0x13 then hostAccessError (mid - 0x10) offset s
  else match (chan c s).bind with
    | some b => if b.partitionValid then raiseP b.partition 0x3002 (unitMid mid) (BitVec.ofNat 64 offset) s
                else raiseM none 0x3002 (unitMid mid) (BitVec.ofNat 64 offset) s
    | none => raiseM none 0x3002 (unitMid mid) (BitVec.ofNat 64 offset) s

/-- A write to MB_SEND (R158, R160). -/
def mbSend (mid c len : Nat) (s : State) : State :=
  let m := chan c s
  if isSender m mid then
    if !m.full && inRange len 1 256 then postMessage c len s
    else onChan c (fun m => { m with refused := satInc 0xFF m.refused }) s
  else mailAccessError mid c (chanOffset c + 8) s

/-- MB_SEND. -/
def execMbSend (mid channel length : Nat) (s : State) : Host.Outcome State Fault Refusal := .next (mbSend mid channel length s)

/-- A write to MB_DATA (R151, R158, R160): 4, 8, 16, 32 or 64 bytes, naturally aligned; from the sender while FULL is 0. -/
def mbData (mid c off : Nat) (data : List Byte) (s : State) : State :=
  let m := chan c s
  let n := data.length
  if !([4, 8, 16, 32, 64].contains n && off % n == 0 && off + n ≤ 256) then
    if inRange mid 0x10 0x13 then send (.unsupported (mid - 0x10)) s else s
  else if isSender m mid then
    if m.full then s else onChan c (fun m => { m with data := writeBytes m.data off data }) s
  else mailAccessError mid c (chanOffset c + 0x100 + off) s

/-- MB_DATA_WRITE. -/
def execMbDataWrite (mid channel offset : Nat) (data : List Byte) (s : State) : Host.Outcome State Fault Refusal :=
  .next (mbData mid channel offset data s)

/-- Post the oldest reply that waits for a channel, once the channel is free (R164). -/
def pumpReplies (c : Nat) (s : State) : State :=
  match s.replies.find? fun r => r.1 == c with
  | some r =>
    if (chan c s).full then s
    else
      let s := { s with replies := s.replies.erase r }
      postMessage c r.2.length (onChan c (fun m => { m with data := writeBytes m.data 0 r.2 }) s)
  | none => s

/-- Take the message of a channel (R159): the channel is cleared, the sender's host gets vector 17 (R162), and a reply that
waited for the channel is posted. -/
def takeMessage (c : Nat) (s : State) : State :=
  let m := chan c s
  if m.full then
    let s := onChan c Mailbox.cleared s
    let s := match m.bind with
      | some b => if inRange b.sender 0x10 0x13 then msix (b.sender - 0x10) 17 s else s
      | none => s
    pumpReplies c s
  else s

/-- The value of MB_TAKE (R157, R159). -/
def takeValue (m : Mailbox) : W64 := if m.full then pack [(1, 9, 1), (m.length, 0, 9)] else 0

/-- A read of MB_TAKE (R159, R160): the receiver takes the message; the sender and every other master read zero. -/
def mbTake (mid c : Nat) (s : State) : State :=
  let m := chan c s
  if isReceiver m mid then takeMessage c (send (.regRead mid (chanOffset c + 0x10) (takeValue m)) s)
  else send (.regRead mid (chanOffset c + 0x10) 0) s

/-- MB_TAKE. -/
def execMbTake (mid channel : Nat) (s : State) : Host.Outcome State Fault Refusal := .next (mbTake mid channel s)

end Sys2Proof.Machine
end

