-- ==== Sys2Proof/Machine/HostControl.lean ====
section
/-! DEFINITION. Machine/HostControl.lean: host control messages (05 R163 to R166, R322, R623). -/
namespace Sys2Proof.Machine

/-- The body length that Table 5.8 gives a request type, in bytes. -/
def controlBody : Nat → Option Nat
  | 0x0010 => some 24
  | 0x0011 => some 8
  | 0x0020 => some 16
  | 0x0021 => some 0
  | 0x0030 => some 8
  | 0x0040 => some 16
  | _ => none

/-- The body bits that Table 5.8 or Table 5.9 does not name are zero (R164). -/
def controlUnnamedZero (type : Nat) (w : Nat → W64) : Bool :=
  match type with
  | 0x0010 => fld (w 2) 63 24 == 0 && fld (w 2) 7 4 == 0
  | 0x0011 => fld (w 0) 63 4 == 0
  | 0x0020 => fld (w 1) 63 4 == 0
  | _ => true

/-- A host control message as firmware reads it: the sending port, TYPE, TAG, STATUS field and RSVD bytes, body words. -/
structure ControlMsg where
  port : Nat
  type : Nat
  tag : Nat
  status : Nat
  rsvd : Nat
  len : Nat
  body : List W64
deriving DecidableEq, Repr

/-- The message waiting on a request channel, host to puppeteer core (R163). -/
def controlMsg (c : Nat) (s : State) : Option ControlMsg :=
  let m := chan c s
  match m.bind with
  | some b =>
    if m.full && inRange b.sender 0x10 0x13 && inRange b.receiver 0x20 0x27 then
      let bs := m.data.take m.length
      let h := fun lo n => leNat ((bs.drop lo).take n)
      some { port := b.sender - 0x10, type := h 0 2, tag := h 2 2, status := h 4 2, rsvd := h 6 2, len := m.length,
             body := toWords (bs.drop 8) }
    else none
  | none => none

/-- The bytes of a reply (R164): TYPE + 0x8000, the TAG, STATUS, RSVD, then the body. -/
def replyBytes (type tag status : Nat) (body : List W64) : List Byte :=
  leBytes 2 (type + 0x8000) ++ leBytes 2 tag ++ leBytes 2 status ++ leBytes 2 0 ++ ofWords body

/-- Answer a request on the channel bound in the opposite direction (R164). -/
def answer (c : Nat) (m : ControlMsg) (status : Nat) (body : List W64) (s : State) : State :=
  match replyChannel c s with
  | some r => reply r (replyBytes m.type m.tag status body) s
  | none => s

/-- Requests of a channel wait while a QP_DELETE of the channel has not replied (R166). -/
def channelBusy (c : Nat) (s : State) : Bool :=
  s.ports.any fun p => p.qps.any fun q => match q with
    | some q => q.deleting && q.deleteChannel == c
    | none => false

/-- The shape checks of R164 point 3. -/
def badControl (m : ControlMsg) : Bool :=
  match controlBody m.type with
  | some n => m.len != 8 + n || m.status != 0 || m.rsvd != 0 || !controlUnnamedZero m.type fun i => m.body.getD i 0
  | none => true

/-- Handle the request of a TYPE waiting on a channel (R164): firmware takes it, then the first status that applies is
answered; `err` is the body of a reply whose STATUS is not OK. -/
def control (c type : Nat) (needsSubmit : Bool) (err : ControlMsg → State → List W64)
    (act : ControlMsg → State → State) (s : State) : State :=
  match controlMsg c s with
  | none => s
  | some m =>
    if m.type != type || m.len < 8 || channelBusy c s || !firmwareUp s then s
    else
      let s := takeMessage c s
      if badControl m then answer c m 0x0002 (err m s) s
      else if needsSubmit && !((masterOf (hostMid m.port) s).map MasterCfg.submit).getD false then
        answer c m 0x0005 (err m s) s
      else act m s
where
  /-- firmware answers mailboxes while it runs -/
  firmwareUp (s : State) : Bool := s.boot.stage == 2 || s.boot.stage == 3 || s.boot.stage == 4

/-- HOST_CONTROL_MALFORMED (R164): a message below 8 B is discarded with a host-access-error naming the channel's MB_SEND;
an unknown TYPE is answered BAD_TYPE. Like every request it waits for a QP_DELETE of its channel, and for firmware. -/
def controlMalformed (c : Nat) (s : State) : State :=
  match controlMsg c s with
  | none => s
  | some m =>
    if channelBusy c s || !(s.boot.stage == 2 || s.boot.stage == 3 || s.boot.stage == 4) then s
    else if m.len < 8 then hostAccessError m.port (chanOffset c + 8) (takeMessage c s)
    else if (controlBody m.type).isNone then answer c m 0x0001 [] (takeMessage c s)
    else s

/-- HOST_CONTROL_MALFORMED. -/
def execHostControlMalformed (channel : Nat) (s : State) : Host.Outcome State Fault Refusal :=
  .next (controlMalformed channel s)

/-- QP_CREATE after the common checks (R165): every field first, then whether the number is in use. A host without a reply channel
cannot create a queue pair (R163). -/
def qpCreate (c : Nat) (m : ControlMsg) (s : State) : State :=
  let b := fun i => m.body.getD i 0
  let q := fld (b 2) 3 0
  let ok := fld (b 0) 11 0 == 0 && fld (b 1) 11 0 == 0 && inRange (fld (b 2) 23 16) 1 16
    && inRange (fld (b 2) 15 12) 4 12 && inRange (fld (b 2) 11 8) 4 12
  if !ok then answer c m 0x0002 [] s
  else if (replyChannel c s).isNone then s
  else if (qpOf m.port q s).isSome then answer c m 0x0003 [] s
  else
    let qp : QueuePair := { sqBase := b 0, cqBase := b 1, weight := fld (b 2) 23 16, sqLog2 := fld (b 2) 11 8,
                            cqLog2 := fld (b 2) 15 12 }
    answer c m 0x0000 [] (onPort m.port (fun p => { p with qps := p.qps.set q (some qp) }) s)

/-- QP_CREATE. -/
def execQpCreate (channel : Nat) (s : State) : Host.Outcome State Fault Refusal :=
  .next (control channel 0x0010 true (fun _ _ => []) (qpCreate channel) s)

/-- QP_DELETE after the common checks (R166): fetching stops, jobs loaded through the queue pair go, and the reply waits for the other
commands. -/
def qpDelete (c : Nat) (m : ControlMsg) (s : State) : State :=
  let q := fld (m.body.getD 0 0) 3 0
  match qpOf m.port q s with
  | none => answer c m 0x0004 [] s
  | some _ =>
    dropJobsOfQp m.port q
      (onQp m.port q (fun p => { p with deleting := true, deleteTag := m.tag, deleteChannel := c }) s)

/-- QP_DELETE. -/
def execQpDelete (channel : Nat) (s : State) : Host.Outcome State Fault Refusal :=
  .next (control channel 0x0011 false (fun _ _ => []) (qpDelete channel) s)

/-- Every command of a deleted queue pair has ended (R166): it is gone, and firmware replies OK. -/
def qpDrained (port q : Nat) (s : State) : State :=
  match qpOf port q s with
  | some p =>
    if p.deleting && p.slots.isEmpty then
      let s := onPort port (fun r => { r with qps := r.qps.set q none }) s
      match replyChannel p.deleteChannel s with
      | some r => reply r (replyBytes 0x0011 p.deleteTag 0 []) s
      | none => s
    else s
  | none => s

/-- QP_DELETE_DRAINED. -/
def execQpDeleteDrained (port qp : Nat) (s : State) : Host.Outcome State Fault Refusal := .next (qpDrained port qp s)

/-- EVENT_RING_SET after the common checks (R164, R623). A request that is both malformed and made while another host owns the ring is
answered BAD_FIELD: the checks of R164 come first (DEDUCED, log 31). -/
def ringSet (c : Nat) (m : ControlMsg) (s : State) : State :=
  let base := m.body.getD 0 0
  let log2 := fld (m.body.getD 1 0) 3 0
  match partOfPort m.port s with
  | none => answer c m 0x0005 [] s
  | some n =>
    if fld base 11 0 != 0 || !inRange log2 6 15 then answer c m 0x0002 [] s
    else
      let r := (partOf n s).ring
      if r.owner != 0 && r.owner != hostMid m.port then answer c m 0x0003 [] s
      else answer c m 0x0000 [] (onPart n (fun p => { p with ring := { p.ring with
        base, owner := hostMid m.port, entriesLog2 := log2, head := 0, tail := 0, phase := true, coalesced := 0,
        satIdx := [] } }) s)

/-- EVENT_RING_SET. -/
def execEventRingSet (channel : Nat) (s : State) : Host.Outcome State Fault Refusal :=
  .next (control channel 0x0020 false (fun _ _ => []) (ringSet channel) s)

/-- EVENT_RING_RELEASE after the common checks (R623). -/
def ringRelease (c : Nat) (m : ControlMsg) (s : State) : State :=
  match partOfPort m.port s with
  | none => answer c m 0x0004 [] s
  | some n =>
    if (partOf n s).ring.owner == hostMid m.port then
      answer c m 0x0000 [] (onPart n (fun p => { p with ring := { p.ring with owner := 0 } }) s)
    else answer c m 0x0004 [] s

/-- EVENT_RING_RELEASE. -/
def execEventRingRelease (channel : Nat) (s : State) : Host.Outcome State Fault Refusal :=
  .next (control channel 0x0021 false (fun _ _ => []) (ringRelease channel) s)

/-- An offset rounded down to a multiple of the BAR2 size (R623). -/
def roundBar2 (off log2 : Nat) : Nat := off / 2 ^ log2 * 2 ^ log2

/-- BAR2_WINDOW after the common checks (R623): the offset applied is the reply's body. -/
def bar2Window (c : Nat) (m : ControlMsg) (s : State) : State :=
  let off := roundBar2 (m.body.getD 0 0).toNat (portOf m.port s).bar2Log2
  answer c m 0x0000 [BitVec.ofNat 64 off] (onPort m.port (fun p => { p with bar2Offset := off }) s)

/-- BAR2_WINDOW: a refused request's reply holds the offset still in force (R164). -/
def execBar2Window (channel : Nat) (s : State) : Host.Outcome State Fault Refusal :=
  .next (control channel 0x0030 false (fun m s => [BitVec.ofNat 64 (portOf m.port s).bar2Offset]) (bar2Window channel) s)

end Sys2Proof.Machine
end

