-- ==== Sys2Proof/Machine/HostCommands.lean ====
section
/-! DEFINITION. Machine/HostCommands.lean: the commands of the submission queues (05 R169 to R173, 08 R305 to R309, 09 R626), the end of
a run (R307), the spill area (R322) and the host's accesses to stack memory (R142 to R149). -/
namespace Sys2Proof.Machine

/-! Fields (R169, R170). -/

/-- The RSVD bits of a submission entry are zero, and so is every field that the flags do not name as used. -/
def unusedZero (c : Command) (job prio host device length curtain : Bool) : Bool :=
  fld (c.w 0) 14 10 == 0 && (job || c.job == 0) && (prio || fld (c.w 0) 9 8 == 0) && (host || c.w 1 == 0) &&
    (if device then fld (c.w 2) 63 48 == 0 else c.w 2 == 0) && (length || c.w 3 == 0) && (curtain || c.w 4 == 0) &&
    c.w 5 == 0 && c.w 6 == 0 && c.w 7 == 0

/-- LENGTH is 1 to 2^38. -/
def lengthField (c : Command) : Bool := inRange (c.w 3).toNat 1 (2 ^ 38)

/-- The command of an opcode that may start now, with its partition. -/
def starting (op port q seq : Nat) (s : State) : Option (Nat × Command) :=
  match partOfPort port s, commandOf port q seq s with
  | some n, some c => if c.opcode == op && mayStart port q seq s then some (n, c) else none
  | _, _ => none

/-- The partition runs, outside resets and the clock-loss wait. -/
def partRuns (n : Nat) (s : State) : Bool := (partOf n s).state == 2

/-! LOAD_JOB (R62, R305, R329, R387). -/

/-- The lowest free job slot. -/
def freeJobSlot (s : State) : Option Nat := (List.range 64).find? fun i => s.jobs.all fun j => j.slot != i

/-- One buffer of a queue is allocated to the job's slot (R387). -/
def takeBuffer (slot : Nat) (s : State) (b : Nat × Nat) : State :=
  let owner := 0x480 + slot
  evalPool b.1 (onPool b.1 (fun p => { p with
    buffers := insertBuffer ⟨b.2, owner, owner, true, false, ageBase s⟩ p.buffers,
    audit := { p.audit with allocs := count32 p.audit.allocs 1 } }) s)

/-- The copy of a package of `len` bytes (R305): in the memory that jobs of the partition may use, at a place that no rule names (a free
value, log 211). A package that is too long for it is copied nowhere. -/
def copyPackage (n len : Nat) (p : List W64) (s : State) : Nat × State :=
  let (b, z) := jobRange n s
  if z < len then (b, s)
  else
    let (v, s) := freeWord s
    let place := b + v.toNat % (z - len + 1)
    (place, store place ((ofWords p).take len) s)

/-- LAST_INDEX outlives LOAD_JOB (R299). -/
def keepLast (s : State) (x : JobTile) : JobTile :=
  { x with extra := { x.extra with last := lookup0 x.tile s.dp.lastIndex } }

/-- LOAD_JOB: the package has been fetched, or its fetch has failed. -/
def loadJob (port q seq : Nat) (package : List W64) (failed : Bool) (s : State) : State :=
  match starting 1 port q seq s with
  | none => s
  | some (n, c) =>
    let done := fun st => endWith port q seq st s
    if !partRuns n s then s
    else if !unusedZero c true false true false true false || !lengthField c then done 0x0002
    else if (jobOf n c.job s).isSome then done 0x0004
    else match freeJobSlot s with
      | none => done 0x0004
      | some slot =>
        if failed then done 0x000C
        else
          let len := (c.w 3).toNat
          let p := package.take ((len + 7) / 8)
          let (place, s) := copyPackage n len p s
          let j := packageJob n c.job port q slot p
          let j := { j with place, tiles := j.tiles.map (keepLast s) }
          match loadFail n len s p j with
          | some r =>
            let unit := match r.tile with
              | some t => unitTile t
              | none => unitPart n
            endWith port q seq r.status (jobRefused n c.job unit r.stage r.typ r.index s)
          | none => endWith port q seq 0 ((j.allBuffers s).foldl (takeBuffer slot) { s with jobs := s.jobs ++ [j] })

/-- LOAD_JOB. -/
def execLoadJob (port qp seq : Nat) (package : List W64) (failed : Bool) (s : State) : Host.Outcome State Fault Refusal :=
  .next (loadJob port qp seq package failed s)

/-! START_JOB (R306, R308, R413, R517). -/

/-- BUBBLE_POLICY is FILL or BOTH. -/
def mayFill (n : Nat) (s : State) : Bool := inRange (trainCfg n s).bubblePolicy 1 2

/-- START_JOB: refused, or it counts as started and waits in its slot for RUN_START. -/
def startJob (port q seq : Nat) (s : State) : State :=
  match starting 2 port q seq s with
  | none => s
  | some (n, c) =>
    let done := fun st => endWith port q seq st s
    if !unusedZero c true true false false false true || 1 < fld (c.w 0) 9 8 then done 0x0002
    else match jobOf n c.job s with
      | none => done 0x0003
      | some j =>
        if j.run.isSome then done 0x0005
        else if fld (c.w 0) 9 8 == 1 && (!j.jsection.isEmpty || !j.csection.isEmpty || !mayFill n s) then done 0x0002
        else onCommand port q seq (fun c => { c with state := .started }) s

/-- START_JOB. -/
def execStartJob (port qp seq : Nat) (s : State) : Host.Outcome State Fault Refusal := .next (startJob port qp seq s)

/-! ABORT_JOB and UNLOAD_JOB (R170, R309, R338). -/

/-- ABORT_JOB: the run stops, and every START_JOB of the job that has started completes ABORTED. The datapaths it
leaves are granted anew (R197). -/
def abortJob (port q seq : Nat) (s : State) : State :=
  match starting 3 port q seq s with
  | none => s
  | some (n, c) =>
    if !unusedZero c true false false false false false then endWith port q seq 0x0002 s
    else match jobOf n c.job s with
      | none => endWith port q seq 0x0003 s
      | some j =>
        endWith port q seq 0 (j.tiles.foldl (fun s x => startOps x.tile s) (abortStarts j s))

/-- ABORT_JOB. -/
def execAbortJob (port qp seq : Nat) (s : State) : Host.Outcome State Fault Refusal := .next (abortJob port qp seq s)

/-- UNLOAD_JOB. -/
def unloadCommand (port q seq : Nat) (s : State) : State :=
  match starting 4 port q seq s with
  | none => s
  | some (n, c) =>
    if !unusedZero c true false false false false false then endWith port q seq 0x0002 s
    else match jobOf n c.job s with
      | none => endWith port q seq 0x0003 s
      | some j => if j.run.isSome then endWith port q seq 0x0005 s else endWith port q seq 0 (unloadJob j s)

/-- UNLOAD_JOB. -/
def execUnloadJob (port qp seq : Nat) (s : State) : Host.Outcome State Fault Refusal := .next (unloadCommand port qp seq s)

/-! COPY_IN and COPY_OUT (R626). -/

/-- A range that a copy may name: the partition's stack memory but for the spill reserve. -/
def copyRange (n a len : Nat) (s : State) : Bool :=
  let (b, z) := jobRange n s
  let above := b + z + reserveSize n s
  inside a len (b, z) || (inside a len (stackRange n s) && above ≤ a)

/-- A copy's fields: LENGTH, and its range. -/
def copyFields (n : Nat) (c : Command) (s : State) : Bool :=
  unusedZero c false false true true true false && lengthField c && copyRange n (fld (c.w 2) 47 0) (c.w 3).toNat s

/-- A copy ends with the count of the bytes moved. -/
def copyEnds (port q seq status b : Nat) (s : State) : State := endCommand port q seq status (BitVec.ofNat 64 b) false false s

/-- What a copy that ended early after b of `len` bytes may have written behind them (R626): how many bytes, and which, is open. -/
def copyTail (b len : Nat) (s : State) : List Byte × State :=
  if len ≤ b then ([], s)
  else
    let (v, s) := freeWord s
    ((List.range (v.toNat % (len - b + 1))).map (Config.freeByte v.toNat), s)

/-- COPY_IN: fewer bytes than LENGTH are what a failed DMA read left. -/
def copyIn (port q seq : Nat) (data : List Byte) (s : State) : State :=
  match starting 5 port q seq s with
  | none => s
  | some (n, c) =>
    if !partRuns n s then s
    else if !copyFields n c s then copyEnds port q seq 0x0002 0 s
    else
      let bs := data.take (c.w 3).toNat
      let (tail, s) := copyTail bs.length (c.w 3).toNat s
      copyEnds port q seq (if bs.length == (c.w 3).toNat then 0 else 0x000C) bs.length (store (fld (c.w 2) 47 0) (bs ++ tail) s)

/-- COPY_IN. -/
def execCopyIn (port qp seq : Nat) (data : List Byte) (s : State) : Host.Outcome State Fault Refusal :=
  .next (copyIn port qp seq data s)

/-- COPY_OUT: `sent` are the bytes after which a DMA write could not be sent; with the link down none can (R173). A poisoned line ends it before the line. -/
def copyOut (port q seq : Nat) (sent : Option Nat) (s : State) : State :=
  match starting 6 port q seq s with
  | none => s
  | some (n, c) =>
    if !partRuns n s then s
    else if !copyFields n c s then copyEnds port q seq 0x0002 0 s
    else
      let a := fld (c.w 2) 47 0
      let len := (c.w 3).toNat
      let move := fun b s => if b == 0 then s else send (.hostBytes port (c.w 1) (rdBytes a b s.mem)) s
      let bad := (poisoned a len s).map fun p => p - a
      let cut := if (portOf port s).linkUp then min (sent.getD len) len else 0
      match bad with
      | some off =>
        if cut < off then copyEnds port q seq 0x000C cut (move cut s)
        else copyEnds port q seq 0x000D off (memoryError (a + off) (move off s))
      | none => copyEnds port q seq (if cut == len then 0 else 0x000C) cut (move cut s)

/-- COPY_OUT. -/
def execCopyOut (port qp seq : Nat) (sent : Option Nat) (s : State) : Host.Outcome State Fault Refusal :=
  .next (copyOut port qp seq sent s)

/-! The end of a run (R307). -/

/-- RUN_END: every tile with a list is ENDED: leftovers, the leak audit, the layer digests, the statistics, the completion. -/
def runEnd (part num : Nat) (s : State) : State :=
  match jobOf part num s with
  | none => s
  | some j =>
    if !j.running || !j.allEnded then s
    else
      let left := j.leftover
      let s := (j.channels.filter fun h => h.leftover != 0).foldl (fun s h =>
        raiseJ j 0x4004 (unitTile h.dstTile) (BitVec.ofNat 64 h.leftover) s) s
      let s := reclaim part (j.tiles.map JobTile.tile) s
      let s := completeRun j 0 (publishDigests j (writeStats j left s))
      let s := onJob part num (fun j => { j with
        route := j.route.stopped, coll := j.coll.stopped, channels := j.channels.map Channel.atStart }) s
      if j.csection.isEmpty then startDeferred part s else s

/-- RUN_END. -/
def execRunEnd (partition job : Nat) (s : State) : Host.Outcome State Fault Refusal := .next (runEnd partition job s)

/-! The spill area (R322). -/

/-- SPILL_AREA after the common checks. -/
def spillArea (c : Nat) (m : ControlMsg) (s : State) : State :=
  let base := m.body.getD 0 0
  let len := (m.body.getD 1 0).toNat
  match partOfPort m.port s with
  | none => answer c m 0x0005 [] s
  | some n =>
    if fld base 11 0 != 0 || len % 4096 != 0 || !inRange len 4096 (2 ^ 37) then answer c m 0x0002 [] s
    else if s.jobs.any fun j => j.part == n && j.run.isSome then answer c m 0x0003 [] s
    else answer c m 0x0000 [] (onPart n (fun p => { p with spill := some ⟨m.port, base, len, false⟩ })
      { s with mem := zeroRange (spillWindow n) (2 ^ 37) s.mem })

/-- SPILL_AREA. -/
def execSpillArea (channel : Nat) (s : State) : Host.Outcome State Fault Refusal :=
  .next (control channel 0x0040 false (fun _ _ => []) (spillArea channel) s)

/-! BAR2 and CXL.mem (R142, R147 to R149, R312). -/

/-- The device address that an access of `len` bytes reaches: through BAR2 within its current size, or through the CXL window. -/
def windowAddr (port : Nat) (cxl : Bool) (off len : Nat) (s : State) : Option Nat :=
  match partOfPort port s with
  | none => none
  | some n =>
    let (b, z) := stackRange n s
    let w := ((partCfg n s).map fun p => p.cxlGiB * 2 ^ 30).getD 0
    let a := if cxl then b + z - w + off else b + (portOf port s).bar2Offset + off
    let ok := if cxl then (portOf port s).cxl && off + len ≤ w else off + len ≤ 2 ^ (portOf port s).bar2Log2
    if ok && inside a len (b, z) then some a else none

/-- The addresses of a host's access of `len` bytes, cut at 4 KiB: what it names in the spill reserve is the extension whose home is
there (R319). -/
def hostPieces (n : Nat) (s : State) : Nat → Nat → Nat → List (Nat × Nat)
  | 0, _, _ => []
  | fuel + 1, a, len =>
    let k := min len (4096 - a % 4096)
    if len == 0 then [] else ((extensionAt n a s).getD a, k) :: hostPieces n s fuel (a + k) (len - k)

/-- BAR2_ACCESS: one access of a host to its partition's stack memory. In D3hot a port answers configuration requests only (R150): a
memory access is an Unsupported Request (PRESUMED from the PCIe specification, log 26). -/
def bar2Access (port : Nat) (cxl : Bool) (off : Nat) (op : HostMemOp) (s : State) : State :=
  let len := match op with
    | .read n => n
    | .write d => d.length
  if !(portOf port s).linkUp then s
  else if (portOf port s).d3 then send (.unsupported port) s
  else match windowAddr port cxl off len s with
    | none => send (.unsupported port) s
    | some a =>
      let n := (partOfPort port s).getD 0
      let ps := if reserveBase n s < a + len && a < reserveBase n s + reserveSize n s then hostPieces n s (len / 4096 + 2) a len
        else [(a, len)]
      match op with
      | .write d => (ps.foldl (fun (q : State × List Byte) p =>
          (hostMetaWrite n p.1 (q.2.take p.2) (store p.1 (q.2.take p.2) q.1), q.2.drop p.2)) (s, d)).1
      | .read _ =>
        let bad := ps.findSome? fun p => poisoned p.1 p.2 s
        let s := match bad with
          | some p => memoryError p s
          | none => s
        send (.hostData port (ps.flatMap fun p => hostBytes n p.1 p.2 s) bad.isSome) s

/-- BAR2_ACCESS. -/
def execBar2Access (port : Nat) (cxl : Bool) (offset : Nat) (op : HostMemOp) (s : State) : Host.Outcome State Fault Refusal :=
  .next (bar2Access port cxl offset op s)

end Sys2Proof.Machine
end

