-- ==== Sys2Proof/Machine/Faults.lean ====
section
/-! DEFINITION. Machine/Faults.lean: errors detected, targeted self-tests, their classification, replay, sparing of cores, rows and banks,
out of service and rejoin (14_determinism_faults_recovery.md R528 to R544; 09 R325 to R328). -/
namespace Sys2Proof.Machine

/-! Units. -/

/-- The sub-unit of error-detected: array, bank or lane (Table 14.15). -/
def subUnit : TestUnit → Nat
  | .array _ i => i
  | .coreBank _ b => b
  | .clusterBank _ b => b
  | .row _ _ b _ => b
  | .linkLane _ i => i
  | _ => 0

/-- The partition whose stack memory a channel belongs to (R38). -/
def partOfChannel (c : Nat) (s : State) : Option Nat := (partCfgs s).findIdx? fun p => p.halves.testBit (c / 16)

/-- The partitions whose unit this is (R547): an engine serves every partition with a cluster on its die. -/
def partsOfUnit (u : TestUnit) (s : State) : List Nat :=
  match u with
  | .clusterBank g _ => if g % 33 < 32 then (partOfCluster (32 * (g / 33) + g % 33) s).toList else []
  | .row c _ _ _ => (partOfChannel c s).toList
  | .channel c => (partOfChannel c s).toList
  | .lane c => (partOfChannel c s).toList
  | .linkLane k _ => (partOfLink k s).toList
  | .jacks d => (partIds s).filter fun n => (diesOf n s).contains d
  | .domino d => (partIds s).filter fun n => (diesOf n s).contains d
  | .bridge => []
  | u => match (coreOfUnit u).bind fun c => servedBy c s with
    | some pos => (partOfCore pos s).toList
    | none => []

/-- The tile that an error in a core unit holds (R530): the position's own on F grade and for a core store; on E grade the tile that
the datapath served, which the command names. -/
def tileOfUnit (u : TestUnit) (tile : Nat) (s : State) : Option Nat :=
  match (coreOfUnit u).bind fun c => servedBy c s with
  | some pos => if Config.gradeF || storeUnit u then some (tileOfCore pos) else some tile
  | none => none

/-- The jobs whose runs use a unit (R528). -/
def runsOf (u : TestUnit) (tile : Option Nat) (s : State) : List Job :=
  let on := fun (f : JobTile → Bool) => s.jobs.filter fun j => j.running && j.tiles.any f
  match u with
  | .clusterBank g _ => on fun x => clusterOf x.tile == 32 * (g / 33) + g % 33
  | .jacks d => on fun x => x.tile / 512 == d
  | .domino d => on fun x => x.tile / 512 == d
  | .linkLane _ _ => []
  | .bridge => []
  | u => match coreOfUnit u, tile with
    | some _, some t => on fun x => x.tile == t
    | some _, none => []
    | none, _ => s.jobs.filter fun j => j.running && (partsOfUnit u s).contains j.part

/-- Runs complete with FAULT (R528, R535, R542). -/
def stopRuns (js : List Job) (s : State) : State :=
  js.foldl (fun s j => match jobOf j.part j.num s with
    | some j => stopRun j 0x000E s
    | none => s) s

/-- w2 of an event about a unit (R546): the job on its tile, or 0. -/
def unitW2 (tile : Option Nat) (s : State) : W64 := match tile with
  | some t => ((s.jobs.find? fun j => j.running && (j.tile t).isSome).map Job.w2).getD 0
  | none => 0

/-- Raise a fault event about a unit. -/
def raiseU (u : TestUnit) (code : Nat) (w3 : W64) (s : State) (w2 : W64 := 0) : State :=
  raiseAll (partsOfUnit u s) code (testCode u) w3 s w2

/-- The faults record in force (R60). -/
def faultCfg (s : State) : FaultCfg := match s.boot.shadow with
  | some b => b.faults
  | none => {}

/-! Replay (R535). -/

/-- A destination overlaps a source. -/
def overlapAny (ws rs : List (Nat × Nat)) : Bool := ws.any fun w => rs.any fun r => overlap w r

/-- A held instruction may be replayed (Table 14.6); `committed` as ERROR_DETECTED gives it. The index register value is the one taken
at issue. -/
def replayable (x : JobTile) (e : Entry) (committed : Bool) : Bool :=
  let w := e.word
  let x := { x with x := List.replicate 8 (BitVec.ofNat 32 e.x) }
  if !committed then true
  else match iclass w, iop w with
  | 1, _ => !((x.epi (macFields w).epi).map Epi.addWrite).getD false
  | 2, op =>
    let f := vecFields x w
    let ws := (List.range f.rows).flatMap fun i => rowRanges (x.desc f.dst) (f.row + i) (if op == 4 then 2 * f.func else f.cols)
    !(op == 0 && f.func == 3) && !overlapAny ws (if op == 4 then topkReads f x else vecReads op f x)
  | 0, 0 =>
    let n := copyCols (x.desc (ifld w 103 96)) (ifld w 31 16) (ifld w 15 0)
    !overlapAny (copyRanges (x.desc (ifld w 95 88)) (ifld w 67 48) (ifld w 47 32) (ifld w 31 16) n)
      (copyRanges (x.desc (ifld w 103 96)) ((ifld w 87 68 + x.xval w) % 2 ^ 20) (ifld w 47 32) (ifld w 31 16) n)
  | 0, 1 =>
    let n := (x.desc (ifld w 103 96)).lineLen
    let dst := x.desc (ifld w 95 88)
    let ws := (setBits (ifld w 32 0) 33).flatMap fun c =>
      copyRanges { dst with base := mcastWindow (x.tile / 512) c + dst.base % 2 ^ 24 } 0 (ifld w 67 52) 0 n
    !overlapAny ws (copyRanges (x.desc (ifld w 103 96)) ((ifld w 87 68 + x.xval w) % 2 ^ 20) (ifld w 67 52) 0 n)
  | 0, 5 => false
  | _, _ => true

/-- The instruction that a failing unit works on: the oldest of its queue. The sequencer and a core as a whole hold every queue's. -/
def workOf (u : TestUnit) (x : JobTile) : List Entry :=
  match u with
  | .array _ _ => x.arrays.take 1
  | .epilogue _ => x.arrays.take 1
  | .fetcher _ => x.fetcher.take 1
  | .vector _ => x.vector.take 1
  | .core _ => x.arrays.take 1 ++ x.fetcher.take 1 ++ x.vector.take 1
  | _ => []

/-- An instruction that may not be replayed: data-lost names its index, and the run stops (R535). -/
def checkReplay (u : TestUnit) (t : Nat) (committed : Bool) (s : State) : State :=
  s.jobs.foldl (fun s j => match j.tile t with
    | some x =>
      if !j.running then s
      else match (workOf u x).find? fun e => !replayable x e committed with
        | some e => stopRuns [j] (raiseU u 0xA007 (BitVec.ofNat 64 e.index) s j.w2)
        | none => s
    | none => s) s

/-! Errors (R528, R529). -/

/-- A self-test is started, or queued behind one of the same tile (R530, R534); an error in a unit under test joins its test. -/
def addTest (u : TestUnit) (tile : Option Nat) (s : State) : State :=
  if underTest u s then s else onFaults (fun q => { q with tests := q.tests ++ [⟨u, tile, false⟩] }) s

/-- Change a Clockwork count list of a unit. -/
def pushTime (u : TestUnit) (t : W64) : List Bucket → List Bucket
  | [] => [⟨u, [t]⟩]
  | b :: r => if b.unit == u then { b with times := t :: b.times } :: r else b :: pushTime u t r

/-- Times of a unit within `window` of now, the edge counted. -/
def recent (u : TestUnit) (window : Nat) (bs : List Bucket) (s : State) : Nat :=
  (((bs.find? fun b => b.unit == u).map Bucket.times).getD []).countP fun t => (now s).toNat ≤ t.toNat + window

/-- The unit that a corrected error counts for, and its limit in one hour (R325, R529): an SRAM bank 16, a stack channel
CHANNEL_CE_LIMIT. -/
def ceLimit (u : TestUnit) (s : State) : Option (TestUnit × Nat) :=
  match u with
  | .coreBank _ _ => some (u, 16)
  | .clusterBank _ _ => some (u, 16)
  | .row c _ _ _ => some (.channel c, (faultCfg s).channelCeLimit)
  | .channel c => some (.channel c, (faultCfg s).channelCeLimit)
  | .lane c => some (.channel c, (faultCfg s).channelCeLimit)
  | _ => none

/-- A corrected error is counted; a count that reaches its limit starts a self-test (R528, R529). -/
def countCorrected (u : TestUnit) (s : State) : State :=
  match u with
  | .linkLane k _ => onLink k (fun l => { l with fecCorrected := l.fecCorrected + 1 }) s
  | _ => match ceLimit u s with
    | none => s
    | some (v, limit) =>
      if underTest v s then s
      else
        let s := onFaults (fun q => { q with ce := pushTime v (now s) q.ce }) s
        if recent v 3600000000000 s.faults.ce s < limit then s
        else addTest v none (onFaults (fun q => { q with ce := q.ce.filter fun b => b.unit != v }) s)

/-- A lane under test: updates in progress that it works for become FAILED (R535). -/
def failUpdates (c : Nat) (s : State) : State :=
  (s.jobs.filter fun j => (partOfChannel c s) == some j.part).foldl (fun s j =>
    (j.segs.filter fun g => g.upd == 2).foldl (fun s g => failSegment j g.index c s) s) s

/-- A check fails before the result leaves its unit (R528): the unit holds and is tested. -/
def detected (u : TestUnit) (tile : Nat) (committed : Bool) (s : State) : State :=
  match u with
  | .bridge => s
  | .lane c => addTest u none (failUpdates c s)
  | .linkLane k i =>
    if underTest u s then s
    else
      let l := linkOf k s
      let s := addTest u none s
      if (linkCfg k s).narrowAllowed && l.state == 4 && l.lanePair == 0 then laneLoss k i 4 s else s
  | _ => match tileOfUnit u tile s with
    | some t => checkReplay u t committed (addTest u (some t) (holdTile t s))
    | none => addTest u none s

/-- ERROR_DETECTED: error-detected names the unit and the class, whose code no rule gives: a free value; then the class's action.
Core logic that is fused off detects nothing (R196). -/
def errorDetected (u : TestUnit) (cls : ErrClass) (tile : Nat) (s : State) : State :=
  if s.faults.out.contains u || ((coreOfUnit u).map fun c => s.faults.out.contains (.core c) || (fusedOff c && !storeUnit u)).getD false
  then s
  else
    let t := tileOfUnit u tile s
    let (v, s) := freeWord s
    let s := raiseU u 0xA001 (pack [(v.toNat, 0, 4), (subUnit u, 8, 8)]) s (unitW2 t s)
    match cls with
    | .corrected => countCorrected u s
    | .detected committed => detected u tile committed s
    | .lost place =>
      let s := raiseU u 0xA007 (BitVec.ofNat 64 place) s (unitW2 t s)
      match u with
      | .bridge => s
      | _ => stopRuns (runsOf u t s) (addTest u t s)
    | .poisoned line =>
      memoryError (64 * line) (addTest u none { s with poison := if s.poison.contains line then s.poison else line :: s.poison })

/-- ERROR_DETECTED. -/
def execErrorDetected (unit : TestUnit) (cls : ErrClass) (tile : Nat) (s : State) : Host.Outcome State Fault Refusal :=
  .next (errorDetected unit cls tile s)

/-- SCRUB_ACCESS (R325 to R327), in a cycle in which no add-write waits for the channel: a corrected error counts for its channel; an
uncorrectable line is poisoned, and the banks of its channel that reported errors are tested. -/
def scrubAccess (line : Nat) (f : Scrubbed) (s : State) : State :=
  match partOfAddr (64 * line) s with
  | none => s
  | some n =>
    let u : TestUnit := .channel (channelOf n (64 * line) s)
    if s.addq.any fun q => q.part == n && channelOf n (64 * line) s == channelOf n q.addr s then s
    else match f with
    | .clean => s
    | .corrected => errorDetected u .corrected 0 s
    | .uncorrectable => errorDetected u (.poisoned line) 0 s

/-- SCRUB_ACCESS. -/
def execScrubAccess (line : Nat) (finding : Scrubbed) (s : State) : Host.Outcome State Fault Refusal :=
  .next (scrubAccess line finding s)

/-! Classification (R531 to R533). -/

/-- The unit whose bucket a unit's transients belong to (R531). -/
def bucketOf : TestUnit → TestUnit
  | .row c p b _ => .row c p b 0
  | .coreBank c _ => .core c
  | u => u

/-- Transients rebuilt at start that count for a UNIT code (R532). -/
def oldTransients (u : TestUnit) (window : Nat) (s : State) : Nat :=
  s.faults.old.countP fun p => p.1 == testCode u && (match p.2 with
    | some t => (now s).toNat ≤ t.toNat + window
    | none => true)

/-- The transients of a unit within BUCKET_WINDOW_S (R531). -/
def bucketCount (u : TestUnit) (s : State) : Nat :=
  let window := (faultCfg s).bucketWindowS * 1000000000
  recent (bucketOf u) window s.faults.buckets s + oldTransients u window s

/-- fault-lasting (R531, R533), the count of FAULT_SUMMARY, and the copy of the new log entries to the archive at once (R100). -/
def raiseLasting (u : TestUnit) (bucket : Bool) (action : Nat) (s : State) : State :=
  archiveLog (raiseU u 0xA003 (pack [(b2n bucket, 0, 1), (action, 8, 4)])
    (onFaults (fun q => { q with lasting := satInc 0xFFFF q.lasting }) s))

/-- What a lasting fault of a unit makes suspect: the whole core of a core's unit (R539), else the unit. -/
def suspectOf (u : TestUnit) : TestUnit := match coreOfUnit u with
  | some c => .core c
  | none => u

/-- A unit stays in service as suspect (R533, R539). -/
def markSuspect (u : TestUnit) (s : State) : State :=
  let u := suspectOf u
  onFaults (fun q => { q with suspects := if q.suspects.contains u then q.suspects else q.suspects ++ [u] }) s

/-- The place of a bank among a channel's spare rows. -/
def bankKey (c p b : Nat) : Nat := (2 * c + p) * 256 + b

/-- The w3 of row-spared and bank-spared. -/
def bankWord (p b row : Nat) : W64 := pack [(p, 63, 1), (b, 48, 8), (row, 0, 32)]

/-- A spare row or a spare bank is left for a row (R328). -/
def rowSpareLeft (c p b : Nat) (s : State) : Bool :=
  !s.faults.copying.contains (bankKey c p b) && (lookup0 (bankKey c p b) s.faults.rows < 8 || !s.faults.banks.contains (2 * c + p))

/-- A row is replaced by a spare row of its bank, or its bank by the spare bank of the pseudo-channel; with neither left the lane goes out
of service (R328, R533). -/
def spareRow (c p b r : Nat) (s : State) : State :=
  let k := bankKey c p b
  if s.faults.copying.contains k then s
  else if lookup0 k s.faults.rows < 8 then
    raiseU (.row c p b r) 0x5002 (bankWord p b r) (onFaults (fun q => { q with rows := assign0 k (lookup0 k q.rows + 1) q.rows }) s)
  else if !s.faults.banks.contains (2 * c + p) then
    onFaults (fun q => { q with banks := q.banks ++ [2 * c + p], copying := q.copying ++ [k] }) s
  else takeOut (.lane c) s

/-- BANK_SPARE_COPY_DONE (R328): the copy of a bank ends. -/
def bankCopied (c p b : Nat) (s : State) : State :=
  let k := bankKey c p b
  if s.faults.copying.contains k then
    raiseU (.row c p b 0) 0x5003 (bankWord p b 0) (onFaults (fun q => { q with copying := q.copying.filter fun x => x != k }) s)
  else s

/-- BANK_SPARE_COPY_DONE. -/
def execBankSpareCopyDone (channel pc bank : Nat) (s : State) : Host.Outcome State Fault Refusal := .next (bankCopied channel pc bank s)

/-- A core goes out of service and its position is swapped (R533, R537); a spare that serves none only leaves the pool. -/
def swapCore (c : Nat) (tile : Option Nat) (kind : SwapKind) (s : State) : State :=
  match servedBy c s with
  | some pos => beginSwap pos tile kind (coreOut c s)
  | none => coreOut c s

/-- An engine goes out of service (R542): runs on its die complete FAULT, and partitions with a cluster there fail. -/
def engineOut (u : TestUnit) (s : State) : State :=
  let ps := partsOfUnit u s
  let s := stopRuns (runsOf u none s) (takeOut u s)
  ps.foldl (fun s n => if (partOf n s).state == 4 then s else failPartition n (testCode u) s) s

/-- A fault that is lasting by test (R533). -/
def lastingByTest (u : TestUnit) (tile : Option Nat) (s : State) : State :=
  let s := onFaults (fun q => { q with suspects := q.suspects.filter fun v => v != suspectOf u }) s
  match u with
  | .row c p b r => spareRow c p b r (raiseLasting u false (if rowSpareLeft c p b s then 2 else 3) s)
  | .channel _ => raiseLasting u false 2 s
  | .lane _ => takeOut u (raiseLasting u false 3 s)
  | .clusterBank _ _ => takeOut u (raiseLasting u false 3 s)
  | .jacks _ => engineOut u (raiseLasting u false 3 s)
  | .domino _ => engineOut u (raiseLasting u false 3 s)
  | .linkLane k i =>
    let narrowed := inRange (linkOf k s).state 4 5 && ((linkOf k s).lanePair != 0 || (linkOf k s).state == 5)
    let s := takeOut u (raiseLasting u false (if narrowed then 5 else 3) s)
    if narrowed then s else laneLoss k i 4 s
  | .bridge => s
  | u => match coreOfUnit u with
    | some c =>
      let pos := servedBy c s
      let free := match pos with
        | some p => ((deferredSpare p s).orElse fun _ => freeSpare (dieOfCore p) s).isSome
        | none => false
      swapCore c tile (if storeUnit u then .coreStore else .datapath) (raiseLasting u false (if free then 0 else 3) s)
    | none => s

/-- A fault that is lasting by bucket (R533, R538, R539): a core keeps its work and its swap is deferred; rows are spared; any other unit
stays in service as suspect. -/
def lastingByBucket (u : TestUnit) (s : State) : State :=
  match u with
  | .row c p b r => spareRow c p b r (raiseLasting u true (if rowSpareLeft c p b s then 2 else 3) s)
  | u => match coreOfUnit u with
    | some c => match servedBy c s with
      | some pos => match (deferredSpare pos s).orElse fun _ => freeSpare (dieOfCore pos) s with
        | some sp => onSpare sp (fun p => { p with deferred := true, serves := pos, part := (partOfCore pos s).getD 0 })
            (raiseLasting u true 1 s)
        | none => markSuspect u (raiseLasting u true 4 s)
      | none => markSuspect u (raiseLasting u true 4 s)
    | none => markSuspect u (raiseLasting u true 4 s)

/-- A test that passes (R531): the transient is recorded; with the unit's earlier ones it may be lasting by bucket. -/
def transient (u : TestUnit) (s : State) : State :=
  let s := onFaults (fun q => { q with buckets := pushTime (bucketOf u) (now s) q.buckets }) s
  let n := bucketCount u s
  if (faultCfg s).bucketCount ≤ n then lastingByBucket u s
  else raiseU u 0xA002 (BitVec.ofNat 64 n) s

/-! The end of a test. -/

/-- The test that a report is about: of one tile only the first runs (R534); the rows of a stack channel under test report on their own. -/
def runningTest (u : TestUnit) (s : State) : Option UnderTest :=
  match s.faults.tests.find? fun t => t.unit == u with
  | some t => match t.tile with
    | none => some t
    | some n => if (s.faults.tests.find? fun v => v.tile == some n) == some t then some t else none
  | none => match u with
    | .row c _ _ _ => if underTest (.channel c) s then some ⟨u, none, false⟩ else none
    | _ => none

/-- A spare's SPARE_STATUS while it is tested: 3, and back. -/
def spareState (u : TestUnit) (st : Nat) (s : State) : State := match u with
  | .core c => if 512 ≤ c % 528 then onSpare c (fun p => { p with state := st }) s else s
  | _ => s

/-- A retest ends (R544): a unit that passes waits for its boundary; a suspect unit that fails is lasting by test. -/
def retestDone (u : TestUnit) (passed : Bool) (s : State) : State :=
  if s.faults.suspects.contains u then
    if passed then onFaults (fun q => { q with passed := q.passed ++ [u] }) s
    else lastingByTest u (tileOfUnit u ((coreOfUnit u).map tileOfCore |>.getD 0) s) s
  else
    let s := spareState u 2 s
    if passed then
      let s := onFaults (fun q => { q with passed := q.passed ++ [u] }) s
      match u with
      | .linkLane k _ => proposeSwitch k (onLink k (fun l => { l with widen := true }) s)
      | _ => s
    else s

/-- What waited for the unit during the test goes on: requests to an engine, operations that reach a bank or a lane (R530). -/
def afterTest (u : TestUnit) (s : State) : State :=
  let ops := fun (s : State) => s.jobs.foldl (fun s j => if j.running then j.tiles.foldl (fun s x => startOps x.tile s) s else s) s
  match u with
  | .coreBank _ _ => ops s
  | .clusterBank _ _ => ops s
  | .lane _ => ops s
  | .jacks _ => s.jobs.foldl (fun s j => if j.running then settleJob j s else s) s
  | .domino _ => s.jobs.foldl (fun s j => if j.running then settleStep j s else s) s
  | _ => s

/-- SELF_TEST_COMPLETE: the test ends and the fault is classified; an error in a suspect unit is lasting whatever its test shows (R533). In the
clock-loss wait the units' clocks are gated and every test pauses (R534). -/
def selfTestComplete (u : TestUnit) (passed : Bool) (s : State) : State :=
  if s.clk.gated then s else
  match runningTest u s with
  | none => s
  | some t =>
    let s := onFaults (fun q => { q with tests := q.tests.erase t }) s
    if t.retest then afterTest u (retestDone u passed s)
    else if !passed || s.faults.suspects.contains (suspectOf u) then afterTest u (resume t.tile (lastingByTest u t.tile s))
    else
      let s := match u with
        | .linkLane k _ => proposeSwitch k (onLink k (fun l => { l with widen := l.lanePair != 0 || l.state == 5 }) s)
        | _ => s
      afterTest u (resume t.tile (spareState u 0 (transient u s)))

/-- SELF_TEST_COMPLETE. -/
def execSelfTestComplete (unit : TestUnit) (passed : Bool) (s : State) : Host.Outcome State Fault Refusal :=
  .next (selfTestComplete unit passed s)

/-! Swaps (R537). -/

/-- A word of the core store could not be copied: data-lost, and the run stops (R528, R537). -/
def loseWords (pos : Nat) (tile : Option Nat) (lost : List Nat) (s : State) : State :=
  if lost.isEmpty then s
  else stopRuns (runsOf (.core pos) tile s) (lost.foldl (fun s a => raiseM (partOfCore pos s) 0xA007 (unitCore pos) (BitVec.ofNat 64 a) s
    (unitW2 tile s)) s)

/-- The spare takes its position: core-spared; a privileged position's shared-weight operations are emulated (R210). -/
def spareTakes (w : Swap) (heldUs : Nat) (lost : List Nat) (s : State) : State :=
  let part := partOfCore w.position s
  let us := min 0xFFFF heldUs
  let s := onSpare w.spare (fun p => { p with swaps := satInc 0xFFFF p.swaps, heldUs := us }) s
  let s := loseWords w.position w.tile lost (onFaults (fun q => { q with swaps := q.swaps.erase w }) s)
  let s := raiseM part 0xA004 (unitCore w.position) (pack [(w.spare, 32, 12), (us, 0, 16)]) s (unitW2 w.tile s)
  let s := match w.tile with
    | some t => moveOps t w.spare s
    | none => s
  let s := if w.position % 16 < 2 then
      match part with
      | some n => raiseP n 0x4005 (unitTile (tileOfCore w.position)) (BitVec.ofNat 64 w.spare) s (unitW2 w.tile s)
      | none => s
    else s
  resume w.tile s

/-- A detected error in the spare during the swap moves the swap to the next free spare (R537); the spare is tested. -/
def spareFailed (w : Swap) (s : State) : State :=
  let s := onFaults (fun q => { q with swaps := q.swaps.erase w }) s
  let s := addTest (.core w.spare) none (onSpare w.spare (fun p => { p with state := 3, serves := 0, part := 0, emulating := false }) s)
  beginSwap w.position w.tile w.kind s

/-- SPARE_TAKES_POSITION. -/
def spareTakesPosition (pos heldUs : Nat) (lost : List Nat) (spareFails : Bool) (s : State) : State :=
  match s.faults.swaps.find? fun w => w.position == pos with
  | none => s
  | some w => if spareFails then spareFailed w s else spareTakes w heldUs lost s

/-- SPARE_TAKES_POSITION. -/
def execSpareTakesPosition (position heldUs : Nat) (lost : List Nat) (spareFails : Bool) (s : State) : Host.Outcome State Fault Refusal :=
  .next (spareTakesPosition position heldUs lost spareFails s)

/-! Retests and rejoin (R544). -/

/-- UNIT_RETEST_TIMER: every unit out of service, but one that has left three times, and every suspect unit is retested. -/
def unitRetest (s : State) : State :=
  let due := (s.faults.out.filter fun u => leavesOf u s < 3) ++ s.faults.suspects
  (due.filter fun u => !s.faults.passed.contains u && !underTest u s).foldl (fun s u =>
    let s := if s.faults.out.contains u then spareState u 3 s else s
    onFaults (fun q => { q with tests := q.tests ++ [⟨u, none, true⟩] }) s) s

/-- UNIT_RETEST_TIMER. -/
def execUnitRetestTimer (s : State) : Host.Outcome State Fault Refusal := .next (unitRetest s)

/-- A unit has reached its epoch boundary (Table 14.12). DEDUCED: a decision count is the time between the application of a decision and
the release of the next step; the next START_JOB finds no run active. -/
def atBoundary (u : TestUnit) (s : State) : Bool :=
  let idle := fun (n : Nat) => !(s.jobs.any fun j => j.part == n && j.running)
  match u with
  | .lane _ => (partsOfUnit u s).all fun n => s.jobs.all fun j => j.part != n || !j.running || j.coll.applied.isSome
  | .clusterBank _ _ => (partsOfUnit u s).all idle
  | .jacks _ => (partsOfUnit u s).all idle
  | .domino _ => (partsOfUnit u s).all idle
  | .linkLane k _ => (linkOf k s).state == 4 && (linkOf k s).lanePair == 0
  | _ => true

/-- UNIT_REJOIN: a passing unit is back in service; a core position joins the spare pool, but for one
whose core logic is fused off (R3, R196), which serves nothing. -/
def unitRejoin (u : TestUnit) (s : State) : State :=
  if !s.faults.passed.contains u || !atBoundary u s then s
  else
    let wasOut := s.faults.out.contains u
    let s := onFaults (fun q => { q with
      passed := q.passed.filter (fun v => v != u), out := q.out.filter (fun v => v != u), suspects := q.suspects.filter fun v => v != u }) s
    let s := if !wasOut then s
      else match u with
        | .core c => if 512 ≤ c % 528 then onSpare c (fun _ => {}) s
                     else onFaults (fun q => { q with extra := q.extra ++ [(c, if fusedOff c then { state := 2 } else {})] }) s
        | _ => s
    raiseU u 0xA006 (BitVec.ofNat 64 (leavesOf u s)) s

/-- UNIT_REJOIN. -/
def execUnitRejoin (unit : TestUnit) (s : State) : Host.Outcome State Fault Refusal := .next (unitRejoin unit s)

/-! The registers. -/

/-- SPARE_STATUS of spare `k` = 16 die + number (Table 14.8). -/
def spareStatus (k : Nat) (s : State) : W64 :=
  let p := s.faults.spares.getD k {}
  pack [(p.state, 60, 4), (p.serves, 48, 12), (p.part, 46, 2), (b2n p.emulating, 45, 1), (b2n p.deferred, 44, 1), (p.swaps, 16, 16),
    (p.heldUs, 0, 16)]

/-- FAULT_SUMMARY (Table 14.9). -/
def faultSummary (s : State) : W64 :=
  let free := fun d => (allSpares s).countP fun p => dieOfCore p.1 == d && p.2.state == 0
  let outs := fun (f : TestUnit → Bool) => s.faults.out.countP f
  pack [(free 0, 59, 5), (free 1, 54, 5),
    (outs (fun u => (coreOfUnit u).isSome), 43, 11),
    (outs (fun u => match u with
      | .lane _ => true
      | _ => false), 34, 9),
    (s.fab.links.countP (fun l => inRange l.state 4 5 && l.lanePair != 0), 28, 6),
    (s.fab.links.countP (fun l => l.state == 7), 22, 6), (s.faults.lasting, 0, 16)]

end Sys2Proof.Machine
end

