-- ==== Sys2Proof/Machine/Update.lean ====
section
/-! DEFINITION. Machine/Update.lean: firmware and blueprint update, trials, key slots (16 R584 to R595). Completion codes of
PLDM Type 5 that the spec names without a number are those of the PLDM firmware update standard (PRESUMED). -/
namespace Sys2Proof.Machine

/-- Completion codes: success, not ready (R75), refused (R584), and the PLDM Type 5 names of R588. -/
def ccSuccess : Nat := 0x00
def ccError : Nat := 0x01
def ccNotReady : Nat := 0x04
def ccRefused : Nat := 0x81
def ccNotInUpdate : Nat := 0x80
def ccAlreadyInUpdate : Nat := 0x81
def ccTransferLength : Nat := 0x83
def ccInvalidState : Nat := 0x84
def ccUnableToInitiate : Nat := 0x8A

/-- Answer on a management endpoint. -/
def mgmtReply (ep code : Nat) (data : List W64) (s : State) : State := send (.mgmtReply ep code data) s

/-- The firmware recovery state (R88). -/
def recovery (s : State) : Bool := s.boot.stage == 1

/-- Firmware answers PLDM (R572). -/
def firmwareUp (s : State) : Bool := s.boot.stage == 2 || s.boot.stage == 3 || s.boot.stage == 4

/-- Who takes PLDM Type 5: firmware, or the security core from MID 0x01 in recovery (R88, R572). -/
def updateAnswered (ep : Nat) (s : State) : Bool := firmwareUp s || (recovery s && ep == 0)

/-- A master holding UPDATE; in the shelf and recovery states only MID 0x01 (R67, R88, R588). -/
def holdsUpdate (ep : Nat) (s : State) : Bool :=
  if recovery s || s.boot.stage == 4 then ep == 0
  else ((masterOf (endpointMid ep) s).map MasterCfg.update).getD false

/-- Answer NOT_READY unless the update service answers this endpoint. -/
def whenAnswered (ep : Nat) (s : State) (f : State → State) : State :=
  if updateAnswered ep s then f s else mgmtReply ep ccNotReady [] s

/-- End the session with its stage CANCELLED (R588): update-cancelled carries the stage reached. -/
def cancelSession (s : State) : State :=
  match s.update.session with
  | none => s
  | some _ =>
    let st := stageOf s
    raiseM none 0xC002 0 (BitVec.ofNat 64 st)
      (setStage 10 { s with update := { s.update with session := none } })

/-- The session of an update agent, if this endpoint holds it. -/
def sessionOf (ep : Nat) (s : State) : Option UpdSession := match s.update.session with
  | some u => if u.agent == ep then some u else none
  | none => none

/-- Change the session. -/
def onSession (f : UpdSession → UpdSession) (s : State) : State :=
  { s with update := { s.update with session := s.update.session.map f } }

/-- RequestUpdate (R588, R589): the session opens with its targets (R590, R591), stage RECEIVING, update-started. -/
def requestUpdate (ep : Nat) (fw bp : Bool) (maxTransfer : Nat) (s : State) : State :=
  whenAnswered ep s fun s =>
    if s.update.session.isSome then mgmtReply ep ccAlreadyInUpdate [] s
    else if (selectHeader s.flash).1.trial then mgmtReply ep ccUnableToInitiate [] s
    else if !holdsUpdate ep s then mgmtReply ep ccError [] s
    else if !inRange maxTransfer 32 4096 then mgmtReply ep ccTransferLength [] s
    else
      let j : JEntry := { stage := 1, fw, bp, fwTarget := !s.boot.fwSlot, bpTarget := !s.boot.bpSlot,
                          updater := endpointMid ep }
      let s := writeJournal j s
      let u : UpdSession := { agent := ep, fw, bp, maxTransfer, lower := [], download := none, fwDone := false,
                              bpDone := false, fwVerified := false, bpVerified := false }
      let s := { s with update := { s.update with session := some u } }
      mgmtReply ep ccSuccess []
        (raiseM none 0xC001 0 (pack [(endpointMid ep, 8, 8), (b2n bp, 1, 1), (b2n fw, 0, 1)]) s)

/-- REQUEST_UPDATE. -/
def execRequestUpdate (endpoint : Nat) (fw bp : Bool) (maxTransfer : Nat) (s : State) : Host.Outcome State Fault Refusal :=
  .next (requestUpdate endpoint fw bp maxTransfer s)

/-- The floor of a component: 1 firmware, 2 blueprint (R583, R589). -/
def componentFloor (comp : Nat) (s : State) : Nat := floorOf (if comp == 2 then s.fuses.bpFloor else s.fuses.fwFloor)

/-- Whether the session carries a component. -/
def UpdSession.has (u : UpdSession) (comp : Nat) : Bool := (comp == 1 && u.fw) || (comp == 2 && u.bp)

/-- PassComponentTable (R589): a comparison stamp below its floor is refused as lower. -/
def passComponent (ep comp stamp : Nat) (s : State) : State :=
  whenAnswered ep s fun s =>
    match sessionOf ep s with
    | none => mgmtReply ep ccNotInUpdate [] s
    | some _ =>
      let low := stamp < componentFloor comp s
      mgmtReply ep ccSuccess [BitVec.ofNat 64 (b2n low)]
        (if low then onSession (fun u => { u with lower := comp :: u.lower }) s else s)

/-- PASS_COMPONENT_TABLE. -/
def execPassComponentTable (endpoint component stamp : Nat) (s : State) : Host.Outcome State Fault Refusal :=
  .next (passComponent endpoint component stamp s)

/-- Erase a target slot (R589). -/
def eraseTarget (bp : Bool) (s : State) : State :=
  let j := s.aon.jCur.getD {}
  let f := s.flash
  { s with flash := if bp then (if j.bpTarget then { f with bpB := [] } else { f with bpA := [] })
                    else (if j.fwTarget then { f with fwB := [] } else { f with fwA := [] }) }

/-- A component that is downloaded again has neither arrived nor been verified. -/
def UpdSession.again (u : UpdSession) (bp : Bool) : UpdSession :=
  if bp then { u with bpDone := false, bpVerified := false } else { u with fwDone := false, fwVerified := false }

/-- A download begins. -/
def UpdSession.loading (u : UpdSession) (d : Download) : UpdSession := { u with download := some d }

/-- UpdateComponent (R589): erases the target slot and starts the download, the stage RECEIVING again where it had moved on; a component
refused as lower, of the wrong size or not of this session is not updated. -/
def updateComponent (ep comp stamp size : Nat) (s : State) : State :=
  whenAnswered ep s fun s =>
    match sessionOf ep s with
    | none => mgmtReply ep ccNotInUpdate [] s
    | some u =>
      let limit := if comp == 2 then 1048576 else 33554432
      if !u.has comp || u.lower.contains comp || stamp < componentFloor comp s || limit < size || size % 8 != 0
      then mgmtReply ep ccSuccess [1] s
      else
        let bp := comp == 2
        let s := if stageOf s == 1 then s else setStage 1 s
        mgmtReply ep ccSuccess [0]
          (onSession (fun u => (u.again bp).loading { bp, stamp, size, received := 0 }) (eraseTarget bp s))

/-- UPDATE_COMPONENT. -/
def execUpdateComponent (endpoint component stamp size : Nat) (s : State) : Host.Outcome State Fault Refusal :=
  .next (updateComponent endpoint component stamp size s)

/-- Append words to the target slot of a component. -/
def writeTarget (bp : Bool) (ws : List W64) (s : State) : State :=
  let j := s.aon.jCur.getD {}
  let f := s.flash
  { s with flash := if bp then (if j.bpTarget then { f with bpB := f.bpB ++ ws } else { f with bpA := f.bpA ++ ws })
                    else (if j.fwTarget then { f with fwB := f.fwB ++ ws } else { f with fwA := f.fwA ++ ws }) }

/-- The target slot's words. -/
def targetWords (bp : Bool) (s : State) : List W64 :=
  let j := s.aon.jCur.getD {}
  if bp then bpSlotWords j.bpTarget s.flash else fwSlotWords j.fwTarget s.flash

/-- Downloaded data arrives (R590): written to the target slot only; at the end its digest goes into the journal, and the
stage is RECEIVED once every component of the session has arrived. -/
def firmwareData (ep : Nat) (data : List W64) (s : State) : State :=
  match sessionOf ep s with
  | none => s
  | some u => match u.download with
    | none => s
    | some d =>
      if u.maxTransfer < 8 * data.length || d.size < d.received + 8 * data.length then s
      else
        let s := writeTarget d.bp data s
        let d := { d with received := d.received + 8 * data.length }
        if d.received < d.size then onSession (fun u => { u with download := some d }) s
        else
          let img := targetWords d.bp s
          let u := if d.bp then { u with download := none, bpDone := true } else { u with download := none, fwDone := true }
          let all := (!u.fw || u.fwDone) && (!u.bp || u.bpDone)
          let j := s.aon.jCur.getD {}
          let j := if d.bp then { j with bpDigest := Config.sha384 img, bpVersion := fld (img.getD 2 0) 31 0 }
            else { j with fwDigest := Config.sha384 img, fwVersion := fld (img.getD 1 0) 31 0 }
          writeJournal { j with stage := if all then 2 else 1 } (onSession (fun _ => u) s)

/-- FIRMWARE_DATA. -/
def execFirmwareData (endpoint : Nat) (data : List W64) (s : State) : Host.Outcome State Fault Refusal :=
  .next (firmwareData endpoint data s)

/-- The stage at which a received component fails verification (R590): of Table 2.18, 0xF for R582, 0 for a read-back whose
SHA-384 differs from the journal; none when it passes. -/
def verifyStage (bp : Bool) (s : State) : Option Nat :=
  let img := targetWords bp s
  let j := s.aon.jCur.getD {}
  if bp then
    match validateBlueprint img s.fuses.ownerKeys (floorOf s.fuses.bpFloor) Config.gradeF with
    | .error e => some e.stage
    | .ok _ => if Config.sha384 img == j.bpDigest then none else some 0
  else if !firmwareOk img s.fuses.vendorKeys (floorOf s.fuses.fwFloor) then some 0xF
  else if Config.sha384 img == j.fwDigest then none else some 0

/-- Verification (R590): no flash is written; a failure ends the session with update-verify-failed, stage CANCELLED. -/
def imageVerify (ep comp : Nat) (s : State) : State :=
  match sessionOf ep s with
  | none => s
  | some u =>
    let bp := comp == 2
    if !u.has comp || !(if bp then u.bpDone else u.fwDone) then s
    else match verifyStage bp s with
      | some st =>
        raiseM none 0xC003 0 (pack [(comp, 8, 8), (st, 0, 4)])
          (setStage 10 { s with update := { s.update with session := none } })
      | none =>
        let u := if bp then { u with bpVerified := true } else { u with fwVerified := true }
        let s := onSession (fun _ => u) s
        if (!u.fw || u.fwVerified) && (!u.bp || u.bpVerified) && stageOf s == 2 then setStage 3 s else s

/-- IMAGE_VERIFY. -/
def execImageVerify (endpoint component : Nat) (s : State) : Host.Outcome State Fault Refusal :=
  .next (imageVerify endpoint component s)

/-- ActivateFirmware (R592): stage ACTIVATING, the header naming each updated slot active and on trial, stage TRIAL. -/
def activate (ep : Nat) (s : State) : State :=
  whenAnswered ep s fun s =>
    match sessionOf ep s with
    | none => mgmtReply ep ccNotInUpdate [] s
    | some u =>
      if stageOf s != 3 then mgmtReply ep ccInvalidState [] s
      else
        let s := setStage 4 s
        let h := (selectHeader s.flash).1
        let j := s.aon.jCur.getD {}
        let h := { h with fwSlot := if u.fw then j.fwTarget else h.fwSlot, bpSlot := if u.bp then j.bpTarget else h.bpSlot,
                          fwPrev := if u.fw then !j.fwTarget else h.fwPrev, bpPrev := if u.bp then !j.bpTarget else h.bpPrev,
                          trial := true, fwTrial := u.fw, bpTrial := u.bp }
        let s := setStage 5 (writeHeader h s)
        let s := { s with update := { session := none, rollbackWarned := false } }
        mgmtReply ep ccSuccess [] (raiseM none 0xC004 0 (BitVec.ofNat 64 (selectHeader s.flash).1.seq) s)

/-- ACTIVATE_FIRMWARE. -/
def execActivateFirmware (endpoint : Nat) (s : State) : Host.Outcome State Fault Refusal := .next (activate endpoint s)

/-- GetStatus (R589): the update stage. -/
def execGetStatus (endpoint : Nat) (s : State) : Host.Outcome State Fault Refusal :=
  .next (whenAnswered endpoint s fun s => mgmtReply endpoint ccSuccess [BitVec.ofNat 64 (stageOf s)] s)

/-- CancelUpdateComponent (R589): the component's download is dropped; possible up to ActivateFirmware. -/
def execCancelUpdateComponent (endpoint : Nat) (s : State) : Host.Outcome State Fault Refusal :=
  .next (whenAnswered endpoint s fun s =>
    match sessionOf endpoint s with
    | none => mgmtReply endpoint ccNotInUpdate [] s
    | some _ => mgmtReply endpoint ccSuccess [] (onSession (fun u => { u with download := none }) s))

/-- CancelUpdate (R588, R589). -/
def execCancelUpdate (endpoint : Nat) (s : State) : Host.Outcome State Fault Refusal :=
  .next (whenAnswered endpoint s fun s =>
    match sessionOf endpoint s with
    | none => mgmtReply endpoint ccNotInUpdate [] s
    | some _ => mgmtReply endpoint ccSuccess [] (cancelSession s))

/-- No request for 60 s (R588). -/
def execUpdateInactivityTimeout (s : State) : Host.Outcome State Fault Refusal := .next (cancelSession s)

/-- QueryDeviceIdentifiers (R589): PCI vendor, device, revision, subsystem IDs of Table 5.1, the serial number. -/
def execQueryDeviceIdentifiers (endpoint : Nat) (s : State) : Host.Outcome State Fault Refusal :=
  .next (whenAnswered endpoint s fun s => mgmtReply endpoint ccSuccess
    [pack [(0x1D57, 0, 16), (0x0B84, 16, 16), (0xA1, 32, 8)],
     pack [(0x1D57, 0, 16), (if Config.gradeF then 0x0002 else 0x0001, 16, 16)], Config.serialNumber] s)

/-- GetFirmwareParameters (R589): for components 1 and 2 the comparison stamp, SECURITY_VERSION, and BUILD_ID. -/
def execGetFirmwareParameters (endpoint : Nat) (s : State) : Host.Outcome State Fault Refusal :=
  .next (whenAnswered endpoint s fun s =>
    let fw := fwSlotWords s.boot.fwSlot s.flash
    let bp := s.boot.shadow
    mgmtReply endpoint ccSuccess
      [pack [(0x0001, 32, 16), (fld (fw.getD 1 0) 31 0, 0, 32)], fw.getD 2 0,
       pack [(0x0002, 32, 16), ((bp.map Blueprint.securityVersion).getD 0, 0, 32)], (bp.map Blueprint.buildId).getD 0] s)

/-- GET_UPDATE_STATE (R584): the current journal entry and both header copies, to any master. -/
def execGetUpdateState (endpoint : Nat) (s : State) : Host.Outcome State Fault Refusal :=
  .next (if firmwareUp s then
      mgmtReply endpoint ccSuccess (((s.aon.jCur.map JEntry.words).getD []) ++ s.flash.hdr0 ++ s.flash.hdr1) s
    else mgmtReply endpoint ccNotReady [] s)

/-- CONFIRM_UPDATE (R593): accepted in a trial that has booted, running without fallback, within 30 min of TRIAL_START; a
second one completes SUCCESS and changes nothing. -/
def confirmUpdate (ep : Nat) (s : State) : State :=
  if !firmwareUp s then mgmtReply ep ccNotReady [] s
  else if !holdsUpdate ep s then mgmtReply ep ccRefused [] s
  else
    let h := (selectHeader s.flash).1
    if !h.trial then
      if stageOf s == 7 then mgmtReply ep ccSuccess [] s else mgmtReply ep ccRefused [] s
    else if s.boot.stage == 3 && !s.boot.fwFallback && s.boot.bpState == 1 && (s.aon.jCur.getD {}).trialBoots != 0
        && trialAge s < trialTicks then
      mgmtReply ep ccSuccess [] (finishConfirm (setStage 6 s))
    else mgmtReply ep ccRefused [] s

/-- CONFIRM_UPDATE. -/
def execConfirmUpdate (endpoint : Nat) (s : State) : Host.Outcome State Fault Refusal := .next (confirmUpdate endpoint s)

/-- Firmware orders a module reset under MID 0x01 (R594): it begins after its 5 ms like any other (R186). -/
def orderOwnReset (s : State) : State :=
  { s with orders := { s.orders with resetPending := some (s.orders.resetPending.getD { winner := 0x01, superseded := [] }) } }

/-- ROLLBACK_UPDATE (R594): rolls a pending trial back and ends with a module reset. -/
def rollbackUpdate (ep : Nat) (s : State) : State :=
  if !firmwareUp s then mgmtReply ep ccNotReady [] s
  else if !holdsUpdate ep s || !(selectHeader s.flash).1.trial then mgmtReply ep ccRefused [] s
  else mgmtReply ep ccSuccess [] (orderOwnReset (rollback 5 s))

/-- ROLLBACK_UPDATE. -/
def execRollbackUpdate (endpoint : Nat) (s : State) : Host.Outcome State Fault Refusal := .next (rollbackUpdate endpoint s)

/-- PROGRAM_KEY_SLOT (R584): MID 0x01 only, an unprogrammed owner key slot. -/
def programKey (ep slot : Nat) (hash : Digest) (s : State) : State :=
  if !firmwareUp s then mgmtReply ep ccNotReady [] s
  else match s.fuses.ownerKeys[slot]? with
    | none => mgmtReply ep ccRefused [] s
    | some k =>
      if ep != 0 || k.programmed then mgmtReply ep ccRefused [] s
      else
        let s := { s with fuses := { s.fuses with
          ownerKeys := upd s.fuses.ownerKeys slot fun k => { k with programmed := true, hash } } }
        mgmtReply ep ccSuccess [] (raiseM none 0xC00A 0 (BitVec.ofNat 64 slot) s)

/-- PROGRAM_KEY_SLOT. -/
def execProgramKeySlot (endpoint slot : Nat) (hash : Digest) (s : State) : Host.Outcome State Fault Refusal :=
  .next (programKey endpoint slot hash s)

/-- REVOKE_KEY_SLOT (R584): refused for the locked image's KEY_SLOT, for the last programmed slot unrevoked, and while an
update session is open. -/
def revokeKey (ep slot : Nat) (s : State) : State :=
  if !firmwareUp s then mgmtReply ep ccNotReady [] s
  else
    let left := (revokeAt s.fuses.ownerKeys slot).any fun k => k.programmed && !k.revoked
    let locked := match s.boot.shadow with
      | some b => b.keySlot == slot
      | none => false
    if !holdsUpdate ep s || 4 ≤ slot || locked || !left || s.update.session.isSome then mgmtReply ep ccRefused [] s
    else
      let s := { s with fuses := { s.fuses with ownerKeys := revokeAt s.fuses.ownerKeys slot } }
      mgmtReply ep ccSuccess [] (raiseM none 0xC00B 0 (pack [(0, 8, 1), (slot, 0, 2)]) s)

/-- REVOKE_KEY_SLOT. -/
def execRevokeKeySlot (endpoint slot : Nat) (s : State) : Host.Outcome State Fault Refusal := .next (revokeKey endpoint slot s)

/-- The second's check of a running trial (R594): the warning 60 s before the 30 min expire, the rollback after them. -/
def trialCheck (s : State) : State :=
  let h := (selectHeader s.flash).1
  if !firmwareUp s || !h.trial || (s.aon.jCur.getD {}).trialBoots == 0 then s
  else if trialTicks ≤ trialAge s then orderOwnReset (rollback 2 s)
  else if trialTicks - 60 * 32768 ≤ trialAge s && !s.update.rollbackWarned then
    raiseM none 0xC006 0 (BitVec.ofNat 64 ((trialTicks - trialAge s) / 32768))
      { s with update := { s.update with rollbackWarned := true } }
  else s

/-- TRIAL_DEADLINE_CHECK. -/
def execTrialDeadlineCheck (s : State) : Host.Outcome State Fault Refusal := .next (trialCheck s)

/-- EVENT_LOG_ARCHIVE: firmware does it, so only while firmware runs. -/
def execEventLogArchive (s : State) : Host.Outcome State Fault Refusal := .next (if firmwareUp s then archiveLog s else s)

end Sys2Proof.Machine
end

