-- ==== Sys2Proof/Machine/Ports.lean ====
section
/-! DEFINITION. Machine/Ports.lean: host ports: resets, links, configuration space, DOE, partition reset's end
(05 R144 to R151, R188 to R191, R622, R623; 03 R86, R94). -/
namespace Sys2Proof.Machine

/-- PORT_INFO (R153). -/
def portInfo (n : Nat) (s : State) : W64 :=
  let p := portOf n s
  let degraded := p.linkUp && (p.rate < 5 || p.width < 16)
  pack [(hostMid n, 24, 8), ((partOfPort n s).getD 0, 18, 2), (n, 16, 2), (p.rate, 12, 4), (p.width, 7, 5), (b2n p.flit, 6, 1),
    (b2n p.cxl, 5, 1), (b2n p.ide, 4, 1), (b2n degraded, 3, 1)]

/-- Every port of a partition but one is held in reset (R150). -/
def othersInReset (n port : Nat) (s : State) : Bool :=
  (portsOf n s).all fun q => q == port || (portOf q s).inReset

/-- What entering reset does to a port (R150, R588): queue pairs, jobs, mailbox messages, order slot, ring ownership and an
update session of its host go; its link drops. The slot is IDLE with every field 0 (DEDUCED, log 38), and no reset that its order waits
for changes it later. -/
def portEntersReset (port : Nat) (s : State) : State :=
  let mid := hostMid port
  let s := dropJobsOfPort port s
  let s := onPort port (fun p => { p with qps := List.replicate 16 none, linkUp := false, rate := 0, width := 0,
                                          flit := false, cxl := false, ide := false, pendingMsi := [], masked := 0,
                                          bar2Log2 := 20, bar2Offset := 0, config := [] }) s
  let s := { s with
    mail := s.mail.map fun m => if isSender m mid || isReceiver m mid then m.cleared else m,
    replies := s.replies.filter fun r => !isReceiver (chan r.1 s) mid,
    parts := s.parts.map fun p => { p with resetting := p.resetting.map fun r =>
      { r with waiters := r.waiters.filter (· != mid), again := r.again.map fun l => l.filter (· != mid) } },
    orders := { s.orders with slots := s.orders.slots.map fun o => if o.mid == mid then { mid } else o,
                              slate := s.orders.slate.filter fun o => o.mid != mid } }
  let s := match partOfPort port s with
    | some n => onPart n (fun p => if p.ring.owner == mid then { p with ring := { p.ring with owner := 0 } } else p) s
    | none => s
  if (sessionOf (port + 1) s).isSome then cancelSession s else s

/-- LAST_PORT_PARTITION_RESET (R150, R188): the last port of a partition not already in reset enters reset. -/
def lastPortReset (port : Nat) (s : State) : State :=
  match partOfPort port s with
  | some n => if othersInReset n port s then resetPartition n false [] s else s
  | none => s

/-- PERST_N asserts (R150): the port resets and is held in reset. -/
def perstAssert (port : Nat) (s : State) : State :=
  let p := portOf port s
  if p.perst then s
  else if p.inReset then onPort port (fun p => { p with perst := true }) s
  else lastPortReset port (onPort port (fun p => { p with perst := true, inReset := true, d3 := false })
    (portEntersReset port s))

/-- PERST_N_ASSERT. -/
def execPerstNAssert (port : Nat) (s : State) : Host.Outcome State Fault Refusal := .next (perstAssert port s)

/-- PERST_N releases (R86): the port leaves reset once PGOOD is asserted and the security core runs. -/
def perstRelease (port : Nat) (s : State) : State :=
  onPort port (fun p => { p with perst := false, inReset := p.inReset && !(s.wake.pgood && s.boot.secRunning) }) s

/-- PERST_N_RELEASE. -/
def execPerstNRelease (port : Nat) (s : State) : Host.Outcome State Fault Refusal := .next (perstRelease port s)

/-- D3hot entry (R144, R150): the port resets once and is not held; its link stays up and answers configuration requests. -/
def d3Entry (port : Nat) (s : State) : State :=
  let p := portOf port s
  if p.inReset || p.d3 then s
  else
    let s := portEntersReset port s
    lastPortReset port (onPort port (fun q => { q with d3 := true, linkUp := p.linkUp, rate := p.rate, width := p.width,
                                                       flit := p.flit, cxl := p.cxl, ide := p.ide }) s)

/-- D3HOT_ENTRY. -/
def execD3hotEntry (port : Nat) (s : State) : Host.Outcome State Fault Refusal := .next (d3Entry port s)

/-- Configuration requests are answered (R67, R68): a blueprint is locked, or the shelf state and port H0. -/
def configAnswered (port : Nat) (s : State) : Bool :=
  let p := portOf port s
  p.linkUp && !p.inReset && ((s.boot.shadow.isSome && (partOfPort port s).isSome) || (s.boot.stage == 4 && port == 0))

/-- The largest BAR2 size of a port's partition (R38). -/
def bar2Max (port : Nat) (s : State) : Nat := match partOfPort port s with
  | some n => (((partCfgs s)[n]?).map PartCfg.bar2Log2).getD 20
  | none => 20

/-- A configuration request is answered with Request Retry Status (R68): the link is up, and no blueprint is locked nor the shelf state
entered, the firmware recovery state included (R86, R88, R624). -/
def retryAnswered (port : Nat) (s : State) : Bool :=
  let p := portOf port s
  p.linkUp && !p.inReset && s.boot.shadow.isNone && s.boot.stage != 4

/-- Offsets of the header fields that Table 5.1 fixes: identifiers, revision and class code, the BARs there are not, subsystem
identifiers (their places are those of the PCI header: PRESUMED, log 203). -/
def configFixed (off : Nat) : Bool := [0x00, 0x08, 0x20, 0x24, 0x2C].contains off

/-- A double word of a port's configuration space (R144, R146): vendor 0x1D57, device 0x0B84, revision 0xA1, class code 0x12_0000,
subsystem vendor 0x1D57 and the subsystem of the grade; BAR0 of 1 MiB, BAR2 of its current size, no other BAR; any other register holds
what the host wrote. -/
def configWord (port off : Nat) (s : State) : W32 :=
  let p := portOf port s
  let held := ((p.config.find? fun c => c.1 == off).map Prod.snd).getD 0
  let bar := fun (log2 low : Nat) => BitVec.ofNat 32 (held.toNat / 2 ^ log2 * 2 ^ log2 + low)
  match off with
  | 0x00 => 0x0B841D57
  | 0x08 => 0x120000A1
  | 0x10 => bar 20 0x4
  | 0x18 => bar (min 32 p.bar2Log2) 0xC
  | 0x1C => BitVec.ofNat 32 (held.toNat / 2 ^ (p.bar2Log2 - 32) * 2 ^ (p.bar2Log2 - 32))
  | 0x20 => 0
  | 0x24 => 0
  | 0x2C => if Config.gradeF then 0x00021D57 else 0x00011D57
  | _ => held

/-- A host write of configuration space (R146, R68, R74, R623): Resizable BAR within its limits, power state, MSI-X masks. -/
def pcieWrite (port : Nat) (w : PcieWrite) (s : State) : State :=
  if retryAnswered port s then send (.retryStatus port) s
  else if !configAnswered port s then s
  else match w with
    | .resizeBar2 l =>
      if inRange l 20 (bar2Max port s) then
        onPort port (fun p => { p with bar2Log2 := l, bar2Offset := roundBar2 p.bar2Offset l }) s
      else s
    | .powerD0 => onPort port (fun p => { p with d3 := false }) s
    | .powerD3hot => d3Entry port s
    | .msixMask v m =>
      onPort port (fun p => { p with masked :=
        if m then p.masked ||| 2 ^ v else if p.masked.testBit v then p.masked - 2 ^ v else p.masked }) s
    | .ide a => onPort port (fun p => { p with ide := a }) s
    | .other off v => if configFixed off then s else onPort port (fun p => { p with config := (p.config.filter fun c => c.1 != off) ++ [(off, v)] }) s

/-- PCIE_CONFIG_WRITE. -/
def execPcieConfigWrite (port : Nat) (w : PcieWrite) (s : State) : Host.Outcome State Fault Refusal :=
  .next (pcieWrite port w s)

/-- A port trains (R67, R86, R94): out of reset, the security core runs, and it is held by a partition, or H0 in the shelf
state, or no blueprint is locked yet. -/
def mayTrain (port : Nat) (s : State) : Bool :=
  let p := portOf port s
  !p.inReset && !p.perst && s.boot.secRunning &&
    (match s.boot.shadow with
     | some b => (portPart b.parts port).isSome
     | none => s.boot.stage != 4 || port == 0)

/-- The CXL window of a port's partition in GiB (R147). -/
def cxlOffered (port : Nat) (s : State) : Bool := match partOfPort port s with
  | some n => (((partCfgs s)[n]?).map PartCfg.cxlGiB).getD 0 != 0
  | none => false

/-- A host link trains (R144, R147, R622): PORT_INFO takes what was negotiated, a rate below 32 GT/s raises
host-link-degraded, MSI-X messages that waited are sent in order. -/
def linkUpHost (port rate width : Nat) (flit cxl : Bool) (s : State) : State :=
  if !mayTrain port s then s
  else
    let waiting := (portOf port s).pendingMsi
    let s := onPort port (fun p => { p with linkUp := true, rate, width, flit := flit || rate == 6,
                                            cxl := cxl && cxlOffered port s, pendingMsi := [] }) s
    let s := sendAll (waiting.map fun v => .msix port v) s
    if rate < 5 then raiseM (partOfPort port s) 0x3003 (unitPort port) (portInfo port s) s else s

/-- HOST_LINK_UP. -/
def execHostLinkUp (port rate width : Nat) (flit cxl : Bool) (s : State) : Host.Outcome State Fault Refusal :=
  .next (linkUpHost port rate width flit cxl s)

/-- A host link goes down (R622): posted writes wait on the module. -/
def execHostLinkDown (port : Nat) (s : State) : Host.Outcome State Fault Refusal :=
  .next (onPort port (fun p => { p with linkUp := false, rate := 0, width := 0, flit := false, cxl := false, ide := false }) s)

/-- DOE discovery (R144, R579): index 0 the discovery protocol, 1 CMA/SPDM, 2 secured CMA/SPDM, of the PCI-SIG vendor 0x0001,
each answer naming the next index (PCIe specification, PRESUMED). -/
def doeDiscovery (port index : Nat) (s : State) : State :=
  if configAnswered port s then
    let v : Nat := if index ≤ 2 then 0x0001 + index * 2 ^ 16 + (if index < 2 then index + 1 else 0) * 2 ^ 24 else 0xFFFF
    send (.doe port (BitVec.ofNat 32 v)) s
  else if retryAnswered port s then send (.retryStatus port) s
  else s

/-- DOE_DISCOVERY. -/
def execDoeDiscovery (port index : Nat) (s : State) : Host.Outcome State Fault Refusal := .next (doeDiscovery port index s)

/-- What the completion of a command that a partition reset ends reports (R172): for the START_JOB of a run the Clockwork count at which
the reset stopped it, SPILLED and VARIED; for any other command 0. -/
def resetResult (port q seq : Nat) (s : State) : W64 × Bool × Bool :=
  match s.jobs.find? fun j => match j.run with
    | some r => r.port == port && r.qp == q && r.seq == seq
    | none => false with
  | some j => (match j.run with
    | some r => if r.started then BitVec.ofNat 64 r.ended else now s
    | none => 0, j.tiles.any fun x => x.spill.host != 0, j.tiles.any JobTile.variedRun)
  | none => (0, false, false)

/-- Complete the commands of a queue pair with PARTITION_RESET (R189): those fetched, then those visible, which take no slot, whether or
not an overrun or a failed fetch has stopped the queue pair; `entries` are the entries read for the visible ones, in order. With its
submission queue empty it is saturated no longer (R180). -/
def resetQueue (port q : Nat) (entries : List (List W64)) (s : State) : State :=
  let live := match qpOf port q s with
    | some p => (p.slots.filter fun (c : Command) => c.state != CmdState.ended).map Command.seq
    | none => []
  let s := live.foldl (fun s seq =>
    let (w, spilled, varied) := resetResult port q seq s
    endCommand port q seq 0x0009 w spilled varied s) s
  onQp port q (fun p =>
    let es := entries.take p.unfetched
    let cs := (List.range es.length).map fun i =>
      ({ seq := p.nextSeq + i, words := es.getD i [], state := .ended, status := 0x0009, slotless := true } : Command)
    { p with slots := p.slots ++ cs, endOrder := p.endOrder ++ cs.map Command.seq, nextSeq := p.nextSeq + es.length,
             sqHead := (p.sqHead + es.length) % 2 ^ p.sqLog2, satSqRaised := p.satSqRaised && es.isEmpty }) s

/-- Empty a partition's own mailbox channels (R189). -/
def clearPartMail (n : Nat) (s : State) : State :=
  { s with mail := s.mail.map fun m => match m.bind with
    | some b => if b.partitionValid && b.partition == n then m.cleared else m
    | none => m }

/-- A partition reset finishes (R187, R189, R191): stores zeroed, pools and mailboxes emptied, every command ended with
PARTITION_RESET, jobs unloaded, SCRUB done; then STATE 0x2 and READY (or 0x4 stays), RESET_COUNT, partition-reset-done, and
the orders that waited complete DONE. Held by the clock-loss wait, it does not finish. -/
def partitionResetDone (n : Nat) (visible : List (Nat × Nat × List W64)) (s : State) : State :=
  match (partOf n s).resetting with
  | none => s
  | some r =>
    if r.held then s
    else
      let qs := (portsOf n s).flatMap fun p => (List.range 16).map fun q => (p, q)
      let s := qs.foldl (fun s pq => resetQueue pq.1 pq.2
        ((visible.filter fun v => v.1 == pq.1 && v.2.1 == pq.2).map fun v => v.2.2) s) s
      let s := clearPartMail n (clearPartition n r.scrub s)
      let failed := s.boot.failed.testBit n
      let s := onPart n (fun p => { p with state := if failed then 4 else 2, resetting := none,
                                           resetCount := satInc 0xFFFF p.resetCount }) s
      let s := if failed then s else { s with boot := { s.boot with ready := s.boot.ready ||| 2 ^ n } }
      let s := raiseM (some n) 0x3006 (unitPart n) (BitVec.ofNat 64 (partOf n s).resetCount) s
      let s := r.waiters.foldl (fun s mid => finishOrder mid 2 s) s
      match r.again with
      | some ws => startReset n true ws s
      | none => s

/-- PARTITION_RESET_DONE. -/
def execPartitionResetDone (partition : Nat) (visible : List (Nat × Nat × List W64)) (s : State) :
    Host.Outcome State Fault Refusal := .next (partitionResetDone partition visible s)

end Sys2Proof.Machine
end

