-- ==== Sys2Proof/Machine/Views.lean ====
section
/-! DEFINITION. Machine/Views.lean: what each register of BAR0 reads as (05_partitions_and_host_ports.md R151 to R157, R174; R6, R72, R73,
R81, R95, R107, R139, R140, R183, R476, R477, R540, R541, R567, R568, R576). -/
namespace Sys2Proof.Machine

/-- MODULE_ID (R6): part 0x084, the fused grade, revision A1. -/
def moduleId : W64 := pack [(0x084, 20, 12), (if Config.gradeF then 2 else 1, 16, 4), (0xA, 12, 4), (0x1, 8, 4)]

/-- BP_STATUS (R72). -/
def bpStatus (s : State) : W64 :=
  let (open', recs, skip) := match s.boot.shadow with
    | some b => (b2n b.debugOpen, b.records, b.skipped)
    | none => (0, 0, 0)
  pack [(s.boot.bpState, 28, 4), (b2n s.boot.bpSlot, 27, 1), (open', 26, 1), (2 ^ (partCfgs s).length - 1, 16, 4), (recs, 8, 8), (skip, 0, 8)]

/-- BP_BUILD_ID (R73's section): zero until a blueprint is locked. -/
def bpBuildId (s : State) : W64 := (s.boot.shadow.map Blueprint.buildId).getD 0

/-- BP_SECURITY_VERSION. -/
def bpSecurityVersion (s : State) : W64 := BitVec.ofNat 64 ((s.boot.shadow.map Blueprint.securityVersion).getD 0)

/-- WAKE_STATUS (R81). -/
def wakeStatus (s : State) : W64 :=
  let w := s.aon.wake
  pack ([(w.attempts, 60, 4), (w.result, 56, 4), (w.rail, 48, 8)] ++
    (List.range 4).map fun i => let b := w.bytes.getD i (0, 0); (b.1 * 16 + b.2, 8 * i, 8))

/-- AON_STATUS (R107). -/
def aonStatus (s : State) : W64 :=
  let a := s.aon
  pack [(a.bootCount, 32, 32), (b2n a.canaryLost, 11, 1), (a.journalSource, 9, 2), (b2n a.cwValidAtReset, 8, 1), (cellCode a.cell, 6, 2)]

/-- BOOT_STATUS (R95). -/
def bootStatus (s : State) : W64 :=
  let b := s.boot
  pack [(b.stage, 28, 4), (b2n b.fwSlot, 27, 1), (b2n b.fwFallback, 26, 1), (b.failed, 8, 4), (b.ready, 0, 4)]

/-- CLOCK_STATUS (R139). -/
def clockStatus (s : State) : W64 :=
  let c := s.clk
  pack [(refCode c.source, 29, 3), (b2n c.qualA, 28, 1), (b2n c.qualB, 27, 1), (b2n c.dwell, 26, 1), (b2n c.clkmonLimit, 25, 1),
    (b2n (c.opPhase != OpPhase.idle), 24, 1), (c.opTarget, 21, 3), (c.opCurrent, 18, 3), (b2n c.opVoltHigh, 17, 1), (c.switches, 0, 16)]

/-- PART_STATUS of a port's partition (R154). -/
def partStatus (port : Nat) (s : State) : W64 := match partOfPort port s with
  | none => 0
  | some n =>
    let p := partOf n s
    let mine := s.jobs.filter fun j => j.part == n
    let qps := (portOf port s).qps.filterMap id
    pack [(p.state, 60, 4), (mine.length, 48, 8), (mine.countP Job.running, 40, 8), (p.resetCount, 16, 16),
      (b2n (!p.ring.backlog.isEmpty || !p.ring.overflow.isEmpty), 7, 1), (b2n (qps.any QueuePair.sqSaturated), 6, 1),
      (b2n (qps.any QueuePair.cqWaits), 5, 1)]

/-- The links a port shows (R476): those of its partition and those of none. -/
def seesLink (port k : Nat) (s : State) : Bool := match partOfLink k s with
  | some n => partOfPort port s == some n
  | none => true

/-- First register of a mailbox channel (R157). -/
def chanStatus (m : Mailbox) : W64 :=
  let b := m.bind.map fun b => (b.sender, b.receiver, b.partition, b2n b.partitionValid, b2n b.wake)
  match b with
  | none => 0
  | some (x, r, p, v, w) =>
    pack [(x, 56, 8), (r, 48, 8), (m.refused, 32, 8), (p, 16, 2), (v, 15, 1), (w, 14, 1), (1, 13, 1), (b2n m.full, 9, 1), (m.length, 0, 9)]

/-- A word of a mailbox channel as a master reads it (R157 to R160): the sender's reads of MB_DATA return zero; `o` is the byte offset in the channel. -/
def chanWord (mid c o : Nat) (s : State) : W64 :=
  let m := chan c s
  let rx := isReceiver m mid
  let tx := isSender m mid
  if !rx && !tx then 0
  else if o == 0 then chanStatus m
  else if o == 0x10 then (if rx then takeValue m else 0)
  else if inRange o 0x100 0x1F8 then
    (if rx && m.full then BitVec.ofNat 64 (leNat ((m.data.drop (o - 0x100)).take 8)) else 0)
  else 0

/-- A word of the event-ring configuration block (R174). -/
def ringWord (n o : Nat) (s : State) : W64 :=
  let r := (partOf n s).ring
  match o with
  | 0x00 => r.base
  | 0x08 => pack [(r.owner, 56, 8), (r.entriesLog2, 52, 4), (min 256 (r.backlog.length), 32, 9), (r.coalesced, 0, 32)]
  | 0x10 => BitVec.ofNat 64 r.head
  | 0x18 => BitVec.ofNat 64 r.tail
  | _ => 0

/-- The debug block is open to a port's host (R156). -/
def debugOpen (port : Nat) (s : State) : Bool :=
  ((s.boot.shadow.map Blueprint.debugOpen).getD false) && ((masterOf (hostMid port) s).map MasterCfg.debug).getD false

/-- The job context that the debug block shows of a tile: one that runs, else one that is loaded. -/
def debugTile (n t : Nat) (s : State) : Option JobTile :=
  let on := fun (f : Job → Bool) => (s.jobs.filter fun j => j.part == n && f j).findSome? fun j => j.tile t
  (on Job.running).orElse fun _ => on fun _ => true

/-- A word of the debug block (R156); `o` is the byte offset in it. -/
def debugWord (port o : Nat) (s : State) : W64 :=
  match partOfPort port s with
  | none => 0
  | some n =>
    let t := if o < 0x4000 then o / 16 else (o - 0x4000) / 64
    if !debugOpen port s || 1024 ≤ t || partOfCluster (clusterOf t) s != some n then 0
    else match debugTile n t s with
      | none => 0
      | some x =>
        if o < 0x4000 then
          if o % 16 == 0 then pack [(x.next, 32, 32), (x.state, 28, 4)] else BitVec.ofNat 64 (x.seq.getD 1 0)
        else x.act.words.getD (o % 64 / 8) 0

/-- Sensor IDs of Table 16.2, ascending. -/
def sensorIds : List Nat :=
  [1, 2, 3, 4, 5] ++ (List.range 90).map (0x10 + ·) ++ [0x100, 0x101, 0x102, 0x103, 0x104] ++ (List.range 36).map (0x110 + ·)

/-- A word of a published half of the mirror, as a port sees it (R576): records of links, pools and partitions outside its view are zero. -/
def mirrorView (port o : Nat) (w : W64) (s : State) : W64 :=
  let own := partOfPort port s
  let zeroUnless := fun (b : Bool) => if b then w else 0
  if inRange o 0x40 (0x40 + 16 * sensorIds.length - 1) then
    let id := sensorIds.getD ((o - 0x40) / 16) 0
    zeroUnless (id < 0x110 || seesLink port (id - 0x110) s)
  else if inRange o 0x1000 0x18FF then zeroUnless (seesLink port ((o - 0x1000) / 64) s)
  else if inRange o 0x3000 0x3FFF then w
  else if inRange o 0x4000 0x7FFF then zeroUnless (own == some ((o - 0x4000) / 0x1000))
  else w

/-- The word at a byte offset of a half. -/
def halfWord (l : List (Nat × W64)) (o : Nat) : W64 := ((l.find? fun p => p.1 == o).map Prod.snd).getD 0

/-- A word of the telemetry mirror (R576); `o` is the byte offset in the block. The leak audit's entries are those of the port's pools. -/
def mirrorWord (port o : Nat) (s : State) : W64 :=
  if o == 0 then s.mirror.seq
  else if o < 0x1000 then 0
  else
    let l := if o < 0x1000 + 0x1F000 then s.mirror.half0 else s.mirror.half1
    let r := if o < 0x1000 + 0x1F000 then o - 0x1000 else o - 0x20000
    let w := halfWord l r
    if inRange r 0x3000 0x3FFF then
      let pool := fld (halfWord l (r / 16 * 16)) 63 60
      let mine := match partOfPort port s with
        | some n => (poolsOf n s).any fun c => c.pool == pool
        | none => false
      if mine then w else 0
    else mirrorView port r w s

/-- Registers of 32 bits of BAR0 (R152, R157, R167, R174); every other word is 64 bits wide. -/
def narrowReg (o : Nat) : Bool :=
  [0x00, 0x08, 0x18, 0x38, 0x40, 0x60, 0x20010, 0x20018].contains o || (inRange o 0x1000 0x10FF && o % 8 == 0)

/-- The identity and status block (R152). -/
def statusWord (port o : Nat) (s : State) : W64 :=
  match o with
  | 0x00 => moduleId
  | 0x08 => bpStatus s
  | 0x10 => bpBuildId s
  | 0x18 => bpSecurityVersion s
  | 0x20 => bpFailReg s.boot
  | 0x28 => wakeStatus s
  | 0x30 => aonStatus s
  | 0x38 => bootStatus s
  | 0x40 => clockStatus s
  | 0x48 => now s
  | 0x50 => clockworkSync s
  | 0x60 => portInfo port s
  | 0x68 => partStatus port s
  | 0x70 => fabricStatus s
  | 0x78 => faultSummary s
  | 0x80 => powerStatus s
  | 0x88 => thermalStatus s
  | o =>
    if inRange o 0x100 0x21F then (if seesLink port ((o - 0x100) / 8) s then linkStatus ((o - 0x100) / 8) s else 0)
    else if inRange o 0x300 0x3FF then spareStatus ((o - 0x300) / 8) s
    else 0

/-- The word of BAR0 at an offset that is a multiple of 8, as the host of a port reads it (R151, R11): unmapped offsets read zero; in the
shelf state only the identity block is there (R67). -/
def barWord (port o : Nat) (s : State) : W64 :=
  if o < 0x1000 then statusWord port o s
  else if s.boot.shadow.isNone then 0
  else if o < 0x2000 then (if o == 0x1808 then orderStatusReg (slotOf (hostMid port) s) else 0)
  else if inRange o 0x10000 0x1FFFF then chanWord (hostMid port) ((o - 0x10000) / 0x400) (o % 0x400) s
  else if inRange o 0x20000 0x20FFF then (match partOfPort port s with
    | some n => ringWord n (o - 0x20000) s
    | none => 0)
  else if inRange o 0x40000 0x7FFFF then mirrorWord port (o - 0x40000) s
  else if inRange o 0x80000 0xFFFFF then debugWord port (o - 0x80000) s
  else 0

end Sys2Proof.Machine
end

