-- ==== Sys2Proof/Machine/Management.lean ====
section
/-! DEFINITION. Machine/Management.lean: MCTP control, PLDM base and monitoring, management events, the telemetry mirror and SPDM
(16_management_attestation_update.md R570 to R581). -/
namespace Sys2Proof.Machine

/-! Who answers (R75, R88, R572). Endpoint 0 is the management port, 1 + n host port Hn. -/

/-- An endpoint carries messages now: the management port always, a host port once it answers its host. -/
def endpointUp (ep : Nat) (s : State) : Bool := ep == 0 || (inRange ep 1 4 && configAnswered (ep - 1) s)

/-- MCTP control messages are answered in every state on the management port, and by firmware on a host port. -/
def controlAnswered (ep : Nat) (s : State) : Bool := ep == 0 || (endpointUp ep s && firmwareUp s)

/-- A PLDM request that only firmware answers: before firmware runs the answer is ERROR_NOT_READY (R75). -/
def whenFirmware (ep : Nat) (s : State) (f : State → State) : State :=
  if !endpointUp ep s then s else if firmwareUp s then f s else mgmtReply ep ccNotReady [] s

/-! MCTP control (R570). Completion codes and the form of the answers are those of DMTF DSP0236: PRESUMED. -/

/-- ERROR_INVALID_DATA of MCTP control and of PLDM. -/
def ccInvalidData : Nat := 0x02

/-- I3C_DYNAMIC_ADDRESS: the management port becomes an I3C target. -/
def i3cAddress (a : Nat) (s : State) : State :=
  pumpMgmt { s with mgmt := { s.mgmt with i3c := true, dynAddr := a % 2 ^ 7 } }

/-- I3C_DYNAMIC_ADDRESS. -/
def execI3cDynamicAddress (address : Nat) (s : State) : Host.Outcome State Fault Refusal := .next (i3cAddress address s)

/-- SET_ENDPOINT_ID: the bus owner gives an endpoint its EID; the null and broadcast EIDs are refused. -/
def setEid (ep eid : Nat) (s : State) : State :=
  if !controlAnswered ep s then s
  else if eid == 0 || 0xFF ≤ eid then mgmtReply ep ccInvalidData [] s
  else mgmtReply ep ccSuccess [BitVec.ofNat 64 eid] { s with mgmt := { s.mgmt with eids := setAt s.mgmt.eids ep eid } }

/-- SET_ENDPOINT_ID. -/
def execSetEndpointId (endpoint eid : Nat) (s : State) : Host.Outcome State Fault Refusal := .next (setEid endpoint eid s)

/-- GET_ENDPOINT_ID. -/
def getEid (ep : Nat) (s : State) : State :=
  if controlAnswered ep s then mgmtReply ep ccSuccess [BitVec.ofNat 64 (s.mgmt.eids.getD ep 0)] s else s

/-- GET_ENDPOINT_ID. -/
def execGetEndpointId (endpoint : Nat) (s : State) : Host.Outcome State Fault Refusal := .next (getEid endpoint s)

/-- GET_ENDPOINT_UUID. -/
def getUuid (ep : Nat) (s : State) : State :=
  if controlAnswered ep s then
    mgmtReply ep ccSuccess [Config.endpointUuid.setWidth 64, (Config.endpointUuid >>> 64).setWidth 64] s
  else s

/-- GET_ENDPOINT_UUID. -/
def execGetEndpointUuid (endpoint : Nat) (s : State) : Host.Outcome State Fault Refusal := .next (getUuid endpoint s)

/-- GET_MCTP_VERSION_SUPPORT: the version numbers are not given: a free value; 0xFF asks for the base specification; a type that is not
supported is refused. -/
def getVersions (ep type : Nat) (s : State) : State :=
  if !controlAnswered ep s then s
  else if [0xFF, 0x00, 0x01, 0x05].contains type then
    let (v, s) := freeWord s
    mgmtReply ep ccSuccess [v] s
  else mgmtReply ep 0x80 [] s

/-- GET_MCTP_VERSION_SUPPORT. -/
def execGetMctpVersionSupport (endpoint type : Nat) (s : State) : Host.Outcome State Fault Refusal := .next (getVersions endpoint type s)

/-- GET_MESSAGE_TYPE_SUPPORT: control, PLDM and SPDM (Table 16.1). -/
def getTypes (ep : Nat) (s : State) : State :=
  if controlAnswered ep s then mgmtReply ep ccSuccess [0x00, 0x01, 0x05] s else s

/-- GET_MESSAGE_TYPE_SUPPORT. -/
def execGetMessageTypeSupport (endpoint : Nat) (s : State) : Host.Outcome State Fault Refusal := .next (getTypes endpoint s)

/-! PLDM base and monitoring. -/

/-- PLDM_BASE_DISCOVERY (R570): the terminus identifier, and the types 0, 2, 5 and 63; versions and command lists are not given: free
values. -/
def pldmBase (ep : Nat) (r : PldmBase) (s : State) : State :=
  whenFirmware ep s fun s => match r with
    | .setTid t =>
      if t == 0 || 0xFF ≤ t then mgmtReply ep ccInvalidData [] s
      else mgmtReply ep ccSuccess [] { s with mgmt := { s.mgmt with tid := setAt s.mgmt.tid ep t } }
    | .getTid => mgmtReply ep ccSuccess [BitVec.ofNat 64 (s.mgmt.tid.getD ep 0)] s
    | .getPldmTypes => mgmtReply ep ccSuccess [BitVec.ofNat 64 (2 ^ 0 + 2 ^ 2 + 2 ^ 5 + 2 ^ 63)] s
    | .getPldmVersion t =>
      if [0, 2, 5, 63].contains t then
        let (v, s) := freeWord s
        mgmtReply ep ccSuccess [v] s
      else mgmtReply ep 0x83 [] s
    | .getPldmCommands t =>
      if [0, 2, 5, 63].contains t then
        let (v, s) := freeWord s
        mgmtReply ep ccSuccess [v] s
      else mgmtReply ep 0x83 [] s

/-- PLDM_BASE_DISCOVERY. -/
def execPldmBaseDiscovery (endpoint : Nat) (request : PldmBase) (s : State) : Host.Outcome State Fault Refusal :=
  .next (pldmBase endpoint request s)

/-- The reading of a sensor of Table 16.2; input voltage and current come from outside. -/
def sensorValue (id : Nat) (mv ma : Int) (s : State) : Int :=
  match id with
  | 0x0001 => mv
  | 0x0002 => ma
  | 0x0003 => fld (powerStatus s) 63 52
  | 0x0004 => fld (powerStatus s) 51 40
  | 0x0005 => s.power.cap
  | 0x0100 => s.aon.wake.result
  | 0x0101 => cellCode s.aon.cell
  | 0x0102 => s.boot.stage
  | 0x0103 => s.thermal.state
  | 0x0104 => stageOf s
  | id => if id < 0x100 then s.thermal.sensors.getD (id - 0x10) 0 else (linkOf (id - 0x110) s).state

/-- Sensors that the always-on responder reads (R75): input voltage, wake status, backup cell. -/
def alwaysOnSensor (id : Nat) : Bool := [0x0001, 0x0100, 0x0101].contains id

/-- BAR0 offsets of the registers that the management port reports too (R6, R68, R73, R81, R95, R107, R139, R140, R477, R541, R567, R568). -/
def portRegisters : List Nat := [0x00, 0x08, 0x10, 0x18, 0x20, 0x28, 0x30, 0x38, 0x40, 0x50, 0x70, 0x78, 0x80, 0x88]

/-- The register that a sensor number stands for. DESIGN CHOICE (log 205): the spec gives no request that reads a status register on the
management port; a reading of 0x1_0000 plus its BAR0 offset does. -/
def portRegister (id : Nat) : Option Nat := if 0x10000 ≤ id then portRegisters.find? fun o => 0x10000 + o == id else none

/-- A status register read on the management port: BP_STATUS is answered in every state (R68), the others once firmware runs (R572). -/
def getRegister (o : Nat) (s : State) : State :=
  if firmwareUp s || o == 0x08 then mgmtReply 0 ccSuccess [0, statusWord 0 o s] s else mgmtReply 0 ccNotReady [] s

/-- GET_SENSOR_READING (R573): operational state 0 enabled and the value; an ID that no sensor has is refused (0x80, PRESUMED from
DSP0248). `analogue` is the measured input voltage or current. -/
def getSensor (ep id : Nat) (analogue : Int) (s : State) : State :=
  if !endpointUp ep s then s
  else if ep == 0 && (portRegister id).isSome then getRegister ((portRegister id).getD 0) s
  else if !firmwareUp s && !(ep == 0 && alwaysOnSensor id) then mgmtReply ep ccNotReady [] s
  else if sensorIds.contains id then mgmtReply ep ccSuccess [0, BitVec.ofInt 64 (sensorValue id analogue analogue s)] s
  else mgmtReply ep 0x80 [] s

/-- GET_SENSOR_READING. -/
def execGetSensorReading (endpoint sensor : Nat) (analogue : Int) (s : State) : Host.Outcome State Fault Refusal :=
  .next (getSensor endpoint sensor analogue s)

/-! Management events (R575). -/

/-- Change the management queue. -/
def onEvents (f : MgmtQueue → MgmtQueue) (s : State) : State := { s with mgmt := { s.mgmt with events := f s.mgmt.events } }

/-- SET_EVENT_RECEIVER: the receiver is an endpoint; a number beyond the endpoints disables sending. -/
def setReceiver (ep rx : Nat) (s : State) : State :=
  whenFirmware ep s fun s =>
    pumpMgmt (mgmtReply ep ccSuccess [] (onEvents (fun q => { q with receiver := if rx ≤ 4 then some rx else none, inFlight := false }) s))

/-- SET_EVENT_RECEIVER. -/
def execSetEventReceiver (endpoint receiver : Nat) (s : State) : Host.Outcome State Fault Refusal :=
  .next (setReceiver endpoint receiver s)

/-- The first event has been delivered: it leaves the queue; room after an overflow is followed by management-queue-overflow with the
events coalesced; the next event is sent. -/
def delivered (s : State) : State :=
  let s := onEvents (fun q => { q with queue := q.queue.tail, inFlight := false }) s
  let q := s.mgmt.events
  if q.overflowed && q.queue.length < 256 then
    raiseM none 0xC00C 0 (BitVec.ofNat 64 q.coalesced) (onEvents (fun q => { q with overflowed := false, coalesced := 0, overflow := [] }) s)
  else pumpMgmt s

/-- PLATFORM_EVENT_ACK: the event under way is acknowledged. -/
def eventAck (ep : Nat) (s : State) : State :=
  if s.mgmt.events.receiver == some ep && s.mgmt.events.inFlight then delivered s else s

/-- PLATFORM_EVENT_ACK. -/
def execPlatformEventAck (endpoint : Nat) (s : State) : Host.Outcome State Fault Refusal := .next (eventAck endpoint s)

/-- POLL_FOR_PLATFORM_EVENT_MESSAGE: the receiver takes the first event; an empty queue answers with none. -/
def pollEvent (ep : Nat) (s : State) : State :=
  whenFirmware ep s fun s =>
    if s.mgmt.events.receiver != some ep then mgmtReply ep ccError [] s
    else match s.mgmt.events.queue with
      | [] => mgmtReply ep ccSuccess [] s
      | e :: _ => delivered (mgmtReply ep ccSuccess (eventWords e false) s)

/-- POLL_FOR_PLATFORM_EVENT_MESSAGE. -/
def execPollForPlatformEventMessage (endpoint : Nat) (s : State) : Host.Outcome State Fault Refusal := .next (pollEvent endpoint s)

/-- EVENT_RESEND_TIMER: an unacknowledged message is sent again. -/
def resendEvent (s : State) : State :=
  match s.mgmt.events.receiver, s.mgmt.events.queue with
  | some ep, e :: _ => if s.mgmt.events.inFlight then send (.mgmtEvent ep e) s else s
  | _, _ => s

/-- EVENT_RESEND_TIMER. -/
def execEventResendTimer (s : State) : Host.Outcome State Fault Refusal := .next (resendEvent s)

/-! The telemetry mirror (R576, R577). -/

/-- Words from an offset on. -/
def wordsAt (o : Nat) (ws : List W64) : List (Nat × W64) := ws.zipIdx.map fun p => (o + 8 * p.2, p.1)

/-- Counters of a link (Table 16.4). -/
def linkCounts (l : Link) : List W64 :=
  [l.protocolErrors, l.lateResponses, l.noRouteDrops, l.retryAbandoned, l.resent, l.fecCorrected, l.dmtResent, l.dmtDiscards].map
    (BitVec.ofNat 64)

/-- The leak audit: one entry for each pool and owner with a count, ascending (R338, Table 16.4). -/
def auditEntries (s : State) : List W64 :=
  (List.range 16).flatMap fun k =>
    let bs := (poolOf k s).buffers
    (owners bs).flatMap fun o =>
      let own := bs.filter fun b => b.owner == o
      [pack [(k, 60, 4), (o, 48, 12), (own.length, 16, 32)], BitVec.ofNat 64 (own.foldl (fun m b => min m b.age) (2 ^ 36 - 1) * 65536)]

/-- Layer digests of a partition (Table 16.4). -/
def digestBlockWords (n : Nat) (s : State) : List (Nat × W64) :=
  let d := (partOf n s).digests
  let o := 0x4000 + 0x1000 * n
  let mask := d.digests.foldl (fun m p => m ||| 2 ^ p.1) 0
  wordsAt o [BitVec.ofNat 64 d.job, d.step] ++
    wordsAt (o + 32) ((List.range 4).map fun i => BitVec.ofNat 64 (mask >>> (64 * i))) ++ d.digests.map fun p => (o + 64 + 8 * p.1, p.2)

/-- What firmware fills a half with. -/
def mirrorHalf (mv ma : Int) (seq : W64) (s : State) : List (Nat × W64) :=
  wordsAt 0 [now s, seq] ++
    (sensorIds.zipIdx.flatMap fun p =>
      wordsAt (0x40 + 16 * p.2) [pack [(p.1, 48, 16), ((BitVec.ofInt 32 (sensorValue p.1 mv ma s)).toNat, 0, 32)], now s]) ++
    ((List.range 36).flatMap fun k => wordsAt (0x1000 + 64 * k) (linkCounts (linkOf k s))) ++
    wordsAt 0x2000 [BitVec.ofNat 64 s.fab.combinedReads, BitVec.ofNat 64 s.fab.combinedAtomics] ++
    wordsAt 0x2100 (s.power.droops.map (BitVec.ofNat 64)) ++
    wordsAt 0x3000 ((auditEntries s).take 512) ++
    (partIds s).flatMap fun n => digestBlockWords n s

/-- TELEMETRY_REFRESH: firmware fills the half that is not published and publishes it. -/
def refreshMirror (mv ma : Int) (s : State) : State :=
  if !firmwareUp s then s
  else
    let seq := s.mirror.seq + 1
    let h := mirrorHalf mv ma seq s
    { s with mirror := if seq.getLsbD 0 then { s.mirror with seq, half1 := h } else { s.mirror with seq, half0 := h } }

/-- TELEMETRY_REFRESH. -/
def execTelemetryRefresh (millivolt milliamp : Int) (s : State) : Host.Outcome State Fault Refusal :=
  .next (refreshMirror millivolt milliamp s)

/-! SPDM (R578 to R581). Request and response codes and error codes are those of DMTF DSP0274: PRESUMED. -/

/-- The SPDM state of an endpoint. -/
def spdmOf (ep : Nat) (s : State) : Spdm := s.mgmt.spdm.getD ep {}

/-- Change it. -/
def onSpdm (ep : Nat) (f : Spdm → Spdm) (s : State) : State := { s with mgmt := { s.mgmt with spdm := upd s.mgmt.spdm ep f } }

/-- The words of a measurement block (R580): index 1 to 6. -/
def measurement (i : Nat) (s : State) : List W64 :=
  if i == 6 then
    [pack [(moduleId.toNat, 0, 32), ((bpStatus s).toNat, 32, 32)], pack [((bootStatus s).toNat, 0, 32), (fld (aonStatus s) 31 0, 32, 32)]]
  else if i == 5 then digestWords s.boot.bmr
  else digestWords (s.boot.measurements.getD (i - 1) 0)

/-- Answer an SPDM request. -/
def spdmReply (ep : Nat) (ws : List W64) (s : State) : State := send (.spdm ep ws) s

/-- The requests that set a connection up, in their order: versions 1.3 and 1.2, the capabilities and algorithms of Table 16.5, whose
encoding is not given: free values. -/
def spdmConnect (ep : Nat) (r : SpdmReq) (s : State) : State :=
  match r with
  | .getVersion => spdmReply ep [0x04, 0x12, 0x13] (onSpdm ep (fun q => { q with version := 1 }) s)
  | .getCapabilities =>
    if (spdmOf ep s).version < 1 then spdmReply ep [0x7F, 0x04] s
    else
      let (v, s) := freeWord s
      spdmReply ep [0x61, v] (onSpdm ep (fun q => { q with version := 2 }) s)
  | _ =>
    if (spdmOf ep s).version < 2 then spdmReply ep [0x7F, 0x04] s
    else
      let (v, s) := freeWord s
      spdmReply ep [0x63, v] (onSpdm ep (fun q => { q with version := 3 }) s)

/-- The words that an answer to a request of the connection signs. -/
def withSignature (ws : List W64) : List W64 := ws ++ Config.spdmSign ws

/-- Attestation: digests and certificates of slot 0, challenge, measurements (R578, R580). -/
def spdmAttest (ep : Nat) (r : SpdmReq) (s : State) : State :=
  match r with
  | .getDigests => spdmReply ep ([0x01, 0x01] ++ digestWords (Config.sha384 Config.certChain)) s
  | .getCertificate slot => if slot == 0 then spdmReply ep (0x02 :: Config.certChain) s else spdmReply ep [0x7F, 0x01] s
  | .challenge slot nonce =>
    if slot == 0 then spdmReply ep (withSignature (0x03 :: nonce)) s else spdmReply ep [0x7F, 0x01] s
  | .getMeasurements i sign nonce =>
    let blocks := if i == 0 then some [6] else if i == 0xFF then some ((List.range 6).flatMap fun k => measurement (k + 1) s)
      else if inRange i 1 6 then some (measurement i s) else none
    match blocks with
    | some b => spdmReply ep (if sign then withSignature (0x60 :: b ++ nonce) else 0x60 :: b) s
    | none => spdmReply ep [0x7F, 0x01] s
  | _ => s

/-- Sessions: on DOE only, one for each mailbox; IDE_KM in a session sets the port's link IDE stream (R579). -/
def spdmSession (ep : Nat) (doe : Bool) (r : SpdmReq) (s : State) : State :=
  let q := spdmOf ep s
  match r with
  | .keyExchange slot x =>
    if !doe then spdmReply ep [0x7F, 0x07] s
    else if slot != 0 then spdmReply ep [0x7F, 0x01] s
    else if q.session then spdmReply ep [0x7F, 0x0A] s
    else spdmReply ep (withSignature (0x64 :: x)) (onSpdm ep (fun q => { q with session := true }) s)
  | r =>
    if !doe || !q.session then spdmReply ep [0x7F, 0x0B] s
    else match r with
      | .finish => spdmReply ep [0x65] s
      | .heartbeat => spdmReply ep [0x68] s
      | .keyUpdate => spdmReply ep [0x69] s
      | .endSession => spdmReply ep [0x6C] (onSpdm ep (fun q => { q with session := false }) s)
      | .ideKm a => spdmReply ep [0x7E] (onPort (ep - 1) (fun p => { p with ide := a }) (onSpdm ep (fun q => { q with ideActive := a }) s))
      | _ => s

/-- SPDM_REQUEST (R579, R581): the security core answers while firmware carries the requests; DOE is a host port's transport. Anything
but the connection's own requests needs the connection. -/
def spdmRequest (ep : Nat) (doe : Bool) (r : SpdmReq) (s : State) : State :=
  if !firmwareUp s || !endpointUp ep s || (doe && ep == 0) then s
  else match r with
    | .getVersion => spdmConnect ep r s
    | .getCapabilities => spdmConnect ep r s
    | .negotiateAlgorithms => spdmConnect ep r s
    | .other c => spdmReply ep [0x7F, 0x07, BitVec.ofNat 64 c] s
    | r =>
      if (spdmOf ep s).version < 3 then spdmReply ep [0x7F, 0x04] s
      else match r with
        | .getDigests => spdmAttest ep r s
        | .getCertificate _ => spdmAttest ep r s
        | .challenge _ _ => spdmAttest ep r s
        | .getMeasurements _ _ _ => spdmAttest ep r s
        | r => spdmSession ep doe r s

/-- SPDM_REQUEST. -/
def execSpdmRequest (endpoint : Nat) (doe : Bool) (request : SpdmReq) (s : State) : Host.Outcome State Fault Refusal :=
  .next (spdmRequest endpoint doe request s)

end Sys2Proof.Machine
end

