-- ==== Sys2Proof/Machine/Registers.lean ====
section
/-! DEFINITION. Machine/Registers.lean: host accesses to BAR0 registers (00_scope.md R10 to R13; 05 R151, R157, R160, R167, R177, R181):
writes, and split reads with their latches. -/
namespace Sys2Proof.Machine

/-- Forget the latch that a master has for a register (R12). -/
def dropLatch (mid o : Nat) (s : State) : State := { s with latches := s.latches.filter fun l => !(l.mid == mid && l.offset == o) }

/-- An access of a size and offset that BAR0 takes (R151): 4 or 8 bytes naturally aligned; MB_DATA also takes writes of 16, 32 and 64. -/
def barAccess (o size : Nat) : Bool :=
  ((size == 4 || size == 8) && o % size == 0) ||
    ([16, 32, 64].contains size && inRange o 0x10000 0x1FFFF && o % 0x400 / 0x100 == 1 && o % size == 0)

/-- MB_DATA of a channel: bytes, and no 64-bit register (R157). -/
def mbDataAt (o : Nat) : Bool := inRange o 0x10000 0x1FFFF && inRange (o % 0x400) 0x100 0x1FF

/-- A register of 64 bits that takes only 8-byte writes (R13): every 64-bit register of the identity block (0x58 is unmapped, Table 5.3), the order slot, the event
ring and the mailbox channels but MB_DATA. -/
def wideReg (o : Nat) : Bool :=
  !narrowReg (o / 8 * 8) &&
    ((inRange o 0x10 0x8F && o / 8 * 8 != 0x58) || inRange o 0x100 0x21F || inRange o 0x300 0x3FF || inRange o 0x1800 0x180F ||
      (inRange o 0x10000 0x1FFFF && o % 0x400 < 0x18) || inRange o 0x20000 0x2000F || o / 8 * 8 == 0x40000)

/-- A write that reaches a register: the doorbells, the order slot, the channels and HEAD have an effect; every other register ignores
it (R11), but that a write to an unbound channel raises host-access-error (R160). -/
def writeReg (port o size : Nat) (v : W64) (s : State) : State :=
  let mid := hostMid port
  if inRange o 0x1000 0x10FF then
    if o % 0x10 == 0 then sqTail port ((o - 0x1000) / 0x10) (fld v 11 0) s
    else if o % 0x10 == 8 then cqHead port ((o - 0x1000) / 0x10) (fld v 11 0) s
    else s
  else if o == 0x1800 then tryBeginAll (enterOrder mid v true s)
  else if inRange o 0x10000 0x1FFFF then
    let c := (o - 0x10000) / 0x400
    if o % 0x400 == 8 then mbSend mid c (fld v 8 0) s
    else if inRange (o % 0x400) 0x100 0x1FF then mbData mid c (o % 0x400 - 0x100) (leBytes size v.toNat) s
    else if (chan c s).bind.isNone then hostAccessError port o s
    else s
  else if o == 0x20010 then eventHead port (fld v 14 0) s
  else s

/-- REGISTER_WRITE: a wrong size, or a port in D3hot (log 26), is an Unsupported Request; a 4-byte write of a 64-bit register is ignored and raises host-access-error
(R13). In the shelf state only the identity block is there, which takes no write. -/
def registerWrite (port o size : Nat) (v : W64) (s : State) : State :=
  if !configAnswered port s then s
  else if (portOf port s).d3 || !barAccess o size then send (.unsupported port) s
  else
    let s := if size == 4 then dropLatch (hostMid port) (o / 8 * 8) s else s
    if size == 4 && wideReg o then hostAccessError port o s
    else if s.boot.shadow.isNone then s
    else writeReg port o size v s

/-- REGISTER_WRITE. -/
def execRegisterWrite (port offset size : Nat) (value : W64) (s : State) : Host.Outcome State Fault Refusal :=
  .next (registerWrite port offset size value s)

/-- A 4-byte read of a low half (R12): it latches the high half; on MB_TAKE it clears the whole register, that is, takes the message. -/
def lowHalf (port o : Nat) (s : State) : State :=
  let mid := hostMid port
  let v := barWord port o s
  let s := send (.regRead mid o (BitVec.ofNat 64 (fld v 31 0))) (dropLatch mid o s)
  let s := if narrowReg o || mbDataAt o then s else { s with latches := ⟨mid, o, BitVec.ofNat 32 (fld v 63 32)⟩ :: s.latches }
  let c := (o - 0x10000) / 0x400
  if inRange o 0x10000 0x1FFFF && o % 0x400 == 0x10 && isReceiver (chan c s) mid then takeMessage c s else s

/-- A 4-byte read of a high half (R12): the latched value right after a read of the low half, else the current one; it clears nothing. -/
def highHalf (port o : Nat) (s : State) : State :=
  let mid := hostMid port
  let v := match s.latches.find? fun l => l.mid == mid && l.offset == o with
    | some l => l.high.toNat
    | none => fld (barWord port o s) 63 32
  send (.regRead mid (o + 4) (BitVec.ofNat 64 v)) (dropLatch mid o s)

/-- LOW_HALF_READ: a 4-byte read of a half of a register; the high half's offset ends in 4. -/
def halfRead (port o : Nat) (s : State) : State :=
  if !configAnswered port s then s
  else if (portOf port s).d3 || o % 4 != 0 then send (.unsupported port) s
  else if o % 8 == 0 then lowHalf port o s
  else highHalf port (o / 8 * 8) s

/-- LOW_HALF_READ. -/
def execLowHalfRead (port offset : Nat) (s : State) : Host.Outcome State Fault Refusal := .next (halfRead port offset s)

end Sys2Proof.Machine
end

