-- ==== Sys2Proof/Machine/Start.lean ====
section
/-! DEFINITION. Machine/Start.lean: the start-up self-test and the partitions becoming ready (03_power_up_and_boot.md R92 to R97; R319,
R532). -/
namespace Sys2Proof.Machine

/-- Every bucket rebuilt from fault-transient entries of the archive and of the log entries not yet archived (R532): without a valid
Clockwork backup at the last module reset, the archived ones count for the whole boot. -/
def rebuildBuckets (s : State) : State :=
  let transients := fun (l : List Event) => l.filter fun e => e.code == 0xA002
  let archived := (transients s.flash.archive).map fun e => (e.unit, if s.aon.cwValidAtReset then some e.count else none)
  let fresh := (transients (s.aon.log.drop (s.aon.log.length - s.aon.logNew))).map fun e => (e.unit, some e.count)
  onFaults (fun q => { q with old := archived ++ fresh }) s

/-- The spill reserve of a partition (R319): it ends at the CXL window. -/
def spillReserve (n : Nat) (s : State) : Nat × Nat :=
  let (b, z) := jobRange n s
  (b + z, reserveSize n s)

/-- A pool or an exported region of the blueprint overlaps a partition's spill reserve (R319). -/
def reserveTaken (n : Nat) (s : State) : Bool := match s.boot.shadow with
  | some b =>
    (b.pools.any fun p => overlap (p.base, p.bufferCount * 2 ^ p.bufferLog2) (spillReserve n s)) ||
      b.regions.any fun r => overlap (r.base, r.size * 2 ^ 21) (spillReserve n s)
  | none => false

/-- Fail partitions that have not failed yet (R93). -/
def failAll (ps : List Nat) (unit : Nat) (s : State) : State :=
  ps.foldl (fun s n => if (partOf n s).state == 4 then s else failPartition n unit s) s

/-- A core fails the start-up self-test: replaced under the rules of sparing (R92, R541); no job runs, so the spare takes the position at
once. -/
def startCore (c : Nat) (kind : SwapKind) (s : State) : State :=
  let u : TestUnit := if kind == .coreStore then .coreBank c 0 else .core c
  let s := lastingByTest u none s
  match s.faults.swaps.find? fun w => some w.position == servedBy c s || w.position == c with
  | some w => spareTakes w 0 [] s
  | none => s

/-- Whether the start-up self-test reaches a unit (R92, R40): the channels of parked stack halves are not tested, and core logic that is
fused off is not there (R196). -/
def startTests (s : State) : StartUnit → Bool
  | .core c => !fusedOff c
  | .row c _ _ _ => (partOfChannel c s).isSome
  | .bank c _ _ => (partOfChannel c s).isSome
  | .channel c => (partOfChannel c s).isSome
  | .lane c => (partOfChannel c s).isSome
  | _ => true

/-- The outcome of a unit's failure (Table 3.6). -/
def startFailure (s : State) (u : StartUnit) : State :=
  if !startTests s u then s else
  let lane := fun (c : Nat) (s : State) => match partOfChannel c s with
    | some n => failAll [n] (unitChannel c) s
    | none => s
  match u with
  | .core c => startCore c .datapath s
  | .coreStore c => startCore c .coreStore s
  | .clusterBank g =>
    failAll (partsOfUnit (.clusterBank g 0) s) (unitCluster g) (takeOut (.clusterBank g 0) (raiseLasting (.clusterBank g 0) false 3 s))
  | .row c p b r =>
    let s := lastingByTest (.row c p b r) none s
    if unitOut (unitChannel c) s then lane c s else s
  | .bank c p b =>
    if s.faults.banks.contains (2 * c + p) then lane c (takeOut (.lane c) (raiseLasting (.row c p b 0) false 3 s))
    else
      let s := raiseLasting (.row c p b 0) false 2 s
      raiseU (.row c p b 0) 0x5003 (bankWord p b 0) (onFaults (fun q => { q with banks := q.banks ++ [2 * c + p] }) s)
  | .channel c => lane c (takeOut (.lane c) (raiseLasting (.channel c) false 3 s))
  | .lane c => lane c (takeOut (.lane c) (raiseLasting (.lane c) false 3 s))
  | .jacks d => lastingByTest (.jacks d) none s
  | .domino d => lastingByTest (.domino d) none s

/-- STAGE becomes running once every existing partition has READY or FAILED set (R96). -/
def endStart (s : State) : State :=
  if s.boot.stage == 2 && (partIds s).all fun n => s.boot.ready.testBit n || s.boot.failed.testBit n then
    { s with boot := { s.boot with stage := 3 } }
  else s

/-- STARTUP_SELF_TEST: the puppeteer cores are released; firmware starts, asks for BOOT_OP, trains the links and tests every enabled
unit. In the clock-loss wait the gates stay shut, the links idle and the stacks in self-refresh until it ends (R120, R123). -/
def startupSelfTest (failing : List StartUnit) (s : State) : State :=
  if !s.boot.romDone || s.boot.stage != 0 || s.boot.shadow.isNone then s
  else
    let s := { s with
      boot := { s.boot with stage := 2 }
      wake := { s.wake with gatesOpen := !s.clk.gated, linksIdle := s.clk.gated, selfRefresh := s.clk.gated } }
    let s := rebuildBuckets (firmwareStart s)
    let s := trainAll (opTarget (clocksCfg s).bootOp 0 s)
    let s := failing.foldl startFailure s
    endStart ((partIds s).foldl (fun s n => if reserveTaken n s then failAll [n] (unitPart n) s else s) s)

/-- STARTUP_SELF_TEST. -/
def execStartupSelfTest (failing : List StartUnit) (s : State) : Host.Outcome State Fault Refusal := .next (startupSelfTest failing s)

/-- PARTITION_READY: the factory check job of a partition has run in local mode; READY sets, or the partition fails (R92, R96). In
the clock-loss wait a ready partition shows STATE 0x5 and starts no job (R121). -/
def partitionReady (n : Nat) (checkPassed : Bool) (s : State) : State :=
  if s.boot.stage != 2 || !present n s || (partOf n s).state != 1 then s
  else if checkPassed then
    endStart (onPart n (fun p => { p with state := if s.clk.gated then 5 else 2 }) { s with boot := { s.boot with ready := s.boot.ready ||| 2 ^ n } })
  else endStart (failPartition n (unitPart n) s)

/-- PARTITION_READY. -/
def execPartitionReady (partition : Nat) (checkPassed : Bool) (s : State) : Host.Outcome State Fault Refusal :=
  .next (partitionReady partition checkPassed s)

end Sys2Proof.Machine
end

