-- ==== Sys2Proof/Machine/Tap.lean ====
section
/-! DEFINITION. Machine/Tap.lean: the IEEE 1149.1 TAP (17_module_electrical_mechanical.md R605, R615). -/
namespace Sys2Proof.Machine

/-- Bits of a number, least significant first, as a TAP shifts them out. -/
def tapBits (n w : Nat) : List Bool := (List.range w).map fun i => n.testBit i

/-- Select a TAP instruction. -/
def tapSelect (i : TapInstr) (s : State) : State := { s with tap := { s.tap with instr := i } }

/-- The shelf state, in which EXTEST, CLAMP and HIGHZ drive pins (R615). -/
def inShelf (s : State) : Bool := s.boot.stage == 4

/-- What drives the pins now (R615): outside the shelf state EXTEST, CLAMP and HIGHZ act as BYPASS, also one selected in it before. -/
def pinDrive (s : State) : PinDrive :=
  if !inShelf s then .functional
  else match s.tap.instr with
    | .extest => .cells
    | .clamp => .cells
    | .highz => .floating
    | _ => .functional

/-- Shift the bypass register out: one bit, read as 0. -/
def tapBypass (i : TapInstr) (s : State) : State := send (.tdo [false]) (tapSelect i s)

/-- Shift the boundary cells out and new ones in. -/
def tapCells (i : TapInstr) (cells : List Bool) (s : State) : State :=
  let s := send (.tdo s.tap.cells) (tapSelect i s)
  { s with tap := { s.tap with cells } }

/-- BYPASS (R615): the bypass register; the pins work as usual. -/
def execBypass (s : State) : Host.Outcome State Fault Refusal := .next (tapBypass .bypass s)

/-- IDCODE (R615): 0x10B8_454F is shifted out, least significant bit first. -/
def execIdcode (s : State) : Host.Outcome State Fault Refusal :=
  .next (send (.tdo (tapBits 0x10B8454F 32)) (tapSelect .idcode s))

/-- SAMPLE/PRELOAD (R615): the boundary cells' former contents go out and new ones are preloaded; no pin is driven. -/
def execSamplePreload (cells : List Bool) (s : State) : Host.Outcome State Fault Refusal := .next (tapCells .samplePreload cells s)

/-- EXTEST (R615): boundary cells drive the pins in the shelf state; at any other time it acts as BYPASS. -/
def execExtest (cells : List Bool) (s : State) : Host.Outcome State Fault Refusal :=
  .next (if inShelf s then tapCells .extest cells s else tapBypass .extest s)

/-- CLAMP (R615): pins held at the boundary cells in the shelf state, with the bypass register selected. -/
def execClamp (s : State) : Host.Outcome State Fault Refusal := .next (tapBypass .clamp s)

/-- HIGHZ (R615): pins float in the shelf state, with the bypass register selected. -/
def execHighz (s : State) : Host.Outcome State Fault Refusal := .next (tapBypass .highz s)

/-- TRST_N asserted (R605): the TAP returns to its reset state, IDCODE selected and the pins functional. -/
def execTrstNAssert (s : State) : Host.Outcome State Fault Refusal := .next (tapSelect .idcode s)

end Sys2Proof.Machine
end

