-- ==== Sys2Proof/Machine/Dispatch.lean ====
section
/-! DEFINITION. Machine/Dispatch.lean: one arm per command. -/
namespace Sys2Proof.Machine

/-- The effect of a command on everything but the queue. -/
def exec (i : Instr) (s : State) : Host.Outcome State Fault Refusal :=
  match i with
  | .feedApplied feed mv straps => Sys2Proof.Machine.execFeedApplied feed mv straps s
  | .pwrEnAssert downRunning => Sys2Proof.Machine.execPwrEnAssert downRunning s
  | .pwrEnDeassert => Sys2Proof.Machine.execPwrEnDeassert s
  | .wakeReadySignal => Sys2Proof.Machine.execWakeReadySignal s
  | .wakeStepTimeout rail => Sys2Proof.Machine.execWakeStepTimeout rail s
  | .wakeRailFault rail => Sys2Proof.Machine.execWakeRailFault rail s
  | .wakeRetryWaitEnd => Sys2Proof.Machine.execWakeRetryWaitEnd s
  | .railFaultRunning rail => Sys2Proof.Machine.execRailFaultRunning rail s
  | .powerLoss mv0 mv1 mv2 => Sys2Proof.Machine.execPowerLoss mv0 mv1 mv2 s
  | .supplySwitchToCell mv0 mv1 mv2 => Sys2Proof.Machine.execSupplySwitchToCell mv0 mv1 mv2 s
  | .supplyQualifyEnd => Sys2Proof.Machine.execSupplyQualifyEnd s
  | .supplySwitchDone => Sys2Proof.Machine.execSupplySwitchDone s
  | .backupCellLevelChange level => Sys2Proof.Machine.execBackupCellLevelChange level s
  | .thermalTrip sensor => Sys2Proof.Machine.execThermalTrip sensor s
  | .thermtripRelease => Sys2Proof.Machine.execThermtripRelease s
  | .orderModuleReset mid word last => Sys2Proof.Machine.execOrderModuleReset mid word last s
  | .moduleResetDelayEnd => Sys2Proof.Machine.execModuleResetDelayEnd s
  | .bootRom => Sys2Proof.Machine.execBootRom s
  | .startupSelfTest failing => Sys2Proof.Machine.execStartupSelfTest failing s
  | .partitionReady partition checkPassed => Sys2Proof.Machine.execPartitionReady partition checkPassed s
  | .opTargetRequest index pause => Sys2Proof.Machine.execOpTargetRequest index pause s
  | .opRampReached pause => Sys2Proof.Machine.execOpRampReached pause s
  | .opSettleEnd pause => Sys2Proof.Machine.execOpSettleEnd pause s
  | .opRampTimeout => Sys2Proof.Machine.execOpRampTimeout s
  | .refLossOfSignal ref => Sys2Proof.Machine.execRefLossOfSignal ref s
  | .refWindowEnd inRangeA inRangeB => Sys2Proof.Machine.execRefWindowEnd inRangeA inRangeB s
  | .refaDwellEnd => Sys2Proof.Machine.execRefaDwellEnd s
  | .referenceSwitchEnd => Sys2Proof.Machine.execReferenceSwitchEnd s
  | .syncIntervalTimer t1 refs => Sys2Proof.Machine.execSyncIntervalTimer t1 refs s
  | .syncLossTimeout => Sys2Proof.Machine.execSyncLossTimeout s
  | .coastingLimitTimeout => Sys2Proof.Machine.execCoastingLimitTimeout s
  | .syncinEdge at8 => Sys2Proof.Machine.execSyncinEdge at8 s
  | .syncinAbsentTimeout => Sys2Proof.Machine.execSyncinAbsentTimeout s
  | .orderClockResync mid word last => Sys2Proof.Machine.execOrderClockResync mid word last s
  | .curtainCountReached count => Sys2Proof.Machine.execCurtainCountReached count s
  | .perstNAssert port => Sys2Proof.Machine.execPerstNAssert port s
  | .perstNRelease port => Sys2Proof.Machine.execPerstNRelease port s
  | .d3hotEntry port => Sys2Proof.Machine.execD3hotEntry port s
  | .pcieConfigWrite port w => Sys2Proof.Machine.execPcieConfigWrite port w s
  | .hostLinkUp port rate width flit cxl => Sys2Proof.Machine.execHostLinkUp port rate width flit cxl s
  | .hostLinkDown port => Sys2Proof.Machine.execHostLinkDown port s
  | .registerWrite port offset size value => Sys2Proof.Machine.execRegisterWrite port offset size value s
  | .lowHalfRead port offset => Sys2Proof.Machine.execLowHalfRead port offset s
  | .bar2Access port cxl offset op => Sys2Proof.Machine.execBar2Access port cxl offset op s
  | .mbSend mid channel length => Sys2Proof.Machine.execMbSend mid channel length s
  | .mbDataWrite mid channel offset data => Sys2Proof.Machine.execMbDataWrite mid channel offset data s
  | .mbTake mid channel => Sys2Proof.Machine.execMbTake mid channel s
  | .hostControlMalformed channel => Sys2Proof.Machine.execHostControlMalformed channel s
  | .qpCreate channel => Sys2Proof.Machine.execQpCreate channel s
  | .qpDelete channel => Sys2Proof.Machine.execQpDelete channel s
  | .qpDeleteDrained port qp => Sys2Proof.Machine.execQpDeleteDrained port qp s
  | .eventRingSet channel => Sys2Proof.Machine.execEventRingSet channel s
  | .eventRingRelease channel => Sys2Proof.Machine.execEventRingRelease channel s
  | .bar2Window channel => Sys2Proof.Machine.execBar2Window channel s
  | .spillArea channel => Sys2Proof.Machine.execSpillArea channel s
  | .sqTail port qp value => Sys2Proof.Machine.execSqTail port qp value s
  | .cqHead port qp value => Sys2Proof.Machine.execCqHead port qp value s
  | .submissionFetch port qp entry => Sys2Proof.Machine.execSubmissionFetch port qp entry s
  | .submissionFetchFailed port qp => Sys2Proof.Machine.execSubmissionFetchFailed port qp s
  | .loadJob port qp seq package failed => Sys2Proof.Machine.execLoadJob port qp seq package failed s
  | .startJob port qp seq => Sys2Proof.Machine.execStartJob port qp seq s
  | .abortJob port qp seq => Sys2Proof.Machine.execAbortJob port qp seq s
  | .unloadJob port qp seq => Sys2Proof.Machine.execUnloadJob port qp seq s
  | .copyIn port qp seq data => Sys2Proof.Machine.execCopyIn port qp seq data s
  | .copyOut port qp seq sent => Sys2Proof.Machine.execCopyOut port qp seq sent s
  | .nop port qp seq => Sys2Proof.Machine.execNop port qp seq s
  | .completionWrite port qp => Sys2Proof.Machine.execCompletionWrite port qp s
  | .eventHead port value => Sys2Proof.Machine.execEventHead port value s
  | .eventBacklogDrain partition => Sys2Proof.Machine.execEventBacklogDrain partition s
  | .queueSaturationTimeout port qp => Sys2Proof.Machine.execQueueSaturationTimeout port qp s
  | .orderPowerCap mid word last => Sys2Proof.Machine.execOrderPowerCap mid word last s
  | .orderLinkDisable mid word last => Sys2Proof.Machine.execOrderLinkDisable mid word last s
  | .orderLinkEnable mid word last => Sys2Proof.Machine.execOrderLinkEnable mid word last s
  | .orderPartitionReset mid word last => Sys2Proof.Machine.execOrderPartitionReset mid word last s
  | .partitionResetDone partition visible => Sys2Proof.Machine.execPartitionResetDone partition visible s
  | .arrayOperationEnd tile ctx spun rotation operand drain bank limiter => Sys2Proof.Machine.execArrayOperationEnd tile ctx spun rotation operand drain bank limiter s
  | .spinnerWindowExpiry core array => Sys2Proof.Machine.execSpinnerWindowExpiry core array s
  | .arrayStartStagger cluster cycles => Sys2Proof.Machine.execArrayStartStagger cluster cycles s
  | .fillDeadlineExpiry tile ctx stream => Sys2Proof.Machine.execFillDeadlineExpiry tile ctx stream s
  | .batchRowArrival tile ctx unit => Sys2Proof.Machine.execBatchRowArrival tile ctx unit s
  | .instructionComplete tile ctx unit => Sys2Proof.Machine.execInstructionComplete tile ctx unit s
  | .copy tile ctx waits => Sys2Proof.Machine.execCopy tile ctx waits s
  | .mcast tile ctx waits => Sys2Proof.Machine.execMcast tile ctx waits s
  | .gather tile ctx waits => Sys2Proof.Machine.execGather tile ctx waits s
  | .batchOpen tile ctx waits => Sys2Proof.Machine.execBatchOpen tile ctx waits s
  | .batchEnd tile ctx waits => Sys2Proof.Machine.execBatchEnd tile ctx waits s
  | .atomic tile ctx waits => Sys2Proof.Machine.execAtomic tile ctx waits s
  | .mac tile ctx waits => Sys2Proof.Machine.execMac tile ctx waits s
  | .elem tile ctx waits => Sys2Proof.Machine.execElem tile ctx waits s
  | .reduce tile ctx waits => Sys2Proof.Machine.execReduce tile ctx waits s
  | .convert tile ctx waits => Sys2Proof.Machine.execConvert tile ctx waits s
  | .rand tile ctx waits => Sys2Proof.Machine.execRand tile ctx waits s
  | .topk tile ctx waits => Sys2Proof.Machine.execTopk tile ctx waits s
  | .dispatchSend tile ctx waits => Sys2Proof.Machine.execDispatchSend tile ctx waits s
  | .dispatchReceive tile ctx waits => Sys2Proof.Machine.execDispatchReceive tile ctx waits s
  | .dispatchFeed tile ctx waits => Sys2Proof.Machine.execDispatchFeed tile ctx waits s
  | .dispatchRelease tile ctx waits => Sys2Proof.Machine.execDispatchRelease tile ctx waits s
  | .groupGather tile ctx waits => Sys2Proof.Machine.execGroupGather tile ctx waits s
  | .groupScatter tile ctx waits => Sys2Proof.Machine.execGroupScatter tile ctx waits s
  | .sparsePack tile ctx waits => Sys2Proof.Machine.execSparsePack tile ctx waits s
  | .combineSend tile ctx waits => Sys2Proof.Machine.execCombineSend tile ctx waits s
  | .combineReceive tile ctx waits => Sys2Proof.Machine.execCombineReceive tile ctx waits s
  | .gradToExpertSend tile ctx waits => Sys2Proof.Machine.execGradToExpertSend tile ctx waits s
  | .gradToExpertReceive tile ctx waits => Sys2Proof.Machine.execGradToExpertReceive tile ctx waits s
  | .gradToExpertFeed tile ctx waits => Sys2Proof.Machine.execGradToExpertFeed tile ctx waits s
  | .gradToExpertRelease tile ctx waits => Sys2Proof.Machine.execGradToExpertRelease tile ctx waits s
  | .gradReturnSend tile ctx waits => Sys2Proof.Machine.execGradReturnSend tile ctx waits s
  | .gradReturnReceive tile ctx waits => Sys2Proof.Machine.execGradReturnReceive tile ctx waits s
  | .reduceDx32 tile ctx waits => Sys2Proof.Machine.execReduceDx32 tile ctx waits s
  | .reduceFp32 tile ctx waits => Sys2Proof.Machine.execReduceFp32 tile ctx waits s
  | .broadcast tile ctx waits => Sys2Proof.Machine.execBroadcast tile ctx waits s
  | .allgather tile ctx waits => Sys2Proof.Machine.execAllgather tile ctx waits s
  | .permute tile ctx waits => Sys2Proof.Machine.execPermute tile ctx waits s
  | .norm tile ctx waits => Sys2Proof.Machine.execNorm tile ctx waits s
  | .counts tile ctx waits => Sys2Proof.Machine.execCounts tile ctx waits s
  | .vote tile ctx waits => Sys2Proof.Machine.execVote tile ctx waits s
  | .curtain tile ctx waits => Sys2Proof.Machine.execCurtain tile ctx waits s
  | .barrier tile ctx waits => Sys2Proof.Machine.execBarrier tile ctx waits s
  | .send tile ctx waits => Sys2Proof.Machine.execSend tile ctx waits s
  | .recv tile ctx waits => Sys2Proof.Machine.execRecv tile ctx waits s
  | .fence tile ctx waits => Sys2Proof.Machine.execFence tile ctx waits s
  | .wait tile ctx waits => Sys2Proof.Machine.execWait tile ctx waits s
  | .ctrlNop tile ctx waits => Sys2Proof.Machine.execCtrlNop tile ctx waits s
  | .loop tile ctx waits => Sys2Proof.Machine.execLoop tile ctx waits s
  | .jump tile ctx waits => Sys2Proof.Machine.execJump tile ctx waits s
  | .branch tile ctx waits => Sys2Proof.Machine.execBranch tile ctx waits s
  | .branchDrainEnd tile ctx cycles => Sys2Proof.Machine.execBranchDrainEnd tile ctx cycles s
  | .setx tile ctx waits => Sys2Proof.Machine.execSetx tile ctx waits s
  | .addx tile ctx waits => Sys2Proof.Machine.execAddx tile ctx waits s
  | .time tile ctx waits => Sys2Proof.Machine.execTime tile ctx waits s
  | .endList tile ctx waits => Sys2Proof.Machine.execEndList tile ctx waits s
  | .ifetchRefillDone tile ctx cycles => Sys2Proof.Machine.execIfetchRefillDone tile ctx cycles s
  | .runStart port qp seq => Sys2Proof.Machine.execRunStart port qp seq s
  | .runEnd partition job => Sys2Proof.Machine.execRunEnd partition job s
  | .stuckRunTimeout partition job => Sys2Proof.Machine.execStuckRunTimeout partition job s
  | .tileSaturationTimeout tile ctx => Sys2Proof.Machine.execTileSaturationTimeout tile ctx s
  | .reserve pool requester => Sys2Proof.Machine.execReserve pool requester s
  | .alloc pool requester owner credited => Sys2Proof.Machine.execAlloc pool requester owner credited s
  | .free pool unit buffer => Sys2Proof.Machine.execFree pool unit buffer s
  | .handoff pool unit buffer owner => Sys2Proof.Machine.execHandoff pool unit buffer owner s
  | .poolWaitServed pool => Sys2Proof.Machine.execPoolWaitServed pool s
  | .poolSaturationTimeout pool => Sys2Proof.Machine.execPoolSaturationTimeout pool s
  | .bufferAgeSweep => Sys2Proof.Machine.execBufferAgeSweep s
  | .scrubAccess line finding => Sys2Proof.Machine.execScrubAccess line finding s
  | .bankSpareCopyDone channel pc bank => Sys2Proof.Machine.execBankSpareCopyDone channel pc bank s
  | .addWrite channel => Sys2Proof.Machine.execAddWrite channel s
  | .segmentUpdateDone partition job segment failed => Sys2Proof.Machine.execSegmentUpdateDone partition job segment failed s
  | .accClearDone partition job segment => Sys2Proof.Machine.execAccClearDone partition job segment s
  | .commitAt partition job count outcome => Sys2Proof.Machine.execCommitAt partition job count outcome s
  | .startUpdate partition job segment => Sys2Proof.Machine.execStartUpdate partition job segment s
  | .redo partition job segment => Sys2Proof.Machine.execRedo partition job segment s
  | .restoreBegin partition job segment => Sys2Proof.Machine.execRestoreBegin partition job segment s
  | .restoreEnd partition job segment => Sys2Proof.Machine.execRestoreEnd partition job segment s
  | .digest partition job segment slot => Sys2Proof.Machine.execDigest partition job segment slot s
  | .reemit partition job segment => Sys2Proof.Machine.execReemit partition job segment s
  | .serdenPowerGate engine => Sys2Proof.Machine.execSerdenPowerGate engine s
  | .commitCountReached partition job => Sys2Proof.Machine.execCommitCountReached partition job s
  | .stepCurtainRelease partition job => Sys2Proof.Machine.execStepCurtainRelease partition job s
  | .frameAcquired partition job queue grad micro => Sys2Proof.Machine.execFrameAcquired partition job queue grad micro s
  | .count link h0 h1 data => Sys2Proof.Machine.execCount link h0 h1 data s
  | .grant link h0 h1 data => Sys2Proof.Machine.execGrant link h0 h1 data s
  | .dispatchRow link h0 h1 data => Sys2Proof.Machine.execDispatchRow link h0 h1 data s
  | .combineRow link h0 h1 data => Sys2Proof.Machine.execCombineRow link h0 h1 data s
  | .gradRequest link h0 h1 => Sys2Proof.Machine.execGradRequest link h0 h1 s
  | .gradReady link h0 h1 => Sys2Proof.Machine.execGradReady link h0 h1 s
  | .gradRow link h0 h1 data => Sys2Proof.Machine.execGradRow link h0 h1 data s
  | .returnRow link h0 h1 data => Sys2Proof.Machine.execReturnRow link h0 h1 data s
  | .linkTrainStageDone link pair => Sys2Proof.Machine.execLinkTrainStageDone link pair s
  | .linkTrainTimeout link => Sys2Proof.Machine.execLinkTrainTimeout link s
  | .linkTrainRetryEnd link => Sys2Proof.Machine.execLinkTrainRetryEnd link s
  | .identityFlit link seat peer mode narrow forward pair => Sys2Proof.Machine.execIdentityFlit link seat peer mode narrow forward pair s
  | .ethernetLinkUp link => Sys2Proof.Machine.execEthernetLinkUp link s
  | .flitReceive link words => Sys2Proof.Machine.execFlitReceive link words s
  | .nakRepeat link => Sys2Proof.Machine.execNakRepeat link s
  | .read link h0 h1 => Sys2Proof.Machine.execRead link h0 h1 s
  | .write link h0 h1 data => Sys2Proof.Machine.execWrite link h0 h1 data s
  | .atomicPacket link h0 h1 count data => Sys2Proof.Machine.execAtomicPacket link h0 h1 count data s
  | .chanWrite link h0 h1 data => Sys2Proof.Machine.execChanWrite link h0 h1 data s
  | .readData link h0 h1 data => Sys2Proof.Machine.execReadData link h0 h1 data s
  | .writeAck link h0 h1 => Sys2Proof.Machine.execWriteAck link h0 h1 s
  | .atomicAck link h0 h1 => Sys2Proof.Machine.execAtomicAck link h0 h1 s
  | .atomicData link h0 h1 data => Sys2Proof.Machine.execAtomicData link h0 h1 data s
  | .chanAck link h0 h1 => Sys2Proof.Machine.execChanAck link h0 h1 s
  | .chanCredit link h0 h1 => Sys2Proof.Machine.execChanCredit link h0 h1 s
  | .syncReq link seat t1 t2 t3 => Sys2Proof.Machine.execSyncReq link seat t1 t2 t3 s
  | .syncResp link seat t1 t2 t3 t4 => Sys2Proof.Machine.execSyncResp link seat t1 t2 t3 t4 s
  | .heartbeat link seat count reach => Sys2Proof.Machine.execHeartbeat link seat count reach s
  | .heartbeatTimer => Sys2Proof.Machine.execHeartbeatTimer s
  | .heartbeatMissTimeout seat => Sys2Proof.Machine.execHeartbeatMissTimeout seat s
  | .resolve link member key => Sys2Proof.Machine.execResolve link member key s
  | .resolveReply link member key base size perm => Sys2Proof.Machine.execResolveReply link member key base size perm s
  | .handover link seq => Sys2Proof.Machine.execHandover link seq s
  | .switchPropose link count => Sys2Proof.Machine.execSwitchPropose link count s
  | .switchAgree link count => Sys2Proof.Machine.execSwitchAgree link count s
  | .channelDeclare link declared => Sys2Proof.Machine.execChannelDeclare link declared s
  | .advice link words => Sys2Proof.Machine.execAdvice link words s
  | .report link message => Sys2Proof.Machine.execReport link message s
  | .deadTargetCheck => Sys2Proof.Machine.execDeadTargetCheck s
  | .laneLossOfLock link lane => Sys2Proof.Machine.execLaneLossOfLock link lane s
  | .ackProgressTimeout link => Sys2Proof.Machine.execAckProgressTimeout link s
  | .handoverTimeout link => Sys2Proof.Machine.execHandoverTimeout link s
  | .narrowingDone link => Sys2Proof.Machine.execNarrowingDone link s
  | .narrowingTimeout link => Sys2Proof.Machine.execNarrowingTimeout link s
  | .routeSwitchCount => Sys2Proof.Machine.execRouteSwitchCount s
  | .switchReproposeTimer link => Sys2Proof.Machine.execSwitchReproposeTimer link s
  | .linkSaturationTimeout link vl => Sys2Proof.Machine.execLinkSaturationTimeout link vl s
  | .dmtData link d0 d1 h0 h1 data ce => Sys2Proof.Machine.execDmtData link d0 d1 h0 h1 data ce s
  | .dmtAck link d0 d1 d2 d3 => Sys2Proof.Machine.execDmtAck link d0 d1 d2 d3 s
  | .dmtCnp partition seat cls flow => Sys2Proof.Machine.execDmtCnp partition seat cls flow s
  | .dmtAckTimer link seat cls flow => Sys2Proof.Machine.execDmtAckTimer link seat cls flow s
  | .dmtRto partition seat cls flow => Sys2Proof.Machine.execDmtRto partition seat cls flow s
  | .dmtRateRecovery partition seat cls flow => Sys2Proof.Machine.execDmtRateRecovery partition seat cls flow s
  | .ethernetControlFrame link kind => Sys2Proof.Machine.execEthernetControlFrame link kind s
  | .collExponent link h0 h1 data => Sys2Proof.Machine.execCollExponent link h0 h1 data s
  | .collValue link h0 h1 data => Sys2Proof.Machine.execCollValue link h0 h1 data s
  | .collPartial link h0 h1 data => Sys2Proof.Machine.execCollPartial link h0 h1 data s
  | .collData link h0 h1 data => Sys2Proof.Machine.execCollData link h0 h1 data s
  | .collVote link h0 h1 data => Sys2Proof.Machine.execCollVote link h0 h1 data s
  | .collDecision link h0 h1 data => Sys2Proof.Machine.execCollDecision link h0 h1 data s
  | .collDecisionAck link h0 h1 => Sys2Proof.Machine.execCollDecisionAck link h0 h1 s
  | .collQuery link h0 h1 => Sys2Proof.Machine.execCollQuery link h0 h1 s
  | .collDigest link h0 h1 data => Sys2Proof.Machine.execCollDigest link h0 h1 data s
  | .collDone link h0 h1 => Sys2Proof.Machine.execCollDone link h0 h1 s
  | .collRequest link h0 h1 data => Sys2Proof.Machine.execCollRequest link h0 h1 data s
  | .voteTimeout partition job => Sys2Proof.Machine.execVoteTimeout partition job s
  | .decisionQueryTimeout partition job => Sys2Proof.Machine.execDecisionQueryTimeout partition job s
  | .permuteRoundEnd partition job cdesc => Sys2Proof.Machine.execPermuteRoundEnd partition job cdesc s
  | .errorDetected unit cls tile => Sys2Proof.Machine.execErrorDetected unit cls tile s
  | .selfTestComplete unit passed => Sys2Proof.Machine.execSelfTestComplete unit passed s
  | .spareTakesPosition position heldUs lost spareFails => Sys2Proof.Machine.execSpareTakesPosition position heldUs lost spareFails s
  | .unitRetestTimer => Sys2Proof.Machine.execUnitRetestTimer s
  | .unitRejoin unit => Sys2Proof.Machine.execUnitRejoin unit s
  | .powerSample watts => Sys2Proof.Machine.execPowerSample watts s
  | .governorTick fixedMw seen => Sys2Proof.Machine.execGovernorTick fixedMw seen s
  | .shareWatchdogTimeout => Sys2Proof.Machine.execShareWatchdogTimeout s
  | .opDecision predicted pause => Sys2Proof.Machine.execOpDecision predicted pause s
  | .droopDetect cluster belowMv cycles => Sys2Proof.Machine.execDroopDetect cluster belowMv cycles s
  | .thermalSensorUpdate readings pause => Sys2Proof.Machine.execThermalSensorUpdate readings pause s
  | .hotThrottleTimer pause => Sys2Proof.Machine.execHotThrottleTimer pause s
  | .i3cDynamicAddress address => Sys2Proof.Machine.execI3cDynamicAddress address s
  | .setEndpointId endpoint eid => Sys2Proof.Machine.execSetEndpointId endpoint eid s
  | .getEndpointId endpoint => Sys2Proof.Machine.execGetEndpointId endpoint s
  | .getEndpointUuid endpoint => Sys2Proof.Machine.execGetEndpointUuid endpoint s
  | .getMctpVersionSupport endpoint type => Sys2Proof.Machine.execGetMctpVersionSupport endpoint type s
  | .getMessageTypeSupport endpoint => Sys2Proof.Machine.execGetMessageTypeSupport endpoint s
  | .pldmBaseDiscovery endpoint request => Sys2Proof.Machine.execPldmBaseDiscovery endpoint request s
  | .getSensorReading endpoint sensor analogue => Sys2Proof.Machine.execGetSensorReading endpoint sensor analogue s
  | .setEventReceiver endpoint receiver => Sys2Proof.Machine.execSetEventReceiver endpoint receiver s
  | .pollForPlatformEventMessage endpoint => Sys2Proof.Machine.execPollForPlatformEventMessage endpoint s
  | .platformEventAck endpoint => Sys2Proof.Machine.execPlatformEventAck endpoint s
  | .eventResendTimer => Sys2Proof.Machine.execEventResendTimer s
  | .telemetryRefresh millivolt milliamp => Sys2Proof.Machine.execTelemetryRefresh millivolt milliamp s
  | .eventLogArchive => Sys2Proof.Machine.execEventLogArchive s
  | .spdmRequest endpoint doe request => Sys2Proof.Machine.execSpdmRequest endpoint doe request s
  | .queryDeviceIdentifiers endpoint => Sys2Proof.Machine.execQueryDeviceIdentifiers endpoint s
  | .getFirmwareParameters endpoint => Sys2Proof.Machine.execGetFirmwareParameters endpoint s
  | .requestUpdate endpoint fw bp maxTransfer => Sys2Proof.Machine.execRequestUpdate endpoint fw bp maxTransfer s
  | .passComponentTable endpoint component stamp => Sys2Proof.Machine.execPassComponentTable endpoint component stamp s
  | .updateComponent endpoint component stamp size => Sys2Proof.Machine.execUpdateComponent endpoint component stamp size s
  | .firmwareData endpoint data => Sys2Proof.Machine.execFirmwareData endpoint data s
  | .imageVerify endpoint component => Sys2Proof.Machine.execImageVerify endpoint component s
  | .activateFirmware endpoint => Sys2Proof.Machine.execActivateFirmware endpoint s
  | .getStatus endpoint => Sys2Proof.Machine.execGetStatus endpoint s
  | .cancelUpdateComponent endpoint => Sys2Proof.Machine.execCancelUpdateComponent endpoint s
  | .cancelUpdate endpoint => Sys2Proof.Machine.execCancelUpdate endpoint s
  | .updateInactivityTimeout => Sys2Proof.Machine.execUpdateInactivityTimeout s
  | .getUpdateState endpoint => Sys2Proof.Machine.execGetUpdateState endpoint s
  | .confirmUpdate endpoint => Sys2Proof.Machine.execConfirmUpdate endpoint s
  | .rollbackUpdate endpoint => Sys2Proof.Machine.execRollbackUpdate endpoint s
  | .programKeySlot endpoint slot hash => Sys2Proof.Machine.execProgramKeySlot endpoint slot hash s
  | .revokeKeySlot endpoint slot => Sys2Proof.Machine.execRevokeKeySlot endpoint slot s
  | .trialDeadlineCheck => Sys2Proof.Machine.execTrialDeadlineCheck s
  | .bypass => Sys2Proof.Machine.execBypass s
  | .idcode => Sys2Proof.Machine.execIdcode s
  | .samplePreload cells => Sys2Proof.Machine.execSamplePreload cells s
  | .extest cells => Sys2Proof.Machine.execExtest cells s
  | .clamp => Sys2Proof.Machine.execClamp s
  | .highz => Sys2Proof.Machine.execHighz s
  | .regionResolveTimeout partition job => Sys2Proof.Machine.execRegionResolveTimeout partition job s
  | .fabricManagerMessage link message => Sys2Proof.Machine.execFabricManagerMessage link message s
  | .ethernetLinkDown link => Sys2Proof.Machine.execEthernetLinkDown link s
  | .wakeAfterPowerDown => Sys2Proof.Machine.execWakeAfterPowerDown s
  | .orderReservedKind mid word last => Sys2Proof.Machine.execOrderReservedKind mid word last s
  | .doeDiscovery port index => Sys2Proof.Machine.execDoeDiscovery port index s
  | .trstNAssert => Sys2Proof.Machine.execTrstNAssert s
  | .retentionVoltageDip toZero => Sys2Proof.Machine.execRetentionVoltageDip toZero s

end Sys2Proof.Machine
end

