-- ==== Sys2Proof/WellFormed.lean ====
section
/-! DEFINITION. WellFormed.lean: the ranges of the operands of commands, each from the rule that numbers the thing. -/
namespace Sys2Proof

/-- Host ports H0 to H3 (R142). -/
def portOk (n : Nat) : Bool := n < 4
/-- Queue pairs 0 to 15 of a port (R165). -/
def qpOk (n : Nat) : Bool := n < 16
/-- Partitions P0 to P3 (R38). -/
def partitionOk (n : Nat) : Bool := n < 4
/-- Mailbox channels 0 to 63 (R157). -/
def mailboxOk (n : Nat) : Bool := n < 64
/-- Byte offsets in MB_DATA (R157). -/
def mailOffsetOk (n : Nat) : Bool := n < 256
/-- Stack channels 32 x stack + channel (R545). -/
def stackChannelOk (n : Nat) : Bool := n < 256
/-- Pseudo-channels of a channel. -/
def pcOk (n : Nat) : Bool := n < 2
/-- Banks of a pseudo-channel, an 8-bit number (Table 14.15). -/
def bankOk (n : Nat) : Bool := n < 256
/-- Tiles 0 to 1,023 (R193). -/
def tileOk (n : Nat) : Bool := n < 1024
/-- Core indices (R545): two dies of 33 clusters of 16. -/
def coreOk (n : Nat) : Bool := n < 1056
/-- Clusters die x 33 + cluster (R545). -/
def clusterOk (n : Nat) : Bool := n < 66
/-- Tile clusters 0 to 63 (R193). -/
def tileClusterOk (n : Nat) : Bool := n < 64
/-- Links 0 to 35 (R54). -/
def linkOk (n : Nat) : Bool := n < 36
/-- Master identities, 8 bits (R42). -/
def midOk (n : Nat) : Bool := n < 256
/-- Management endpoints: the port and four host ports (R571). -/
def endpointOk (n : Nat) : Bool := n < 5
/-- Seats, 12 bits (R54). -/
def seatOk (n : Nat) : Bool := n < 4096
/-- Job numbers, 32 bits (R169). -/
def jobOk (n : Nat) : Bool := n < 2 ^ 32
/-- Segments of an optimiser table (R350). -/
def segmentOk (n : Nat) : Bool := n < 4096
/-- Toybox pools 0 to 15 (R59). -/
def poolOk (n : Nat) : Bool := n < 16
/-- Arrays, batch streams and link lanes: four of each. -/
def quarterOk (n : Nat) : Bool := n < 4
/-- Virtual lanes 0 to 4 (R434). -/
def vlOk (n : Nat) : Bool := n < 5
/-- Serden engines 0 to 7, one a stack (R42). -/
def engineOk (n : Nat) : Bool := n < 8
/-- Members of a pod (R54). -/
def memberOk (n : Nat) : Bool := n < 64
/-- Micro-batches, 8 bits (R390). -/
def microOk (n : Nat) : Bool := n < 256
/-- Collective descriptors (R480). -/
def cdescOk (n : Nat) : Bool := n < 65536
/-- Codes of pool requesters and owners that Table 9.8 does not reserve (R329). -/
def unitNoOk (n : Nat) : Bool :=
  n < 0x404 || (0x410 ≤ n && n ≤ 0x433) || (0x440 ≤ n && n ≤ 0x447) || (0x480 ≤ n && n ≤ 0x4BF)
/-- Owner key slots (R583). -/
def keySlotOk (n : Nat) : Bool := n < 4
/-- 54 V feeds (R601). -/
def feedOk (n : Nat) : Bool := n < 3
/-- Management address straps (R605). -/
def strapsOk (n : Nat) : Bool := n < 8
/-- DMT traffic classes 0 to 4 (R460). -/
def classOk (n : Nat) : Bool := n < 5
/-- DMT flow labels, 24 bits (R459). -/
def flowOk (n : Nat) : Bool := n < 2 ^ 24
/-- PORT_INFO.RATE codes (R153). -/
def rateOk (n : Nat) : Bool := n < 7
/-- Lanes of a host port (R153). -/
def widthOk (n : Nat) : Bool := n < 17
/-- I3C addresses, 7 bits. -/
def addressOk (n : Nat) : Bool := n < 128
/-- Rail indices, 0xFF for none (R81). -/
def railOk (n : Nat) : Bool := n < 256
/-- What trains in stage 1: all lanes, lanes 0 and 1, lanes 2 and 3 (R427). -/
def pairOk (n : Nat) : Bool := n < 3
/-- Offsets in BAR0, 1 MiB (R151). -/
def bar0Ok (n : Nat) : Bool := n < 2 ^ 20
/-- A flit is 256 bytes (R430). -/
def flitOk (ws : List W64) : Bool := ws.length == 32
/-- A submission entry is 64 bytes (R169). -/
def entryOk (ws : List W64) : Bool := ws.length == 8
/-- The sensors of Table 15.1, 90 of them. -/
def readingsOk (rs : List Nat) : Bool := rs.length == 90

/-- Units of Table 14.5. -/
def TestUnit.ok : TestUnit → Bool
  | .array c i => coreOk c && quarterOk i
  | .epilogue c => coreOk c
  | .fetcher c => coreOk c
  | .sequencer c => coreOk c
  | .vector c => coreOk c
  | .core c => coreOk c
  | .coreBank c b => coreOk c && b < 16
  | .clusterBank g b => clusterOk g && b < 64
  | .row c p b r => stackChannelOk c && pcOk p && bankOk b && jobOk r
  | .channel c => stackChannelOk c
  | .lane c => stackChannelOk c
  | .linkLane k i => linkOk k && quarterOk i
  | .jacks d => pcOk d
  | .domino d => pcOk d
  | .bridge => true

/-- Every operand of a command is in its range. -/
def Instr.wellFormed : Instr → Bool
  | .feedApplied feed _ straps => feedOk feed && strapsOk straps
  | .pwrEnAssert _ => true
  | .pwrEnDeassert => true
  | .wakeReadySignal => true
  | .wakeStepTimeout rail => railOk rail
  | .wakeRailFault rail => railOk rail
  | .wakeRetryWaitEnd => true
  | .railFaultRunning rail => railOk rail
  | .powerLoss _ _ _ => true
  | .supplySwitchToCell _ _ _ => true
  | .supplyQualifyEnd => true
  | .supplySwitchDone => true
  | .backupCellLevelChange _ => true
  | .thermalTrip _ => true
  | .thermtripRelease => true
  | .orderModuleReset mid _ _ => midOk mid
  | .moduleResetDelayEnd => true
  | .bootRom => true
  | .startupSelfTest _ => true
  | .partitionReady partition _ => partitionOk partition
  | .opTargetRequest _ _ => true
  | .opRampReached _ => true
  | .opSettleEnd _ => true
  | .opRampTimeout => true
  | .refLossOfSignal _ => true
  | .refWindowEnd _ _ => true
  | .refaDwellEnd => true
  | .referenceSwitchEnd => true
  | .syncIntervalTimer _ _ => true
  | .syncLossTimeout => true
  | .coastingLimitTimeout => true
  | .syncinEdge _ => true
  | .syncinAbsentTimeout => true
  | .orderClockResync mid _ _ => midOk mid
  | .curtainCountReached _ => true
  | .perstNAssert port => portOk port
  | .perstNRelease port => portOk port
  | .d3hotEntry port => portOk port
  | .pcieConfigWrite port _ => portOk port
  | .hostLinkUp port rate width _ _ => portOk port && rateOk rate && widthOk width
  | .hostLinkDown port => portOk port
  | .registerWrite port offset _ _ => portOk port && bar0Ok offset
  | .lowHalfRead port offset => portOk port && bar0Ok offset
  | .bar2Access port _ _ _ => portOk port
  | .mbSend mid channel _ => midOk mid && mailboxOk channel
  | .mbDataWrite mid channel offset _ => midOk mid && mailboxOk channel && mailOffsetOk offset
  | .mbTake mid channel => midOk mid && mailboxOk channel
  | .hostControlMalformed channel => mailboxOk channel
  | .qpCreate channel => mailboxOk channel
  | .qpDelete channel => mailboxOk channel
  | .qpDeleteDrained port qp => portOk port && qpOk qp
  | .eventRingSet channel => mailboxOk channel
  | .eventRingRelease channel => mailboxOk channel
  | .bar2Window channel => mailboxOk channel
  | .spillArea channel => mailboxOk channel
  | .sqTail port qp _ => portOk port && qpOk qp
  | .cqHead port qp _ => portOk port && qpOk qp
  | .submissionFetch port qp entry => portOk port && qpOk qp && entryOk entry
  | .submissionFetchFailed port qp => portOk port && qpOk qp
  | .loadJob port qp _ _ _ => portOk port && qpOk qp
  | .startJob port qp _ => portOk port && qpOk qp
  | .abortJob port qp _ => portOk port && qpOk qp
  | .unloadJob port qp _ => portOk port && qpOk qp
  | .copyIn port qp _ _ => portOk port && qpOk qp
  | .copyOut port qp _ _ => portOk port && qpOk qp
  | .nop port qp _ => portOk port && qpOk qp
  | .completionWrite port qp => portOk port && qpOk qp
  | .eventHead port _ => portOk port
  | .eventBacklogDrain partition => partitionOk partition
  | .queueSaturationTimeout port qp => portOk port && qpOk qp
  | .orderPowerCap mid _ _ => midOk mid
  | .orderLinkDisable mid _ _ => midOk mid
  | .orderLinkEnable mid _ _ => midOk mid
  | .orderPartitionReset mid _ _ => midOk mid
  | .partitionResetDone partition _ => partitionOk partition
  | .arrayOperationEnd tile _ _ _ _ _ _ _ => tileOk tile
  | .spinnerWindowExpiry core array => coreOk core && quarterOk array
  | .arrayStartStagger cluster _ => clusterOk cluster
  | .fillDeadlineExpiry tile _ stream => tileOk tile && quarterOk stream
  | .batchRowArrival tile _ _ => tileOk tile
  | .instructionComplete tile _ _ => tileOk tile
  | .copy tile _ _ => tileOk tile
  | .mcast tile _ _ => tileOk tile
  | .gather tile _ _ => tileOk tile
  | .batchOpen tile _ _ => tileOk tile
  | .batchEnd tile _ _ => tileOk tile
  | .atomic tile _ _ => tileOk tile
  | .mac tile _ _ => tileOk tile
  | .elem tile _ _ => tileOk tile
  | .reduce tile _ _ => tileOk tile
  | .convert tile _ _ => tileOk tile
  | .rand tile _ _ => tileOk tile
  | .topk tile _ _ => tileOk tile
  | .dispatchSend tile _ _ => tileOk tile
  | .dispatchReceive tile _ _ => tileOk tile
  | .dispatchFeed tile _ _ => tileOk tile
  | .dispatchRelease tile _ _ => tileOk tile
  | .groupGather tile _ _ => tileOk tile
  | .groupScatter tile _ _ => tileOk tile
  | .sparsePack tile _ _ => tileOk tile
  | .combineSend tile _ _ => tileOk tile
  | .combineReceive tile _ _ => tileOk tile
  | .gradToExpertSend tile _ _ => tileOk tile
  | .gradToExpertReceive tile _ _ => tileOk tile
  | .gradToExpertFeed tile _ _ => tileOk tile
  | .gradToExpertRelease tile _ _ => tileOk tile
  | .gradReturnSend tile _ _ => tileOk tile
  | .gradReturnReceive tile _ _ => tileOk tile
  | .reduceDx32 tile _ _ => tileOk tile
  | .reduceFp32 tile _ _ => tileOk tile
  | .broadcast tile _ _ => tileOk tile
  | .allgather tile _ _ => tileOk tile
  | .permute tile _ _ => tileOk tile
  | .norm tile _ _ => tileOk tile
  | .counts tile _ _ => tileOk tile
  | .vote tile _ _ => tileOk tile
  | .curtain tile _ _ => tileOk tile
  | .barrier tile _ _ => tileOk tile
  | .send tile _ _ => tileOk tile
  | .recv tile _ _ => tileOk tile
  | .fence tile _ _ => tileOk tile
  | .wait tile _ _ => tileOk tile
  | .ctrlNop tile _ _ => tileOk tile
  | .loop tile _ _ => tileOk tile
  | .jump tile _ _ => tileOk tile
  | .branch tile _ _ => tileOk tile
  | .branchDrainEnd tile _ _ => tileOk tile
  | .setx tile _ _ => tileOk tile
  | .addx tile _ _ => tileOk tile
  | .time tile _ _ => tileOk tile
  | .endList tile _ _ => tileOk tile
  | .ifetchRefillDone tile _ _ => tileOk tile
  | .runStart port qp _ => portOk port && qpOk qp
  | .runEnd partition job => partitionOk partition && jobOk job
  | .stuckRunTimeout partition job => partitionOk partition && jobOk job
  | .tileSaturationTimeout tile _ => tileOk tile
  | .reserve pool requester => poolOk pool && unitNoOk requester
  | .alloc pool requester owner _ => poolOk pool && unitNoOk requester && unitNoOk owner
  | .free pool unit _ => poolOk pool && unitNoOk unit
  | .handoff pool unit _ owner => poolOk pool && unitNoOk unit && unitNoOk owner
  | .poolWaitServed pool => poolOk pool
  | .poolSaturationTimeout pool => poolOk pool
  | .bufferAgeSweep => true
  | .scrubAccess _ _ => true
  | .bankSpareCopyDone channel pc bank => stackChannelOk channel && pcOk pc && bankOk bank
  | .addWrite channel => stackChannelOk channel
  | .segmentUpdateDone partition job segment _ => partitionOk partition && jobOk job && segmentOk segment
  | .accClearDone partition job segment => partitionOk partition && jobOk job && segmentOk segment
  | .commitAt partition job _ _ => partitionOk partition && jobOk job
  | .startUpdate partition job segment => partitionOk partition && jobOk job && segmentOk segment
  | .redo partition job segment => partitionOk partition && jobOk job && segmentOk segment
  | .restoreBegin partition job segment => partitionOk partition && jobOk job && segmentOk segment
  | .restoreEnd partition job segment => partitionOk partition && jobOk job && segmentOk segment
  | .digest partition job segment _ => partitionOk partition && jobOk job && segmentOk segment
  | .reemit partition job segment => partitionOk partition && jobOk job && segmentOk segment
  | .serdenPowerGate engine => engineOk engine
  | .commitCountReached partition job => partitionOk partition && jobOk job
  | .stepCurtainRelease partition job => partitionOk partition && jobOk job
  | .frameAcquired partition job _ _ micro => partitionOk partition && jobOk job && microOk micro
  | .count link _ _ _ => linkOk link
  | .grant link _ _ _ => linkOk link
  | .dispatchRow link _ _ _ => linkOk link
  | .combineRow link _ _ _ => linkOk link
  | .gradRequest link _ _ => linkOk link
  | .gradReady link _ _ => linkOk link
  | .gradRow link _ _ _ => linkOk link
  | .returnRow link _ _ _ => linkOk link
  | .linkTrainStageDone link pair => linkOk link && pairOk pair
  | .linkTrainTimeout link => linkOk link
  | .linkTrainRetryEnd link => linkOk link
  | .identityFlit link seat peer _ _ _ pair => linkOk link && seatOk seat && linkOk peer && pairOk pair
  | .ethernetLinkUp link => linkOk link
  | .flitReceive link words => linkOk link && flitOk words
  | .nakRepeat link => linkOk link
  | .read link _ _ => linkOk link
  | .write link _ _ _ => linkOk link
  | .atomicPacket link _ _ _ _ => linkOk link
  | .chanWrite link _ _ _ => linkOk link
  | .readData link _ _ _ => linkOk link
  | .writeAck link _ _ => linkOk link
  | .atomicAck link _ _ => linkOk link
  | .atomicData link _ _ _ => linkOk link
  | .chanAck link _ _ => linkOk link
  | .chanCredit link _ _ => linkOk link
  | .syncReq link seat _ _ _ => linkOk link && seatOk seat
  | .syncResp link seat _ _ _ _ => linkOk link && seatOk seat
  | .heartbeat link seat _ _ => linkOk link && seatOk seat
  | .heartbeatTimer => true
  | .heartbeatMissTimeout seat => seatOk seat
  | .resolve link member _ => linkOk link && memberOk member
  | .resolveReply link member _ _ _ _ => linkOk link && memberOk member
  | .handover link _ => linkOk link
  | .switchPropose link _ => linkOk link
  | .switchAgree link _ => linkOk link
  | .channelDeclare link _ => linkOk link
  | .advice link _ => linkOk link
  | .report link _ => linkOk link
  | .deadTargetCheck => true
  | .laneLossOfLock link lane => linkOk link && quarterOk lane
  | .ackProgressTimeout link => linkOk link
  | .handoverTimeout link => linkOk link
  | .narrowingDone link => linkOk link
  | .narrowingTimeout link => linkOk link
  | .routeSwitchCount => true
  | .switchReproposeTimer link => linkOk link
  | .linkSaturationTimeout link vl => linkOk link && vlOk vl
  | .dmtData link _ _ _ _ _ _ => linkOk link
  | .dmtAck link _ _ _ _ => linkOk link
  | .dmtCnp partition seat cls flow => partitionOk partition && seatOk seat && classOk cls && flowOk flow
  | .dmtAckTimer link seat cls flow => linkOk link && seatOk seat && classOk cls && flowOk flow
  | .dmtRto partition seat cls flow => partitionOk partition && seatOk seat && classOk cls && flowOk flow
  | .dmtRateRecovery partition seat cls flow => partitionOk partition && seatOk seat && classOk cls && flowOk flow
  | .ethernetControlFrame link _ => linkOk link
  | .collExponent link _ _ _ => linkOk link
  | .collValue link _ _ _ => linkOk link
  | .collPartial link _ _ _ => linkOk link
  | .collData link _ _ _ => linkOk link
  | .collVote link _ _ _ => linkOk link
  | .collDecision link _ _ _ => linkOk link
  | .collDecisionAck link _ _ => linkOk link
  | .collQuery link _ _ => linkOk link
  | .collDigest link _ _ _ => linkOk link
  | .collDone link _ _ => linkOk link
  | .collRequest link _ _ _ => linkOk link
  | .voteTimeout partition job => partitionOk partition && jobOk job
  | .decisionQueryTimeout partition job => partitionOk partition && jobOk job
  | .permuteRoundEnd partition job cdesc => partitionOk partition && jobOk job && cdescOk cdesc
  | .errorDetected unit _ tile => unit.ok && tileOk tile
  | .selfTestComplete unit _ => unit.ok
  | .spareTakesPosition position _ _ _ => coreOk position
  | .unitRetestTimer => true
  | .unitRejoin unit => unit.ok
  | .powerSample _ => true
  | .governorTick _ _ => true
  | .shareWatchdogTimeout => true
  | .opDecision _ _ => true
  | .droopDetect cluster _ _ => clusterOk cluster
  | .thermalSensorUpdate readings _ => readingsOk readings
  | .hotThrottleTimer _ => true
  | .i3cDynamicAddress address => addressOk address
  | .setEndpointId endpoint _ => endpointOk endpoint
  | .getEndpointId endpoint => endpointOk endpoint
  | .getEndpointUuid endpoint => endpointOk endpoint
  | .getMctpVersionSupport endpoint _ => endpointOk endpoint
  | .getMessageTypeSupport endpoint => endpointOk endpoint
  | .pldmBaseDiscovery endpoint _ => endpointOk endpoint
  | .getSensorReading endpoint _ _ => endpointOk endpoint
  | .setEventReceiver endpoint _ => endpointOk endpoint
  | .pollForPlatformEventMessage endpoint => endpointOk endpoint
  | .platformEventAck endpoint => endpointOk endpoint
  | .eventResendTimer => true
  | .telemetryRefresh _ _ => true
  | .eventLogArchive => true
  | .spdmRequest endpoint _ _ => endpointOk endpoint
  | .queryDeviceIdentifiers endpoint => endpointOk endpoint
  | .getFirmwareParameters endpoint => endpointOk endpoint
  | .requestUpdate endpoint _ _ _ => endpointOk endpoint
  | .passComponentTable endpoint _ _ => endpointOk endpoint
  | .updateComponent endpoint _ _ _ => endpointOk endpoint
  | .firmwareData endpoint _ => endpointOk endpoint
  | .imageVerify endpoint _ => endpointOk endpoint
  | .activateFirmware endpoint => endpointOk endpoint
  | .getStatus endpoint => endpointOk endpoint
  | .cancelUpdateComponent endpoint => endpointOk endpoint
  | .cancelUpdate endpoint => endpointOk endpoint
  | .updateInactivityTimeout => true
  | .getUpdateState endpoint => endpointOk endpoint
  | .confirmUpdate endpoint => endpointOk endpoint
  | .rollbackUpdate endpoint => endpointOk endpoint
  | .programKeySlot endpoint slot _ => endpointOk endpoint && keySlotOk slot
  | .revokeKeySlot endpoint slot => endpointOk endpoint && keySlotOk slot
  | .trialDeadlineCheck => true
  | .bypass => true
  | .idcode => true
  | .samplePreload _ => true
  | .extest _ => true
  | .clamp => true
  | .highz => true
  | .regionResolveTimeout partition job => partitionOk partition && jobOk job
  | .fabricManagerMessage link _ => linkOk link
  | .ethernetLinkDown link => linkOk link
  | .wakeAfterPowerDown => true
  | .orderReservedKind mid _ _ => midOk mid
  | .doeDiscovery port _ => portOk port
  | .trstNAssert => true
  | .retentionVoltageDip _ => true

end Sys2Proof
end

