-- ==== Sys2Proof/Certificates/Slice0/Obligations.lean ====
section
/-! DEFINITION. Certificates/Slice0/Obligations.lean: the statements for the provers. -/
open Sys2Proof Sys2Proof.Machine

/-! ### Power-up, the wake sequence, power-down and the always-on domain (03, 17) -/

/-- R77, R79, R81, R83: an assertion of PWR_EN in standby or SAFE_HOLD, with THERMTRIP_N released, starts attempt 1 at step 1
with WAKE_STATUS cleared and FAULT_N deasserted; one that comes during a power-down starts the wake once WAKE_AFTER_POWER_DOWN
says that its 100 ms are over. Table 3.1 (R77, R81): the ready signal of a wake step switches that step's rails on and starts the next step; step 4 starts
the boot oscillator, step 8 locks the root PLL to the reference that qualified first (R116), and step 9 asserts PGOOD and releases the
security core at the boot ROM with RESULT woke. Nothing else but the clocks and wake state changes up to step 8. R78, R79, R80, R81: a step that times out, or a good rail that loses good (of an earlier step, or of the step itself before its last one), ends the attempt: the attempt's WAKE_STATUS byte
holds the step and the cause of Table 3.2, every rail goes off, and the 100 ms wait or, after the fourth attempt, SAFE_HOLD with
FAULT_N asserted and RESULT 0x2 follows; the end of the wait starts the next attempt at step 1.
Where the spec leaves a point open, the statement follows the model's choices of log entries 7, 16. -/
def Obligations.WakeSequence : Prop :=
  (
  ∀ s : State,
  (s.wake.phase = .standby ∨ s.wake.phase = .safeHold) → s.wake.thermtripN = false →
    (s.wake.pwrEn = false →
      (Answers (.pwrEnAssert false) s fun t =>
        t.wake = { s.wake with pwrEn := true, phase := .waking 1 1, faultN := false, wakePending := false, inputLost := false } ∧
        t.aon.wake = { attempts := 1, result := 0, rail := 0xFF, bytes := [(0, 0), (0, 0), (0, 0), (0, 0)] } ∧
        t = { s with wake := t.wake, aon := { s.aon with wake := t.aon.wake } }) ∧
      (Answers (.pwrEnAssert true) s fun t =>
        t.wake = { s.wake with pwrEn := true, wakePending := true } ∧
        t = { s with wake := t.wake, aon := { s.aon with wake := {} } })) ∧
    (s.wake.pwrEn = true → s.wake.wakePending = true →
      Answers .wakeAfterPowerDown s fun t =>
        t.wake = { s.wake with phase := .waking 1 1, faultN := false, wakePending := false, inputLost := false } ∧
        t.aon.wake = { attempts := 1, result := 0, rail := 0xFF, bytes := [(0, 0), (0, 0), (0, 0), (0, 0)] } ∧
        t = { s with wake := t.wake, aon := { s.aon with wake := t.aon.wake } })) ∧
  (
  ∀ (s : State) (a : Nat),
  (s.wake.phase = .waking 1 a → (∀ v ∈ s.wake.feeds, 40000 ≤ v ∧ v ≤ 60000) →
    Answers .wakeReadySignal s fun t => t = { s with wake := { s.wake with phase := .waking 2 a } }) ∧
  (∀ step mask, (step, mask) ∈ [(2, 0x001), (3, 0x002), (5, 0x01C), (6, 0x060), (7, 0x180)] → s.wake.phase = .waking step a →
    Answers .wakeReadySignal s fun t =>
      (∀ r, t.wake.rails.testBit r = (s.wake.rails ||| mask).testBit r) ∧
      t = { s with wake := { s.wake with phase := .waking (step + 1) a, rails := t.wake.rails } }) ∧
  (s.wake.phase = .waking 4 a →
    Answers .wakeReadySignal s fun t =>
      t = { s with wake := { s.wake with phase := .waking 5 a, bootOsc := true }, clk := Clk.reset }) ∧
  (s.wake.phase = .waking 8 a → (s.clk.qualA = true ∨ s.clk.qualB = true) →
    Answers .wakeReadySignal s fun t =>
      t = { s with wake := { s.wake with phase := .waking 9 a, pllLocked := true }
                   clk := { s.clk with source := t.clk.source } } ∧
      (t.clk.source = .onRefB ↔ s.clk.qualB = true ∧ (s.clk.first = some .refB ∨ s.clk.qualA = false)) ∧
      (t.clk.source ≠ .onRefB → t.clk.source = .onRefA)) ∧
  (s.wake.phase = .waking 9 a →
    Answers .wakeReadySignal s fun t =>
      t.wake.phase = .running ∧ t.wake.pgood = true ∧ t.aon = { s.aon with wake := { s.aon.wake with result := 1 } } ∧
      t.boot.secRunning = true ∧ t.boot.romDone = false ∧ t.boot.stage = 0 ∧ t.clk = s.clk ∧ t.fuses = s.fuses ∧
      t.jobs = [] ∧ t.mem = [])) ∧
  (
  ∀ (s : State) (step attempt : Nat),
  s.wake.phase = .waking step attempt → 1 ≤ attempt → attempt ≤ 4 →
    (∀ rail, 1 ≤ step → step ≤ 9 → Answers (.wakeStepTimeout rail) s fun t =>
      (∃ cause, t.aon.wake.bytes = s.aon.wake.bytes.set (attempt - 1) (step, cause) ∧
        (step = 1 → cause = 1) ∧ (step = 4 → cause = 4) ∧ (step = 9 → cause = 7) ∧
        (step ∈ [2, 3, 5, 6, 7] → cause = 2) ∧
        (step = 8 → cause = if s.clk.qualA ∨ s.clk.qualB then 6 else 5)) ∧
      (step ∈ [1, 4, 8, 9] → t.aon.wake.rail = s.aon.wake.rail) ∧
      ((step, rail) ∈ [(2, 0), (3, 1), (5, 2), (5, 3), (5, 4), (6, 5), (6, 6), (7, 7), (7, 8)] → t.aon.wake.rail = rail) ∧
      t.wake.rails = 0 ∧
      (attempt < 4 → t.wake.phase = .retryWait attempt ∧ t.aon.wake.result = s.aon.wake.result) ∧
      (attempt = 4 → t.wake.phase = .safeHold ∧ t.wake.faultN = true ∧ t.aon.wake.result = 2) ∧
      t = { s with wake := t.wake, clk := t.clk, aon := { s.aon with wake := t.aon.wake } }) ∧
    (∀ rail, (s.wake.rails.testBit rail = true ∨ (step, rail) ∈ [(5, 2), (5, 3), (6, 5), (7, 7)]) →
     Answers (.wakeRailFault rail) s fun t =>
      t.aon.wake.bytes = s.aon.wake.bytes.set (attempt - 1) (step, 3) ∧ t.aon.wake.rail = rail ∧ t.wake.rails = 0 ∧
      (attempt < 4 → t.wake.phase = .retryWait attempt) ∧
      (attempt = 4 → t.wake.phase = .safeHold ∧ t.wake.faultN = true ∧ t.aon.wake.result = 2) ∧
      t = { s with wake := t.wake, clk := t.clk, aon := { s.aon with wake := t.aon.wake } }) ∧
    (Answers .wakeRetryWaitEnd { s with wake := { s.wake with phase := .retryWait attempt } } fun t =>
      t.wake.phase = .waking 1 (attempt + 1) ∧ t.aon.wake.attempts = attempt + 1 ∧
      t = { s with wake := { s.wake with phase := .waking 1 (attempt + 1) }
                   aon := { s.aon with wake := { s.aon.wake with attempts := attempt + 1 } } }))

/-- What is left after the power-down of Table 3.4 (R83, R84, R99, R106): PGOOD and every rail off, the issue gates shut, the
Clockwork backup written, and of the rest only the always-on domain, flash and fuses. -/
def PoweredDown (s t : State) : Prop :=
  t.wake.pgood = false ∧ t.wake.rails = 0 ∧ t.wake.gatesOpen = false ∧ t.wake.linksIdle = true ∧
  t.aon.cwCount = s.cwk.now ∧ t.aon.cwTk = s.aon.timekeeper ∧ t.aon.cwValid = true ∧
  t.mem = [] ∧ t.jobs = [] ∧ t.boot = Boot.reset ∧ t.cwk = Cwk.reset ∧ t.fuses = s.fuses ∧
  t.flash = { s.flash with bpProtect := none }

/-- R83, R84, R85, R106, R565, R607: each way down. PWR_EN deasserted after PGOOD and a power loss leave standby; a rail fault
leaves SAFE_HOLD with ATTEMPTS 1 and ATTEMPT1 step 0xF cause 0x3; a thermal trip asserts THERMTRIP_N and FAULT_N, and logs a
thermal-trip entry as the power loss logs its own. R83, R609, R624, R186: what ends an attempt, a trip and a reset delay. PWR_EN deasserted during the wake ends the attempt with
RESULT 0x3; THERMTRIP_N and FAULT_N release in standby once PWR_EN reads deasserted; the 5 ms of a winning MODULE_RESET end in a
warm reset, which keeps rails, PLL lock, PGOOD and WAKE_STATUS, writes the Clockwork backup and releases the security core.
Where the spec leaves a point open, the statement follows the model's choices of log entries 7, 16. -/
def Obligations.PowerDownAbortAndWarmReset : Prop :=
  (
  ∀ s : State, s.wake.phase = .running →
  (s.wake.pwrEn = true → Answers .pwrEnDeassert s fun t =>
    PoweredDown s t ∧ t.wake.phase = .standby ∧ t.aon.wake = s.aon.wake ∧ t.aon.log = s.aon.log ∧
      (s.wake.thermtripN = false → t.wake.faultN = false)) ∧
  (∀ rail, Answers (.railFaultRunning rail) s fun t =>
    PoweredDown s t ∧ t.wake.phase = .safeHold ∧ t.wake.faultN = true ∧ t.aon.wake.attempts = 1 ∧ t.aon.wake.result = 2 ∧
    t.aon.wake.bytes = [(0xF, 0x3), (0, 0), (0, 0), (0, 0)]) ∧
  (∀ a b c, s.wake.pgood = true → (a < 38000 ∨ b < 38000 ∨ c < 38000) → Answers (.powerLoss a b c) s fun t =>
    PoweredDown s t ∧ t.wake.phase = .standby ∧ t.wake.feeds = [a, b, c] ∧
    ∃ e ∈ t.aon.log, e.code = 0x1006 ∧ e.count = s.cwk.now) ∧
  (∀ sensor, Answers (.thermalTrip sensor) s fun t =>
    PoweredDown s t ∧ t.wake.phase = .standby ∧ t.wake.thermtripN = true ∧ t.wake.faultN = true ∧ t.aon.tripLatch = true ∧
    ∃ e ∈ t.aon.log, e.code = 0xB00A ∧ e.count = s.cwk.now)) ∧
  (
  ∀ s : State,
  (∀ step a, s.wake.pwrEn = true → (s.wake.phase = .waking step a ∨ s.wake.phase = .retryWait a) →
    Answers .pwrEnDeassert s fun t =>
      t.wake.phase = .standby ∧ t.wake.rails = 0 ∧ t.wake.pwrEn = false ∧ t.aon.wake = { s.aon.wake with result := 3 } ∧
      t = { s with wake := t.wake, clk := t.clk, aon := { s.aon with wake := t.aon.wake } }) ∧
  (s.wake.thermtripN = true → s.wake.pwrEn = false → s.wake.phase = .standby →
    Answers .thermtripRelease s fun t =>
      t = { s with wake := { s.wake with thermtripN := false, faultN := false }, aon := { s.aon with tripLatch := false } }) ∧
  (∀ r, s.orders.resetPending = some r →
    Answers .moduleResetDelayEnd s fun t =>
      t.wake.rails = s.wake.rails ∧ t.wake.pllLocked = s.wake.pllLocked ∧ t.wake.pgood = s.wake.pgood ∧
      t.wake.gatesOpen = false ∧ t.wake.linksIdle = true ∧ t.wake.selfRefresh = true ∧ t.aon.wake = s.aon.wake ∧
      t.wake.faultN = s.wake.thermtripN ∧
      t.aon.cwCount = s.cwk.now ∧ t.aon.cwTk = s.aon.timekeeper ∧ t.aon.cwValid = true ∧
      t.boot.secRunning = true ∧ t.boot.romDone = false ∧ t.orders = Orders.reset ∧ t.jobs = [] ∧
      ∃ e ∈ t.aon.log, e.w3 = BitVec.ofNat 64 r.winner))

/-- R101: the supply selector goes to the backup cell below 37.0 V, back to the standby converter only after the 10 ms
qualification without a break, and a switch that has started completes, after which an input at or above 39.0 V qualifies anew; with a
failed cell the loss of the input loses the always-on contents (R103). R603, R606, R103, R104: a feed that is applied takes its voltage, and the first one samples the straps; the cell's level is
taken, a change to low or failed raising a backup-cell event while firmware runs; a dip below 0.58 V on the cell breaks the
canary alone, and one to zero loses WAKE_STATUS and the log too.
Where the spec leaves a point open, the statement follows the model's choices of log entries 7, 198. -/
def Obligations.SuppliesCellAndRetention : Prop :=
  (
  ∀ s : State,
  (∀ a b c, s.aon.selector.switching = false → s.aon.selector.onCell = false →
    Answers (.supplySwitchToCell a b c) s fun t =>
      t.aon.selector = { s.aon.selector with switching := true, inputChanged := false } ∧ t.wake.feeds = [a, b, c] ∧
      t = { s with wake := t.wake, mgmt := t.mgmt, aon := { s.aon with selector := t.aon.selector } }) ∧
  (s.aon.selector.onCell = true → s.aon.selector.switching = false → s.aon.selector.qualifying = true →
   (∀ v ∈ s.wake.feeds, 39000 ≤ v) →
    Answers .supplyQualifyEnd s fun t =>
      t = { s with aon := { s.aon with selector := { onCell := true, switching := true, qualifying := false, inputChanged := false } } }) ∧
  (s.aon.selector.switching = true →
    Answers .supplySwitchDone s fun t =>
      t.aon.selector.onCell = (!s.aon.selector.onCell) ∧
      (s.aon.selector.onCell = false → t.aon.selector.switching = false ∧
        (t.aon.selector.qualifying = true ↔ ∀ v ∈ s.wake.feeds, 39000 ≤ v)) ∧
      (s.aon.selector.onCell = true → (t.aon.selector.switching = true ↔ ∃ v ∈ s.wake.feeds, v < 37000)) ∧
      (s.aon.selector.onCell = false → s.aon.cell = .failed → (∃ v ∈ s.wake.feeds, v < 37000) →
        t.aon.canary ≠ 0x5A3CC3A5 ∧ t.aon.log = [] ∧ t.aon.cwValid = false ∧ t = { s with aon := t.aon, wake := t.wake }) ∧
      ((s.aon.selector.onCell = true ∨ s.aon.cell ≠ .failed ∨ ∀ v ∈ s.wake.feeds, 37000 ≤ v) →
        t = { s with aon := { s.aon with selector := t.aon.selector } }))) ∧
  (
  ∀ s : State,
  (∀ feed mv straps, feed < 3 → s.wake.feeds = [0, 0, 0] →
    Answers (.feedApplied feed mv straps) s fun t =>
      t.wake.feeds = [0, 0, 0].set feed mv ∧ t.aon.straps = straps % 8 ∧ t.aon.log = s.aon.log ∧ t.flash = s.flash) ∧
  (∀ level, s.aon.cell ≠ level → s.boot.stage = 3 →
    Answers (.backupCellLevelChange level) s fun t =>
      t.aon.cell = level ∧
      ((level = .low ∨ level = .failed) → ∃ e ∈ t.aon.log, e.code = 0x1004 ∧ e.count = s.cwk.now) ∧
      ((level = .full ∨ level = .charging) → t = { s with aon := { s.aon with cell := level } })) ∧
  (s.aon.selector.onCell = true →
    (Answers (.retentionVoltageDip false) s fun t => t = { s with aon := { s.aon with canary := 0 } }) ∧
    (Answers (.retentionVoltageDip true) s fun t =>
      t.aon.canary ≠ 0x5A3CC3A5 ∧ t.aon.log = [] ∧ t.aon.wake.result = 0 ∧ t.aon.cwValid = false ∧
      t.wake.thermtripN = false ∧ t = { s with aon := t.aon, wake := t.wake })))

/-! ### The boot ROM and start-up (03) -/

/-- The state after step 1 of Table 3.5 and what the boot ROM does about an update, before it selects slots. -/
def beforeSlots (s : State) : State := bootUpdate (bootStep1 { s with boot := { s.boot with romDone := true } })

/-- R87, R88, R104, R107, R69, R67: the boot ROM re-writes a broken canary, counts the boot, and then: with both firmware slots
rejected, the firmware recovery state; with the named blueprint slot valid, lock of that slot with STATE 1; with both blueprint
slots rejected, the shelf state with FAULT_N asserted. R92, R96: firmware starts after the boot ROM has locked a blueprint: STAGE 2, the issue gates open, links leave idle, stacks
leave self-refresh, STAGE 3 once every partition is READY or FAILED. A partition whose check passes becomes READY in state 2; one
whose check fails is FAILED, takes no submissions and raises partition-start-failed.
Where the spec leaves a point open, the statement follows the model's choices of log entries 9, 12, 172, 199, 200, 206. -/
def Obligations.BootAndStartUp : Prop :=
  (
  ∀ s : State, s.boot.secRunning = true → s.boot.romDone = false →
  Answers .bootRom s fun t =>
    t.boot.romDone = true ∧ t.aon.canary = 0x5A3CC3A5 ∧
    t.aon.canaryLost = decide (s.aon.canary ≠ 0x5A3CC3A5) ∧
    (s.aon.canary = 0x5A3CC3A5 → t.aon.bootCount = min 0xFFFFFFFF (s.aon.bootCount + 1)) ∧
    (s.jobs = [] → t.jobs = [] ∧ t.mem = s.mem) ∧
    (let u := beforeSlots s
     let h := (selectHeader u.flash).1
     (selectFirmware h u = none → t.boot.stage = 1 ∧ t.wake.faultN = true ∧ t.boot.fwFallback = true) ∧
     (∀ slot fell, selectFirmware h u = some (slot, fell) →
       t.boot.fwSlot = slot ∧ t.boot.fwFallback = fell ∧
       (fell = false → ∀ bp, checkSlot h.bpSlot u = .ok bp →
         t.boot.shadow = some bp ∧ t.boot.bpState = 1 ∧ t.boot.bpSlot = h.bpSlot ∧ t.flash.bpProtect = some h.bpSlot ∧
         t.boot.stage = s.boot.stage) ∧
       (fell = false → ∀ e1 e2, checkSlot h.bpSlot u = .error e1 → checkSlot (!h.bpSlot) u = .error e2 →
         t.boot.stage = 4 ∧ t.boot.bpState = 3 ∧ t.wake.faultN = true ∧ t.boot.shadow = s.boot.shadow)))) ∧
  (
  ∀ s : State,
  (∀ bp, s.boot.romDone = true → s.boot.stage = 0 → s.boot.shadow = some bp →
    Answers (.startupSelfTest []) s fun t =>
      (t.boot.stage = 2 ∨ t.boot.stage = 3) ∧
      (s.clk.gated = false → t.wake.gatesOpen = true ∧ t.wake.linksIdle = false ∧ t.wake.selfRefresh = false) ∧
      (s.clk.gated = true → t.wake.gatesOpen = false ∧ t.wake.linksIdle = true ∧ t.wake.selfRefresh = true) ∧ t.boot.shadow = some bp ∧ t.boot.ready = s.boot.ready) ∧
  (∀ n, s.boot.stage = 2 → present n s = true → (partOf n s).state = 1 → n < s.parts.length →
    (Answers (.partitionReady n true) s fun t =>
      t.boot.ready = s.boot.ready ||| 2 ^ n ∧ t.boot.failed = s.boot.failed ∧
      (partOf n t).state = (if s.clk.gated then 5 else 2) ∧
      (∀ m, m ≠ n → partOf m t = partOf m s) ∧
      (t.boot.stage = 3 ↔ ∀ m, present m s = true → (t.boot.ready.testBit m = true ∨ t.boot.failed.testBit m = true)) ∧
      t = { s with boot := t.boot, parts := t.parts }) ∧
    (Answers (.partitionReady n false) s fun t =>
      t.boot.failed.testBit n = true ∧ t.boot.ready = s.boot.ready ∧ (partOf n t).state = 4)))

/-! ### Test access (17) -/

/-- R615, R605: what each TAP instruction selects and shifts out. EXTEST, CLAMP and HIGHZ act only in the shelf state and are
BYPASS at any other time; TRST_N returns the TAP to IDCODE with the pins functional. No TAP instruction reaches anything but the
TAP itself. -/
def Obligations.TapInstructions : Prop := ∀ (s : State) (cells : List Bool),
  let shifted := fun (i : TapInstr) (bits cs : List Bool) (d : PinDrive) (t : State) =>
    t = { s with out := s.out ++ [.tdo bits], tap := { instr := i, cells := cs } } ∧ pinDrive t = d
  let bypassed := fun (i : TapInstr) => shifted i [false] s.tap.cells .functional
  Answers .bypass s (bypassed .bypass) ∧
  (Answers .idcode s fun t => ∃ b, shifted .idcode b s.tap.cells .functional t ∧
    b.length = 32 ∧ ∀ i, i < 32 → b[i]? = some ((0x10B8454F : Nat).testBit i)) ∧
  Answers (.samplePreload cells) s (shifted .samplePreload s.tap.cells cells .functional) ∧
  (s.boot.stage = 4 →
    Answers (.extest cells) s (shifted .extest s.tap.cells cells .cells) ∧
    Answers .clamp s (shifted .clamp [false] s.tap.cells .cells) ∧
    Answers .highz s (shifted .highz [false] s.tap.cells .floating)) ∧
  (s.boot.stage ≠ 4 →
    Answers (.extest cells) s (bypassed .extest) ∧ Answers .clamp s (bypassed .clamp) ∧ Answers .highz s (bypassed .highz)) ∧
  (Answers .trstNAssert s fun t => t = { s with tap := { instr := .idcode, cells := s.tap.cells } } ∧ pinDrive t = .functional)

/-! ### Clocks and the Clockwork counter (04) -/

/-- No run waits for its start and no vote waits for a LOCKED counter, so that a change of the counter starts nothing else. -/
def NoneWaits (s : State) : Prop :=
  ∀ j ∈ s.jobs, (∀ r, j.run = some r → r.started = true) ∧ j.coll.vote.combined = none

/-- R111, R113, R114: the operating-point sequencer moves one index at a time. Towards a faster point the ramp comes first, then the
10 µs, then the divider; towards a slower one the divider first; a target given during a step waits for its end; a target faster
than MAX_OP is refused. A ramp that times out holds the sequencer, raises operating-point-fail, and leaves OP_CURRENT as R114 says. R115, R117, R118, R119, R120: a reference that loses its signal is disqualified and Table 4.4 acts: a switch to the other one,
or the clock-loss wait with the gates shut, the links idle and the stacks in self-refresh. Ten whole good windows qualify a
reference and one out of range disqualifies it; after 100 ms the module returns to REFA; a switch that ends counts in SWITCHES and
raises reference-switch.
Where the spec leaves a point open, the statement follows the model's choices of log entries 17, 101. -/
def Obligations.OperatingPointsAndReferences : Prop :=
  (
  ∀ (s : State) (pause : Nat),
  (∀ i, i ≤ 5 → (clocksCfg s).maxOp ≤ i → s.clk.fastestAllowed ≤ i → i ≤ s.clk.slowestAllowed →
    (s.clk.opPhase ≠ .idle →
      Answers (.opTargetRequest i pause) s fun t => t = { s with clk := { s.clk with opTarget := i, opHeld := false } }) ∧
    (s.clk.opPhase = .idle → s.clk.gated = false → s.clk.source ≠ .clockLoss →
      (i < s.clk.opCurrent → s.clk.opVoltHigh = false →
        Answers (.opTargetRequest i pause) s fun t =>
          t = { s with clk := { s.clk with opTarget := i, opHeld := false, opPhase := .ramp true } }) ∧
      (s.clk.opCurrent < i →
        Answers (.opTargetRequest i pause) s fun t =>
          t.clk.opTarget = i ∧ t.clk.opCurrent = s.clk.opCurrent + 1 ∧ t.clk.opPhase = .ramp false ∧
          t = { s with clk := t.clk, jobs := t.jobs, dp := t.dp }))) ∧
  (∀ i, i < (clocksCfg s).maxOp → Answers (.opTargetRequest i pause) s fun t => t = s) ∧
  (s.clk.opPhase = .ramp true →
    Answers (.opRampReached pause) s fun t => t = { s with clk := { s.clk with opPhase := .settle } }) ∧
  (s.clk.opPhase = .ramp false → s.clk.opTarget = s.clk.opCurrent →
    Answers (.opRampReached pause) s fun t =>
      t.clk.opPhase = .idle ∧ t.clk.opVoltHigh = false ∧ t.clk.opCurrent = s.clk.opCurrent ∧ t.jobs = s.jobs ∧ t.mem = s.mem) ∧
  (s.clk.opPhase = .settle → s.clk.opTarget + 1 = s.clk.opCurrent →
    Answers (.opSettleEnd pause) s fun t =>
      t.clk.opPhase = .idle ∧ t.clk.opVoltHigh = false ∧ t.clk.opCurrent = s.clk.opTarget ∧ t.mem = s.mem) ∧
  (∀ up, s.clk.opPhase = .ramp up →
    Answers .opRampTimeout s fun t =>
      t.clk.opPhase = .idle ∧ t.clk.opHeld = true ∧ t.clk.opCurrent = s.clk.opCurrent ∧
      (up = true → t.clk.opVoltHigh = s.clk.opVoltHigh ∧ s.clk.opCurrent ≤ t.clk.fastestAllowed) ∧
      (up = false → t.clk.opVoltHigh = true ∧ t.clk.slowestAllowed ≤ s.clk.opCurrent) ∧
      (∃ e ∈ t.aon.log, e.code = 0x2001 ∧ e.count = s.cwk.now) ∧ t.jobs = s.jobs ∧ t.mem = s.mem)) ∧
  (
  ∀ s : State, s.wake.pllLocked = true →
  (s.clk.source = .onRefA →
    (s.clk.qualB = true → Answers (.refLossOfSignal .refA) s fun t =>
      t = { s with clk := { s.clk with qualA := false, goodA := 0, losA := true, noEdgesA := true, first := some .refB,
                                       source := .toRefB, dwell := false, fromLoss := false } }) ∧
    (s.clk.qualB = false → Answers (.refLossOfSignal .refA) s fun t =>
      t.clk.source = .clockLoss ∧ t.clk.gated = true ∧ t.wake.gatesOpen = false ∧ t.wake.linksIdle = true ∧
      t.wake.selfRefresh = true)) ∧
  (s.wake.bootOsc = true → s.clk.source = .onRefA →
    (s.clk.goodA = 9 → s.clk.losA = false → ∀ b, Answers (.refWindowEnd true b) s fun t =>
      t.clk.qualA = true ∧ t.clk.goodA = 10 ∧ (s.clk.qualA = true → t = { s with clk := t.clk })) ∧
    (s.clk.qualB = true → s.clk.goodB = 10 → s.clk.losB = false → refbFitted s = true → Answers (.refWindowEnd false true) s fun t =>
      t.clk.qualA = false ∧ t.clk.goodA = 0 ∧ t.clk.source = .toRefB ∧ t = { s with clk := t.clk })) ∧
  (s.clk.source = .onRefB → s.clk.qualA = true → s.clk.dwell = true →
    Answers .refaDwellEnd s fun t => t = { s with clk := { s.clk with source := .toRefA, dwell := false, fromLoss := false } }) ∧
  (∀ src dest ref, (src, dest, ref) ∈ [(RefState.toRefB, RefState.onRefB, 1), (.toRefA, .onRefA, 0)] → s.clk.source = src →
    (if ref = 1 then s.clk.qualB else s.clk.qualA) = true → s.clk.fromLoss = false →
    Answers .referenceSwitchEnd s fun t =>
      t.clk.source = dest ∧ t.clk.switches = (if s.clk.switches < 0xFFFF then s.clk.switches + 1 else s.clk.switches) ∧
      (∃ e ∈ t.aon.log, e.code = 0x2002 ∧ e.w3 = BitVec.ofNat 64 ref) ∧ t.wake = s.wake ∧ t.jobs = s.jobs))

/-- R126, R129, R130, R133 (with no run and no vote waiting for the counter): a module that is its own reference is LOCKED to itself
at the end of a sync interval; four intervals without a valid exchange, or no SYNCIN edge for 1.1 s, take a LOCKED counter to
COASTING with COASTS counted and clockwork-coasting raised; 64 intervals raise clockwork-unsynchronised once; a SYNCIN edge is
taken by a system reference that uses SYNCIN. R127, R131, R136: a rate that LOCKED is entered with is within 100 ppm; an exchange measures offset and round trip from its four timestamps. The first one from UNSYNCED sets the
counter to the reference value outright and leaves ACQUIRING; one above 1,000 ck takes a LOCKED counter back to ACQUIRING; the
sixteenth consecutive one within bound locks. A reference answers a request with its own timestamps on the same link. When the
counter reaches its curtain count, a run whose other waits are over starts. The own reference that COASTS stays so (log entry 22).
Where the spec leaves a point open, the statement follows the model's choices of log entries 18, 20, 22, 23. -/
def Obligations.CounterSyncAndExchange : Prop :=
  (
  ∀ s : State,
  (∀ t1, NoneWaits s → s.cwk.hearsSystem = false → selfReference s = true →
    (s.cwk.state ≠ .coasting ∨ (clocksCfg s).role = 2 → Answers (.syncIntervalTimer t1 []) s fun t =>
      t = { s with cwk := { s.cwk with state := .locked, refSeat := seatOf s, rate := max (-429496) (min 429496 s.cwk.rate) } }) ∧
    (s.cwk.state = .coasting → (clocksCfg s).role ≠ 2 → Answers (.syncIntervalTimer t1 []) s fun t => t = s)) ∧
  (s.cwk.state = .locked → selfReference s = false →
    Answers .syncLossTimeout s fun t =>
      t.cwk.state = .coasting ∧ t.cwk.coasts = (if s.cwk.coasts < 0xFFF then s.cwk.coasts + 1 else s.cwk.coasts) ∧
      t.cwk.now = s.cwk.now ∧ t.cwk.rate = s.cwk.rate ∧ (∃ e ∈ t.aon.log, e.code = 0x2005) ∧ t.jobs = s.jobs) ∧
  (s.cwk.state = .locked → (clocksCfg s).role = 2 → (clocksCfg s).syncinUse = true →
    Answers .syncinAbsentTimeout s fun t =>
      t.cwk.state = .coasting ∧ t.cwk.syncinSeen = false ∧ t.cwk.now = s.cwk.now ∧ (∃ e ∈ t.aon.log, e.code = 0x2005)) ∧
  ((s.cwk.state = .coasting ∨ s.cwk.state = .unsynced) → s.cwk.coastRaised = false →
    Answers .coastingLimitTimeout s fun t =>
      t.cwk = { s.cwk with coastRaised := true } ∧ (∃ e ∈ t.aon.log, e.code = 0x2006 ∧ e.count = s.cwk.now) ∧ t.jobs = s.jobs) ∧
  (∀ at8, NoneWaits s → (clocksCfg s).role = 2 → (clocksCfg s).syncinUse = true → s.cwk.state = .unsynced →
    Answers (.syncinEdge at8) s fun t =>
      t.cwk.syncinSeen = true ∧ t.cwk.state = .acquiring ∧ t.cwk.refSeat = ownSeat s ∧
      t.cwk.offset = (nearestSecond at8.toNat : Int) - at8.toNat ∧
      t.cwk.now = s.cwk.now + BitVec.ofNat 64 (nearestSecond at8.toNat / 8) - BitVec.ofNat 64 (at8.toNat / 8) ∧ t.cwk.frac = 0 ∧
      t = { s with cwk := t.cwk })) ∧
  (
  ∀ s : State,
  (∀ link seat t1 t2 t3 t4, NoneWaits s → (linkCfg link s).mode ≠ 1 → s.cwk.outstanding = some t1 →
    let off : Int := ((t2 - t1).toInt - (t4 - t3).toInt).tdiv 2
    (s.cwk.state = .unsynced → Answers (.syncResp link seat t1 t2 t3 t4) s fun t =>
      t.cwk.state = .acquiring ∧ t.cwk.now = s.cwk.now + BitVec.ofInt 64 ((s.cwk.frac + off * 2 ^ 29) / 2 ^ 32) ∧ t.cwk.offset = off ∧
      t.cwk.refSeat = seat ∧ t.cwk.outstanding = none ∧ t = { s with cwk := t.cwk }) ∧
    (s.cwk.state = .locked → 8000 < off.natAbs → Answers (.syncResp link seat t1 t2 t3 t4) s fun t =>
      t.cwk.state = .acquiring ∧ t.cwk.now = s.cwk.now ∧ t.cwk.filter = [] ∧ t = { s with cwk := t.cwk }) ∧
    (s.cwk.state = .acquiring → s.cwk.inBound = 15 →
      off.natAbs ≤ (if (linkCfg link s).mode = 2 then 320 else 32) → Answers (.syncResp link seat t1 t2 t3 t4) s fun t =>
        t.cwk.state = .locked ∧ t.cwk.rate.natAbs ≤ 429496 ∧ t = { s with cwk := t.cwk, free := t.free })) ∧
  (∀ link seat t1 t2 t3, (clocksCfg s).role = 0 → Answers (.syncReq link seat t1 t2 t3) s fun t => t = s) ∧
  (∀ link seat t1 t2 t3, (linkCfg link s).mode = 1 → (clocksCfg s).role ≠ 0 →
    Answers (.syncReq link seat t1 t2 t3) s fun t =>
      t = putPacket link (packet 4 0xC1 (seat % 64) (seatOf s % 64) 2 true true 0 0 0 (ofWords [t1, t2, t3, 0])) s) ∧
  (∀ link seat t1 t2 t3 n, (linkCfg link s).mode = 2 → (clocksCfg s).role ≠ 0 → partOfLink link s = some n →
    Answers (.syncReq link seat t1 t2 t3) s fun t =>
      t = dmtSend n seat 4 0 0
        (packet 4 0xC1 (seat % 64) (seatOf s % 64) 2 true true 0 0 0 (ofWords [t1, t2, t3, 0])).h0 (ofWords [t1, t2, t3, 0]) s) ∧
  (∀ j r count, s.jobs = [j] → j.run = some r → r.setup = true → r.started = false → mismatch (seatOf s) j = false →
    waitsOver j s = true → r.count = some count →
    Answers (.curtainCountReached count) s fun t =>
      t.cwk = { s.cwk with now := if s.cwk.now < count then count else s.cwk.now } ∧
      ∃ j' ∈ t.jobs, j'.part = j.part ∧ j'.num = j.num ∧ ∃ r', j'.run = some r' ∧ r'.started = true ∧ r'.start = count) ∧
  (∀ count, NoneWaits s → (∀ j ∈ s.jobs, ∀ r, j.run = some r → count ∉ r.stepCurtains) →
    Answers (.curtainCountReached count) s fun t =>
      t = { s with cwk := { s.cwk with now := if s.cwk.now < count then count else s.cwk.now } }))


/-! ### Host ports, mailboxes, queue pairs, event rings and orders (05, 00) -/

/-- Firmware runs, so that mailbox requests are answered (R163, R164). -/
def FirmwareUp (s : State) : Prop := s.boot.stage = 2 ∨ s.boot.stage = 3 ∨ s.boot.stage = 4

/-- R158, R160: a send by the channel's sender posts only with FULL 0 and a length of 1 to 256, else REFUSED counts it; MB_DATA takes
the sender's writes while FULL is 0 and ignores them while FULL is 1, and the sender reads it as zero; nothing of another channel
changes. R159, R160: the receiver's read of MB_TAKE answers FULL and LENGTH and, when FULL was 1, empties the channel; the sender and
every other master read zero and clear nothing. -/
def Obligations.Mailboxes : Prop :=
  (
  ∀ (s : State) (mid c : Nat), c < s.mail.length → isSender (chan c s) mid = true →
  (∀ len, (chan c s).full = false → 1 ≤ len → len ≤ 256 → Answers (.mbSend mid c len) s fun t =>
    (chan c t).full = true ∧ (chan c t).length = len ∧ (chan c t).data = (chan c s).data ∧
    (chan c t).refused = (chan c s).refused ∧ (∀ d, d ≠ c → chan d t = chan d s) ∧ t.mem = s.mem ∧ t.jobs = s.jobs) ∧
  (∀ len, ((chan c s).full = true ∨ len = 0 ∨ 256 < len) → Answers (.mbSend mid c len) s fun t =>
    (chan c t).refused = (if (chan c s).refused < 0xFF then (chan c s).refused + 1 else (chan c s).refused) ∧
    (chan c t).full = (chan c s).full ∧ (chan c t).length = (chan c s).length ∧ (chan c t).data = (chan c s).data ∧
    (∀ d, d ≠ c → chan d t = chan d s) ∧ t = { s with mail := t.mail }) ∧
  (∀ off (data : List Byte), data.length ∈ [4, 8, 16, 32, 64] → off % data.length = 0 → off + data.length ≤ 256 →
    Answers (.mbDataWrite mid c off data) s fun t =>
      ((chan c s).full = true → t = s) ∧
      ((chan c s).full = false → (chan c s).data.length = 256 →
        (∀ i, i < 256 → (chan c t).data[i]? =
          if off ≤ i ∧ i < off + data.length then data[i - off]? else (chan c s).data[i]?) ∧
        (∀ d, d ≠ c → chan d t = chan d s) ∧ t = { s with mail := t.mail })) ∧
  (∀ off, isReceiver (chan c s) mid = false → chanWord mid c (0x100 + off) s = 0)) ∧
  (
  ∀ (s : State) (mid c : Nat), c < s.mail.length → s.replies = [] →
  (isReceiver (chan c s) mid = true → Answers (.mbTake mid c) s fun t =>
    (∃ v, t.out[s.out.length]? = some (.regRead mid (0x10000 + 0x400 * c + 0x10) v) ∧
      v.toNat = if (chan c s).full = true then 512 + (chan c s).length % 512 else 0) ∧
    (chan c t).full = false ∧
    ((chan c s).full = true → (chan c t).length = 0 ∧ (chan c t).data = List.replicate 256 0) ∧
    ((chan c s).full = false → chan c t = chan c s) ∧
    (∀ d, d ≠ c → chan d t = chan d s) ∧ t.mem = s.mem ∧ t.jobs = s.jobs) ∧
  (isReceiver (chan c s) mid = false → Answers (.mbTake mid c) s fun t =>
    t = { s with out := s.out ++ [.regRead mid (0x10000 + 0x400 * c + 0x10) 0] }))

/-- R164 to R166, R322, R623, R160: what each host control message does once its channel holds a well-formed one, firmware runs and no
QP_DELETE of the channel is pending; a message below 8 B raises host-access-error and one of unknown TYPE is taken.
Where the spec leaves a point open, the statement follows the model's choices of log entries 30, 31. -/
def Obligations.HostControlMessages : Prop := ∀ (s : State) (c : Nat) (m : ControlMsg),
  controlMsg c s = some m → FirmwareUp s → channelBusy c s = false → m.port < s.ports.length →
  (m.len < 8 → Answers (.hostControlMalformed c) s fun t =>
    (∀ n, partOfPort m.port s = some n → n < s.parts.length → (partOf n t).ring.backlog ≠ [] ∨ t.out.length > s.out.length) ∧ t.mem = s.mem) ∧
  (8 ≤ m.len → controlBody m.type = none → (∀ r ∈ s.replies, r.1 ≠ c) → Answers (.hostControlMalformed c) s fun t =>
    (chan c t).full = false ∧ t.mem = s.mem ∧ t.jobs = s.jobs ∧ t.parts = s.parts) ∧
  (badControl m = false → 8 ≤ m.len →
    (m.type = 0x0010 → ((masterOf (hostMid m.port) s).map MasterCfg.submit) = some true → (replyChannel c s).isSome = true →
      ∀ q, q = fld (m.body.getD 2 0) 3 0 → q < (portOf m.port s).qps.length → qpOf m.port q s = none →
      fld (m.body.getD 0 0) 11 0 = 0 → fld (m.body.getD 1 0) 11 0 = 0 →
      1 ≤ fld (m.body.getD 2 0) 23 16 → fld (m.body.getD 2 0) 23 16 ≤ 16 →
      4 ≤ fld (m.body.getD 2 0) 15 12 → fld (m.body.getD 2 0) 15 12 ≤ 12 →
      4 ≤ fld (m.body.getD 2 0) 11 8 → fld (m.body.getD 2 0) 11 8 ≤ 12 →
      Answers (.qpCreate c) s fun t => ∃ p, qpOf m.port q t = some p ∧ p.sqBase = m.body.getD 0 0 ∧ p.cqBase = m.body.getD 1 0 ∧
        p.weight = fld (m.body.getD 2 0) 23 16 ∧ p.sqTail = 0 ∧ p.sqHead = 0 ∧ p.cqTail = 0 ∧ p.cqHead = 0 ∧ p.phase = true ∧
        p.slots = [] ∧ (∀ q', q' ≠ q → qpOf m.port q' t = qpOf m.port q' s) ∧ t.mem = s.mem ∧ t.jobs = s.jobs) ∧
    (m.type = 0x0011 → ∀ q p, q = fld (m.body.getD 0 0) 3 0 → qpOf m.port q s = some p → s.jobs = [] →
      Answers (.qpDelete c) s fun t => ∃ p', qpOf m.port q t = some p' ∧ p' = { p with deleting := true, deleteTag := m.tag, deleteChannel := c }) ∧
    (m.type = 0x0020 → ∀ n, partOfPort m.port s = some n → n < s.parts.length → fld (m.body.getD 0 0) 11 0 = 0 →
      6 ≤ fld (m.body.getD 1 0) 3 0 → fld (m.body.getD 1 0) 3 0 ≤ 15 →
      ((partOf n s).ring.owner = 0 ∨ (partOf n s).ring.owner = hostMid m.port) →
      Answers (.eventRingSet c) s fun t =>
        (partOf n t).ring.owner = hostMid m.port ∧ (partOf n t).ring.base = m.body.getD 0 0 ∧
        (partOf n t).ring.entriesLog2 = fld (m.body.getD 1 0) 3 0 ∧ (partOf n t).ring.head = 0 ∧ (partOf n t).ring.tail = 0 ∧
        (partOf n t).ring.coalesced = 0 ∧ (partOf n t).ring.phase = true ∧
        (partOf n t).ring.backlog = (partOf n s).ring.backlog ∧ t.mem = s.mem ∧ t.jobs = s.jobs) ∧
    (m.type = 0x0021 → ∀ n, partOfPort m.port s = some n → n < s.parts.length → (partOf n s).ring.owner = hostMid m.port →
      Answers (.eventRingRelease c) s fun t =>
        (partOf n t).ring = { (partOf n s).ring with owner := 0 } ∧ t.mem = s.mem ∧ t.jobs = s.jobs) ∧
    (m.type = 0x0030 → Answers (.bar2Window c) s fun t =>
      (portOf m.port t).bar2Offset = (m.body.getD 0 0).toNat / 2 ^ (portOf m.port s).bar2Log2 * 2 ^ (portOf m.port s).bar2Log2 ∧
      (portOf m.port t).bar2Log2 = (portOf m.port s).bar2Log2 ∧ t.parts = s.parts ∧ t.mem = s.mem ∧ t.jobs = s.jobs) ∧
    (m.type = 0x0040 → ∀ n, partOfPort m.port s = some n → n < s.parts.length → fld (m.body.getD 0 0) 11 0 = 0 →
      (m.body.getD 1 0).toNat % 4096 = 0 → 4096 ≤ (m.body.getD 1 0).toNat → (m.body.getD 1 0).toNat ≤ 2 ^ 37 →
      (∀ j ∈ s.jobs, j.part = n → j.run = none) →
      Answers (.spillArea c) s fun t =>
        (partOf n t).spill = some ⟨m.port, m.body.getD 0 0, (m.body.getD 1 0).toNat, false⟩ ∧
        (partOf n t).ring = (partOf n s).ring ∧ t.jobs = s.jobs ∧
        ∀ a, ¬(spillWindow n ≤ a ∧ a < spillWindow n + 2 ^ 37) → rdByte a t.mem = rdByte a s.mem))

/-- R167, R168, R178, R625: doorbells. A write of SQ_TAIL or CQ_HEAD within the queue moves the index alone, an overrun stops fetching;
a fetch takes one entry into a free slot, a failed fetch takes none and stops fetching. R171, R172, R179, R166, R180: a completion entry is written at the tail of a completion queue with room while the link is up, with
SQ_HEAD, CMD_ID, STATUS and PHASE, and frees its slot; NOP ends at once with SUCCESS; a deleted queue pair without commands goes; a
saturated queue pair raises sustained-saturation once.
Where the spec leaves a point open, the statement follows the model's choices of log entry 37. -/
def Obligations.QueuePairs : Prop :=
  (
  ∀ (s : State) (port q : Nat) (p : QueuePair),
  port < s.ports.length → q < (portOf port s).qps.length → qpOf port q s = some p →
  (∀ v, v < 2 ^ p.sqLog2 → p.sqLog2 ≤ 12 → p.unfetched + ringDist p.sqTail v (2 ^ p.sqLog2) ≤ 2 ^ p.sqLog2 - 1 →
    Answers (.sqTail port q v) s fun t => qpOf port q t = some { p with sqTail := v } ∧ t = { s with ports := t.ports }) ∧
  (∀ v, 2 ^ p.sqLog2 ≤ v → v < 2 ^ 12 → Answers (.sqTail port q v) s fun t =>
    qpOf port q t = some { p with stopped := true } ∧ t.mem = s.mem ∧ t.jobs = s.jobs) ∧
  (∀ v, v < 2 ^ p.cqLog2 → p.cqLog2 ≤ 12 → ringDist p.cqHead v (2 ^ p.cqLog2) ≤ p.unread →
    Answers (.cqHead port q v) s fun t =>
      (∃ p', qpOf port q t = some p' ∧ p'.cqHead = v ∧ p'.cqTail = p.cqTail ∧ p'.slots = p.slots ∧ p'.stopped = p.stopped) ∧
      t = { s with ports := t.ports }) ∧
  (∀ v, 2 ^ p.cqLog2 ≤ v → v < 2 ^ 12 → Answers (.cqHead port q v) s fun t =>
    qpOf port q t = some { p with stopped := true } ∧ t.mem = s.mem ∧ t.jobs = s.jobs) ∧
  (∀ entry, takesSubmissions port s = true → p.fetchable = true → p.roundUsed < p.weight →
    (Answers (.submissionFetch port q entry) s fun t =>
      (∃ p' c, qpOf port q t = some p' ∧ p'.sqHead = (p.sqHead + 1) % 2 ^ p.sqLog2 ∧ p'.slots = p.slots ++ [c] ∧ c.words = entry ∧
        c.seq = p.nextSeq ∧ (1 ≤ fld (entry.getD 0 0) 7 0 → fld (entry.getD 0 0) 7 0 ≤ 7 → c.state = .fetched) ∧
        (7 < fld (entry.getD 0 0) 7 0 → c.state = .ended ∧ c.status = 0x0001)) ∧
      t = { s with ports := t.ports }) ∧
    (Answers (.submissionFetchFailed port q) s fun t =>
      qpOf port q t = some { p with stopped := true } ∧ t.mem = s.mem ∧ t.jobs = s.jobs))) ∧
  (
  ∀ (s : State) (port q : Nat) (p : QueuePair),
  port < s.ports.length → q < (portOf port s).qps.length → qpOf port q s = some p →
  (∀ c rest, p.endOrder = c.seq :: rest → p.slots.find? (fun d => d.seq == c.seq) = some c → p.cqFull = false →
    (portOf port s).linkUp = true → Answers (.completionWrite port q) s fun t =>
      (∃ w, t.out[s.out.length]? = some (.hostWrite port (p.cqBase + BitVec.ofNat 64 (16 * p.cqTail)) [w, c.result]) ∧
        fld w 63 48 = p.sqHead % 2 ^ 16 ∧ fld w 47 32 = fld (c.w 0) 31 16 ∧ fld w 31 16 = c.status % 2 ^ 16 ∧
        fld w 0 0 = if p.phase then 1 else 0) ∧
      (∃ p', qpOf port q t = some p' ∧ p'.cqTail = (p.cqTail + 1) % 2 ^ p.cqLog2 ∧ p'.endOrder = rest ∧
        p'.slots = p.slots.filter (fun d => d.seq != c.seq) ∧
        p'.phase = if (p.cqTail + 1) % 2 ^ p.cqLog2 = 0 then !p.phase else p.phase) ∧ t.mem = s.mem ∧ t.jobs = s.jobs) ∧
  (∀ seq c, commandOf port q seq s = some c → c.opcode = 0x07 → mayStart port q seq s = true → c.job = 0 →
    fld (c.w 0) 14 8 = 0 → (∀ i, i < 7 → c.w (i + 1) = 0) → Answers (.nop port q seq) s fun t =>
      (∃ p', qpOf port q t = some p' ∧ p'.endOrder = p.endOrder ++ [seq] ∧
        ∀ d ∈ p'.slots, d.seq = seq → d.state = .ended ∧ d.status = 0 ∧ d.result = 0) ∧ t = { s with ports := t.ports }) ∧
  (p.deleting = true → p.slots = [] → Answers (.qpDeleteDrained port q) s fun t =>
    qpOf port q t = none ∧ t.mem = s.mem ∧ t.jobs = s.jobs) ∧
  (∀ n, partOfPort port s = some n → n < s.parts.length → p.sqSaturated = true → p.satSqRaised = false → p.cqWaits = false →
    Answers (.queueSaturationTimeout port q) s fun t =>
      qpOf port q t = some { p with satSqRaised := true } ∧ t.mem = s.mem ∧ t.jobs = s.jobs ∧
      (ringWritable n s = false → (partOf n s).ring.backlog.length < 256 →
        ∃ e, (partOf n t).ring.backlog = (partOf n s).ring.backlog ++ [e] ∧ e.code = 0x4003 ∧ e.w3 = BitVec.ofNat 64 q)))

/-- R176, R177, R622: the ring owner's write of HEAD moves HEAD alone, one past TAIL or out of range moves nothing; with room in an
owned ring whose link is up, the oldest backlog entry is written at TAIL with its phase. R86, R144, R150, R622: a port that enters reset loses its queue pairs, its ring ownership and its order slot and its link drops; a
release ends the reset while the security core runs; a link that trains fills PORT_INFO and sends the MSI-X messages that waited;
one that goes down keeps them waiting; D3hot resets once and keeps the link.
Where the spec leaves a point open, the statement follows the model's choices of log entry 38. -/
def Obligations.EventRingsAndPortResets : Prop :=
  (
  ∀ (s : State) (port n : Nat),
  partOfPort port s = some n → n < s.parts.length → (partOf n s).ring.owner = hostMid port →
  (∀ v, v < 2 ^ 15 → v < 2 ^ (partOf n s).ring.entriesLog2 →
    ringDist (partOf n s).ring.head v (2 ^ (partOf n s).ring.entriesLog2) ≤
      ringDist (partOf n s).ring.head (partOf n s).ring.tail (2 ^ (partOf n s).ring.entriesLog2) →
    Answers (.eventHead port v) s fun t =>
      (partOf n t).ring.head = v ∧ (partOf n t).ring.tail = (partOf n s).ring.tail ∧
      (partOf n t).ring.backlog = (partOf n s).ring.backlog ∧ t = { s with parts := t.parts }) ∧
  (∀ v, v < 2 ^ 15 → 2 ^ (partOf n s).ring.entriesLog2 ≤ v → Answers (.eventHead port v) s fun t =>
    (partOf n t).ring.head = (partOf n s).ring.head ∧ t.mem = s.mem ∧ t.jobs = s.jobs) ∧
  (∀ e, (partOf n s).ring.backlog = [e] → (partOf n s).ring.overflow = [] → ringWritable n s = true → port < s.ports.length →
    Answers (.eventBacklogDrain n) s fun t =>
      t.out[s.out.length]? = some (.hostWrite port ((partOf n s).ring.base + BitVec.ofNat 64 (32 * (partOf n s).ring.tail))
        (eventWords e (partOf n s).ring.phase)) ∧
      (partOf n t).ring.tail = ((partOf n s).ring.tail + 1) % 2 ^ (partOf n s).ring.entriesLog2 ∧
      (partOf n t).ring.backlog = [] ∧ t.mem = s.mem ∧ t.jobs = s.jobs)) ∧
  (
  ∀ (s : State) (port : Nat), port < s.ports.length → s.jobs = [] →
  (∀ n, partOfPort port s = some n → othersInReset n port s = false → (portOf port s).inReset = false →
    ((portOf port s).perst = false → Answers (.perstNAssert port) s fun t =>
      (portOf port t).perst = true ∧ (portOf port t).inReset = true ∧ (portOf port t).linkUp = false ∧
      (∀ r, (partOf n t).resetting = some r → hostMid port ∉ r.waiters) ∧
      (portOf port t).qps = List.replicate 16 none ∧ (partOf n t).ring.owner ≠ hostMid port ∧
      (partOf n t).state = (partOf n s).state ∧ (∀ o ∈ t.orders.slots, o.mid = hostMid port → o.status = 0) ∧ t.mem = s.mem) ∧
    ((portOf port s).d3 = false → Answers (.d3hotEntry port) s fun t =>
      (portOf port t).d3 = true ∧ (portOf port t).inReset = false ∧ (portOf port t).linkUp = (portOf port s).linkUp ∧
      (∀ r, (partOf n t).resetting = some r → hostMid port ∉ r.waiters) ∧
      (portOf port t).qps = List.replicate 16 none ∧ (partOf n t).ring.owner ≠ hostMid port ∧ t.mem = s.mem)) ∧
  (s.wake.pgood = true → s.boot.secRunning = true → Answers (.perstNRelease port) s fun t =>
    (portOf port t).perst = false ∧ (portOf port t).inReset = false ∧ t = { s with ports := t.ports }) ∧
  (∀ width flit cxl, mayTrain port s = true → Answers (.hostLinkUp port 5 width flit cxl) s fun t =>
    (portOf port t).linkUp = true ∧ (portOf port t).rate = 5 ∧ (portOf port t).width = width ∧ (portOf port t).flit = flit ∧
    ((portOf port t).cxl = true ↔ cxl = true ∧ cxlOffered port s = true) ∧ (portOf port t).pendingMsi = [] ∧
    t.out = s.out ++ (portOf port s).pendingMsi.map (fun v => .msix port v) ∧ t = { s with ports := t.ports, out := t.out }) ∧
  (Answers (.hostLinkDown port) s fun t =>
    (portOf port t).linkUp = false ∧ (portOf port t).rate = 0 ∧ (portOf port t).pendingMsi = (portOf port s).pendingMsi ∧
    (portOf port t).qps = (portOf port s).qps ∧ t = { s with ports := t.ports }))

/-- A range that misses the spill reserve of the port's partition. -/
def OffReserve (port a len : Nat) (s : State) : Prop :=
  a + len ≤ reserveBase ((partOfPort port s).getD 0) s ∨
    reserveBase ((partOfPort port s).getD 0) s + reserveSize ((partOfPort port s).getD 0) s ≤ a

/-- R11, R12, R13, R142, R144, R146 to R149: on a port that answers, in D0. A 4-byte write of a 64-bit register changes no register; a write of
an unmapped offset changes nothing; a 4-byte read of a low half answers it and latches the high half, which the following high-half
read answers; Resizable BAR takes a size within the partition's limit; BAR2 reads and writes the window's stack memory outside the spill reserve and
nothing beyond it; DOE discovery is answered. In D3hot a register access is an Unsupported Request (log entry 26).
Where the spec leaves a point open, the statement follows the model's choices of log entries 24, 25, 26, 32, 203, 204. -/
def Obligations.HostAccesses : Prop := ∀ (s : State) (port : Nat), port < s.ports.length → configAnswered port s = true →
  (∀ i, Answers (.doeDiscovery port i) s fun t => ∃ v, t = { s with out := s.out ++ [.doe port v] }) ∧
  (∀ l, 20 ≤ l → l ≤ bar2Max port s → Answers (.pcieConfigWrite port (.resizeBar2 l)) s fun t =>
    (portOf port t).bar2Log2 = l ∧ (portOf port t).bar2Offset = (portOf port s).bar2Offset / 2 ^ l * 2 ^ l ∧
    t = { s with ports := t.ports }) ∧
  ((portOf port s).d3 = true → ∀ o n v,
    (Answers (.registerWrite port o n v) s fun t => t = { s with out := s.out ++ [.unsupported port] }) ∧
    (Answers (.lowHalfRead port o) s fun t => t = { s with out := s.out ++ [.unsupported port] })) ∧
  ((portOf port s).d3 = false →
  (∀ o v, o % 4 = 0 → wideReg o = true → Answers (.registerWrite port o 4 v) s fun t =>
    t.ports.map Port.qps = s.ports.map Port.qps ∧ t.orders = s.orders ∧ t.mem = s.mem ∧ t.jobs = s.jobs ∧ t.boot = s.boot) ∧
  (∀ v, Answers (.registerWrite port 0x3000 8 v) s fun t => t = s) ∧
  (∀ v, Answers (.registerWrite port 0x58 8 v) s fun t => t = s) ∧
  (∀ v, Answers (.registerWrite port 0x58 4 v) s fun t => t = { s with latches := t.latches }) ∧
  (∀ o, o < 0x1000 → o % 8 = 0 → narrowReg o = false →
    (Answers (.lowHalfRead port o) s fun t =>
      t.out = s.out ++ [.regRead (hostMid port) o (BitVec.ofNat 64 (fld (barWord port o s) 31 0))] ∧
      (⟨hostMid port, o, BitVec.ofNat 32 (fld (barWord port o s) 63 32)⟩ : Latch) ∈ t.latches ∧
      t = { s with out := t.out, latches := t.latches }) ∧
    (∀ l ∈ s.latches, l.mid = hostMid port → l.offset = o → (∀ k ∈ s.latches, k.mid = l.mid → k.offset = l.offset → k = l) →
      Answers (.lowHalfRead port (o + 4)) s fun t =>
        t.out = s.out ++ [.regRead (hostMid port) (o + 4) (BitVec.ofNat 64 l.high.toNat)] ∧
        t = { s with out := t.out, latches := t.latches })) ∧
  (∀ off len a, windowAddr port false off len s = some a → OffReserve port a len s → poisoned a len s = none →
    Answers (.bar2Access port false off (.read len)) s fun t =>
      t = { s with out := s.out ++ [.hostData port ((List.range len).map fun i => rdByte (a + i) s.mem) false] }) ∧
  (∀ off (d : List Byte) a, windowAddr port false off d.length s = some a → OffReserve port a d.length s → s.faults.out = [] →
    Memory.wf s.mem = true →
    Answers (.bar2Access port false off (.write d)) s fun t =>
      (∀ i, i < d.length → some (rdByte (a + i) t.mem) = d[i]?) ∧
      (∀ b, (b < a ∨ a + d.length ≤ b) → rdByte b t.mem = rdByte b s.mem) ∧ t = { s with mem := t.mem, poison := t.poison }) ∧
  (∀ off len, windowAddr port false off len s = none → Answers (.bar2Access port false off (.read len)) s fun t =>
    t = { s with out := s.out ++ [.unsupported port] }))

/-! ### The order arbiter and partition reset (05) -/

/-- The order `w` of an external master enters an empty slate of a module that takes orders (R181, R182): its slot is not PENDING. No run waits
for its start, so that a resynchronisation starts none (R138). -/
def OrderEnters (mid : Nat) (w : W64) (s : State) : Prop :=
  (s.boot.bpState = 1 ∨ s.boot.bpState = 2 ∨ s.boot.bpState = 3) ∧ s.orders.slots.map OrderSlot.mid = externalMids ∧
  mid ∈ externalMids ∧ (slotOf mid s).status ≠ 1 ∧ s.orders.slate = [] ∧ 1 ≤ orderKind w ∧ orderKind w ≤ 6 ∧ NoneWaits s

/-- R184: every field of the word that its KIND does not use is zero, and its master may give it. -/
def OrderPasses (mid : Nat) (w : W64) (s : State) : Prop :=
  fld w 55 48 = 0 ∧ fld w 39 33 = 0 ∧ shelf s = false ∧ ∃ m, masterOf mid s = some m ∧ permitted (orderKind w) m = true ∧
  (orderKind w ≠ 1 → orderValue w = 0) ∧ (orderKind w ≠ 5 → orderScrub w = false) ∧
  (orderKind w ∈ [1, 2, 6] → orderTarget w = 0) ∧ (orderKind w ∈ [3, 4] → orderTarget w ≤ 35 ∧ (mid = 0x01 ∨ mid = 0x40)) ∧
  (orderKind w = 5 → present (orderTarget w) s = true ∧ m.partitions.testBit (orderTarget w) = true)

/-- The slot of the order's master after the slate: TAG and KIND of the word, STATUS and APPLIED as given; every other slot as before. -/
def SlotHolds (mid : Nat) (w : W64) (status applied : Nat) (s t : State) : Prop :=
  slotOf mid t = { mid, tag := fld w 15 0, applied, kind := orderKind w, status } ∧ t.orders.slate = [] ∧
  ∀ m, m ≠ mid → slotOf m t = slotOf m s

/-- R52, R133, R134, R183 to R186: a POWER_CAP order that passes sets the cap, bounded by 1,200 W and CAP_W, and ends DONE with the cap
in force; a CLOCK_RESYNC order sends the module to ACQUIRING with its counter kept, but for a system reference without SYNCIN, which it leaves as it
is. R184, R473, R475: a LINK_DISABLE order that passes leaves the link DISABLED, a LINK_ENABLE order starts the training of a DISABLED or
FAILED link and leaves any other as it is; both end DONE.
Where the spec leaves a point open, the statement follows the model's choices of log entries 21, 39. -/
def Obligations.AcceptedOrders : Prop :=
  (
  ∀ (s : State) (mid : Nat) (w : W64), OrderEnters mid w s → OrderPasses mid w s →
  (orderKind w = 1 → Answers (.orderPowerCap mid w true) s fun t =>
    t.power = { s.power with cap := max 1200 (min (orderValue w) (powerCfg s).capW), ticks := [], capNew := true } ∧
    SlotHolds mid w 2 (max 1200 (min (orderValue w) (powerCfg s).capW)) s t ∧
    t.orders.resetPending = s.orders.resetPending ∧ t.mem = s.mem ∧ t.jobs = s.jobs ∧ t.fab = s.fab ∧ t.cwk = s.cwk) ∧
  (orderKind w = 2 → Answers (.orderClockResync mid w true) s fun t =>
    ((clocksCfg s).role = 2 → (clocksCfg s).syncinUse = false → t.cwk = s.cwk) ∧
    (((clocksCfg s).role ≠ 2 ∨ (clocksCfg s).syncinUse = true) →
      t.cwk = { s.cwk with state := .acquiring, filter := [], inBound := 0, coastRaised := false }) ∧
    t.cwk.now = s.cwk.now ∧ SlotHolds mid w 2 0 s t ∧ t.power = s.power ∧ t.mem = s.mem ∧ t.jobs = s.jobs ∧ t.fab = s.fab)) ∧
  (
  ∀ (s : State) (mid : Nat) (w : W64), OrderEnters mid w s → OrderPasses mid w s →
  orderTarget w < s.fab.links.length → (linkCfg (orderTarget w) s).mode ≠ 0 →
  (orderKind w = 3 → Answers (.orderLinkDisable mid w true) s fun t =>
    (linkOf (orderTarget w) t).state = 0 ∧ SlotHolds mid w 2 0 s t ∧ t.mem = s.mem ∧ t.jobs = s.jobs ∧ t.power = s.power ∧
    t.cwk = s.cwk) ∧
  (orderKind w = 4 → Answers (.orderLinkEnable mid w true) s fun t =>
    (((linkOf (orderTarget w) s).state = 0 ∨ (linkOf (orderTarget w) s).state = 7) →
      (linkOf (orderTarget w) t).state = 1 ∧ (linkOf (orderTarget w) t).stage = 1 ∧ (linkOf (orderTarget w) t).tries = 0) ∧
    ((linkOf (orderTarget w) s).state ≠ 0 → (linkOf (orderTarget w) s).state ≠ 7 → t.fab = s.fab) ∧
    (∀ k, k ≠ orderTarget w → linkOf k t = linkOf k s) ∧
    SlotHolds mid w 2 0 s t ∧ t.mem = s.mem ∧ t.jobs = s.jobs ∧ t.power = s.power ∧ t.cwk = s.cwk))

/-- R184, R185: the command of an order KIND. -/
def orderCommand (mid : Nat) (w : W64) : Instr := match orderKind w with
  | 1 => .orderPowerCap mid w true
  | 2 => .orderClockResync mid w true
  | 3 => .orderLinkDisable mid w true
  | 4 => .orderLinkEnable mid w true
  | 5 => .orderPartitionReset mid w true
  | _ => .orderModuleReset mid w true

/-- R184, R181, R67: an order with a reserved KIND, a non-zero RSVD field or a TARGET out of range ends INVALID, one that its master may not
give ends REFUSED, in the shelf state every one but a MODULE_RESET of 0x01, and nothing but its slot and its answer changes; a word to a
PENDING slot leaves every slot as it is. R186 to R189, R334: a PARTITION_RESET order that passes starts the reset: STATE resetting, READY clear, the tiles of the partition's
runs stopped, its slot PENDING; a MODULE_RESET order that passes ends DONE and schedules the reset. When the reset of a partition ends,
its jobs are unloaded and its pools emptied, its stores read zero and with SCRUB its stack memory too, the commands of its queue pairs
have ended, its STATE is ready (or stays failed), RESET_COUNT has counted, and the orders that waited are DONE.
Where the spec leaves a point open, the statement follows the model's choices of log entries 39, 40, 41. -/
def Obligations.RefusedAndResetOrders : Prop :=
  (
  ∀ (s : State) (mid : Nat) (w : W64),
  (s.boot.bpState = 1 ∨ s.boot.bpState = 2 ∨ s.boot.bpState = 3) → s.orders.slots.map OrderSlot.mid = externalMids →
  mid ∈ externalMids → s.orders.slate = [] → NoneWaits s →
  ((slotOf mid s).status ≠ 1 → shelf s = true → ¬(mid = 0x01 ∧ orderKind w = 6) →
    Answers (if 1 ≤ orderKind w ∧ orderKind w ≤ 6 then orderCommand mid w else .orderReservedKind mid w true) s fun t =>
      slotOf mid t = { mid, tag := fld w 15 0, kind := orderKind w, status := 4,
                       applied := if orderKind w = 1 then s.power.cap else 0 } ∧
      t = { s with orders := t.orders, ports := t.ports, out := t.out }) ∧
  (((slotOf mid s).status ≠ 1) → shelf s = false →
    ((orderKind w = 0 ∨ 6 < orderKind w) → Answers (.orderReservedKind mid w true) s fun t =>
      SlotHolds mid w 5 0 s t ∧ t = { s with orders := t.orders, ports := t.ports, out := t.out }) ∧
    (1 ≤ orderKind w → orderKind w ≤ 6 →
      ((fld w 55 48 ≠ 0 ∨ fld w 39 33 ≠ 0 ∨ (orderKind w ∈ [1, 2, 6] ∧ orderTarget w ≠ 0) ∨
        (orderKind w ∈ [3, 4] ∧ 35 < orderTarget w) ∨ (orderKind w = 5 ∧ present (orderTarget w) s = false) ∨
        (orderKind w ≠ 5 ∧ orderScrub w = true) ∨ (orderKind w ≠ 1 ∧ orderValue w ≠ 0)) →
        Answers (orderCommand mid w) s fun t =>
          slotOf mid t = { mid, tag := fld w 15 0, kind := orderKind w, status := 5,
                           applied := if orderKind w = 1 then s.power.cap else 0 } ∧
          t = { s with orders := t.orders, ports := t.ports, out := t.out }) ∧
      (OrderPasses 0x01 w s → (∀ m, masterOf mid s = some m → permitted (orderKind w) m = false) →
        Answers (orderCommand mid w) s fun t =>
          slotOf mid t = { mid, tag := fld w 15 0, kind := orderKind w, status := 4,
                           applied := if orderKind w = 1 then s.power.cap else 0 } ∧
          t = { s with orders := t.orders, ports := t.ports, out := t.out }))) ∧
  ((slotOf mid s).status = 1 → 1 ≤ orderKind w → orderKind w ≤ 6 → Answers (orderCommand mid w) s fun t =>
    t.orders = s.orders ∧ t.mem = s.mem ∧ t.jobs = s.jobs ∧ t.power = s.power ∧ t.fab = s.fab)) ∧
  (
  (∀ (s : State) (mid : Nat) (w : W64) (n : Nat), OrderEnters mid w s → OrderPasses mid w s → n = orderTarget w → n < s.parts.length →
    n < 4 → orderKind w = 5 → (partOf n s).resetting = none → (∀ j ∈ s.jobs, ∀ r, j.run = some r → r.setup = true) →
    Answers (.orderPartitionReset mid w true) s fun t =>
      (partOf n t).state = 3 ∧
      (partOf n t).resetting = some ⟨orderScrub w, [mid], none, s.clk.gated, !s.clk.gated⟩ ∧
      t.boot.ready.testBit n = false ∧ (∀ m, m ≠ n → t.boot.ready.testBit m = (s.boot.ready.testBit m && decide (m < 4))) ∧
      (∀ j ∈ t.jobs, j.part = n → j.running = true → ∀ x ∈ j.tiles, x.state = 6) ∧
      (s.clk.gated = false → ∀ r ∈ t.fab.reqs, r.part ≠ n) ∧
      ((∀ j ∈ s.jobs, j.part ≠ n) → t.jobs = s.jobs) ∧ ((∀ j ∈ s.jobs, j.part = n → j.run = none) → t.mem = s.mem) ∧
      SlotHolds mid w 1 0 s t ∧ t.power = s.power ∧ t.cwk = s.cwk) ∧
  (∀ (s : State) (mid : Nat) (w : W64), OrderEnters mid w s → OrderPasses mid w s → orderKind w = 6 → s.orders.resetPending = none →
    Answers (.orderModuleReset mid w true) s fun t =>
      t.orders.resetPending = some ⟨mid, []⟩ ∧ SlotHolds mid w 2 0 s t ∧
      t = { s with orders := t.orders, ports := t.ports, out := t.out }) ∧
  (∀ (s : State) (n : Nat) (visible : List (Nat × Nat × List W64)) (r : PartReset), n < s.parts.length →
    (partOf n s).resetting = some r → r.held = false → r.again = none →
    (∀ port q p, qpOf port q s = some p → (p.slots.map Command.seq).Nodup) →
    (∀ p ∈ r.waiters, ∃ o ∈ s.orders.slots, o.mid = p) →
    Answers (.partitionResetDone n visible) s fun t =>
      (partOf n t).state = (if s.boot.failed.testBit n then 4 else 2) ∧ (partOf n t).resetting = none ∧
      (partOf n t).resetCount = (if (partOf n s).resetCount < 0xFFFF then (partOf n s).resetCount + 1 else (partOf n s).resetCount) ∧
      (s.boot.failed.testBit n = false → t.boot.ready.testBit n = true) ∧
      t.jobs = s.jobs.filter (fun j => j.part != n) ∧
      (∀ k c, c ∈ poolsOf n s → k = c.pool → k < s.pools.length → (poolOf k t).buffers = []) ∧
      (∀ p g a, partCfg n s = some p → g ∈ clustersHeld p →
        ((clusterWindow g ≤ a ∧ a < clusterWindow (g + 1)) ∨ (coreWindow (16 * g) ≤ a ∧ a < coreWindow (16 * g + 16))) →
        rdByte a t.mem = 0) ∧
      (∀ a, r.scrub = true → inside a 1 (stackRange n s) = true → rdByte a t.mem = 0) ∧
      (∀ a, a < clusterWindow 0 → (r.scrub = false ∨ inside a 1 (stackRange n s) = false) → rdByte a t.mem = rdByte a s.mem) ∧
      (∀ port q p, port ∈ portsOf n s → q < 16 → qpOf port q t = some p → ∀ c ∈ p.slots, c.state = .ended) ∧
      (∀ m ∈ r.waiters, (slotOf m t).status = 2)))


/-! ### Commands of the submission queues and runs (05, 08, 09) -/

/-- A command of a queue pair has ended with a status and a result, and its completion waits (R171, R172, R179). -/
def EndedWith (port q seq status : Nat) (result : W64) (t : State) : Prop := ∃ p, qpOf port q t = some p ∧ seq ∈ p.endOrder ∧
  ∀ d ∈ p.slots, d.seq = seq → d.state = .ended ∧ d.status = status ∧ d.result = result

/-- Nothing is under test, being replaced or out of service (R530, R533, R537). -/
def Sound (s : State) : Prop := s.faults.tests = [] ∧ s.faults.swaps = [] ∧ s.faults.lost = [] ∧ s.faults.out = [] ∧
  ∀ p ∈ allSpares s, p.2.deferred = false

/-- R62, R170, R262, R305: LOAD_JOB in a partition that is ready. The package is copied into the memory that jobs of the partition may use,
at a place that the spec leaves open (log entry 211). One that passes every check joins the loaded jobs and ends SUCCESS;
one that fails a check changes no job and ends INVALID_FIELD, or NO_SPACE at stage 5; a LENGTH of 0, a loaded JOB and a failed fetch end
INVALID_FIELD, JOB_EXISTS and HOST_MEMORY_ERROR. R170, R306, R308, R517: START_JOB of a loaded job that does not run counts as started and waits in its slot; one of a JOB that is not
loaded ends NO_JOB, of a running job JOB_RUNNING. R170, R309, R338, R321: ABORT_JOB stops the run of its job (its tiles stop, its START_JOB ends ABORTED with the Clockwork count) and
ends SUCCESS; UNLOAD_JOB takes a job that does not run out of the loaded jobs, and what it wrote in extensions reads zero; both end NO_JOB
when no such job is loaded, UNLOAD_JOB of a running job ends JOB_RUNNING.
Where the spec leaves a point open, the statement follows the model's choices of log entries 33, 34, 35, 36, 81, 82, 110, 211. -/
def Obligations.JobCommands : Prop :=
  (
  ∀ (s : State) (port q seq n : Nat) (c : Command) (package : List W64),
  starting 1 port q seq s = some (n, c) → (partOf n s).state = 2 →
  ((c.w 3).toNat = 0 → ∀ failed, Answers (.loadJob port q seq package failed) s fun t =>
    EndedWith port q seq 0x0002 0 t ∧ t = { s with ports := t.ports }) ∧
  (fld (c.w 0) 14 8 = 0 → c.w 2 = 0 → 1 ≤ (c.w 3).toNat → (c.w 3).toNat ≤ 2 ^ 38 →
    c.w 4 = 0 → c.w 5 = 0 → c.w 6 = 0 → c.w 7 = 0 →
    ((jobOf n c.job s).isSome = true → ∀ failed, Answers (.loadJob port q seq package failed) s fun t =>
      EndedWith port q seq 0x0004 0 t ∧ t = { s with ports := t.ports }) ∧
    (∀ slot, jobOf n c.job s = none → freeJobSlot s = some slot →
      (Answers (.loadJob port q seq package true) s fun t => EndedWith port q seq 0x000C 0 t ∧ t = { s with ports := t.ports }) ∧
      (∀ p place u j j', p = package.take (((c.w 3).toNat + 7) / 8) → copyPackage n (c.w 3).toNat p s = (place, u) →
        j' = packageJob n c.job port q slot p → j = { j' with place := place, tiles := j'.tiles.map (keepLast s) } →
        (loadFail n (c.w 3).toNat u p j = none → Answers (.loadJob port q seq package false) s fun t =>
          t.jobs = s.jobs ++ [j] ∧ EndedWith port q seq 0 0 t ∧ t.mem = u.mem) ∧
        (∀ r, loadFail n (c.w 3).toNat u p j = some r → Answers (.loadJob port q seq package false) s fun t =>
          EndedWith port q seq (if r.stage = 5 then 0x0006 else 0x0002) 0 t ∧ t.jobs = s.jobs ∧ t.mem = u.mem ∧
          t.pools = s.pools) ∧
        (Memory.wf s.mem = true → s.faults.out = [] → (c.w 3).toNat ≤ (jobRange n s).2 →
          inside place (c.w 3).toNat (jobRange n s) = true ∧
          (∀ i, i < (c.w 3).toNat → i < 8 * p.length → some (rdByte (place + i) u.mem) = (ofWords p)[i]?) ∧
          (∀ a, (a < place ∨ place + (c.w 3).toNat ≤ a) → rdByte a u.mem = rdByte a s.mem)) ∧
        ((jobRange n s).2 < (c.w 3).toNat → u = s))))) ∧
  (
  ∀ (s : State) (port q seq n : Nat) (c : Command),
  starting 2 port q seq s = some (n, c) → fld (c.w 0) 14 8 = 0 → c.w 1 = 0 → c.w 2 = 0 → c.w 3 = 0 → c.w 5 = 0 → c.w 6 = 0 → c.w 7 = 0 →
  (jobOf n c.job s = none → Answers (.startJob port q seq) s fun t => EndedWith port q seq 0x0003 0 t ∧ t = { s with ports := t.ports }) ∧
  (∀ j, jobOf n c.job s = some j → j.run ≠ none → Answers (.startJob port q seq) s fun t =>
    EndedWith port q seq 0x0005 0 t ∧ t = { s with ports := t.ports }) ∧
  (∀ j, jobOf n c.job s = some j → j.run = none → Answers (.startJob port q seq) s fun t =>
    (∃ d, commandOf port q seq t = some d ∧ d = { c with state := .started }) ∧ t = { s with ports := t.ports })) ∧
  (
  ∀ (s : State) (port q seq n : Nat) (c : Command),
  fld (c.w 0) 14 8 = 0 → (∀ i, 1 ≤ i → i ≤ 7 → c.w i = 0) →
  (starting 3 port q seq s = some (n, c) →
    (jobOf n c.job s = none → Answers (.abortJob port q seq) s fun t => EndedWith port q seq 0x0003 0 t ∧ t = { s with ports := t.ports }) ∧
    (∀ j r d, jobOf n c.job s = some j → j.run = some r → r.started = true → r.setup = true →
      (∀ w ∈ waitingStarts n c.job s, w = (r.port, r.qp, r.seq)) →
      commandOf r.port r.qp r.seq s = some d → d.state ≠ .ended → (r.port, r.qp, r.seq) ≠ (port, q, seq) →
      Answers (.abortJob port q seq) s fun t =>
        (∃ j', jobOf n c.job t = some j' ∧ j'.run = none ∧ j'.tiles.map JobTile.tile = j.tiles.map JobTile.tile ∧
          ∀ x ∈ j'.tiles, x.state = 6 ∧ x.fetcher = [] ∧ x.arrays = [] ∧ x.vector = [] ∧ x.jacks = [] ∧ x.domino = []) ∧
        EndedWith r.port r.qp r.seq 0x0007 s.cwk.now t ∧ EndedWith port q seq 0 0 t)) ∧
  (starting 4 port q seq s = some (n, c) →
    (jobOf n c.job s = none → Answers (.unloadJob port q seq) s fun t => EndedWith port q seq 0x0003 0 t ∧ t = { s with ports := t.ports }) ∧
    (∀ j, jobOf n c.job s = some j → j.run ≠ none → Answers (.unloadJob port q seq) s fun t =>
      EndedWith port q seq 0x0005 0 t ∧ t = { s with ports := t.ports }) ∧
    (∀ j, jobOf n c.job s = some j → j.run = none → Answers (.unloadJob port q seq) s fun t =>
      t.jobs = s.jobs.filter (fun k => !(k.part == n && k.num == c.job)) ∧ EndedWith port q seq 0 0 t ∧
      (∀ e ∈ j.ext, ∀ a, e.addr ≤ a → a < e.addr + 4096 → rdByte a t.mem = 0) ∧
      (∀ a, (∀ e ∈ j.ext, a < e.addr ∨ e.addr + 4096 ≤ a) → rdByte a t.mem = rdByte a s.mem))))

/-- R170, R626, R148, R326: COPY_IN writes the host's bytes to the range it names and nothing else, and ends with the count of
bytes moved, HOST_MEMORY_ERROR when the host's memory gave fewer; what it wrote behind those is open. COPY_OUT sends the bytes, and ends DEVICE_MEMORY_ERROR before the first
poisoned line, HOST_MEMORY_ERROR with the link down (R173); a LENGTH of 0 ends INVALID_FIELD.
Where the spec leaves a point open, the statement follows the model's choices of log entry 42. -/
def Obligations.CopyCommands : Prop := ∀ (s : State) (port q seq n : Nat) (c : Command), (partOf n s).state = 2 →
  c.job = 0 → fld (c.w 0) 14 8 = 0 → fld (c.w 2) 63 48 = 0 → c.w 4 = 0 → c.w 5 = 0 → c.w 6 = 0 → c.w 7 = 0 →
  (starting 5 port q seq s = some (n, c) →
    (∀ data, (c.w 3).toNat = 0 → Answers (.copyIn port q seq data) s fun t =>
      EndedWith port q seq 0x0002 0 t ∧ t = { s with ports := t.ports }) ∧
    (∀ data, 1 ≤ (c.w 3).toNat → (c.w 3).toNat ≤ 2 ^ 38 → inside (fld (c.w 2) 47 0) (c.w 3).toNat (jobRange n s) = true →
      s.faults.out = [] → Memory.wf s.mem = true → data.length ≤ (c.w 3).toNat →
      Answers (.copyIn port q seq data) s fun t =>
        EndedWith port q seq (if data.length = (c.w 3).toNat then 0 else 0x000C) (BitVec.ofNat 64 data.length) t ∧
        (∀ i, i < data.length → some (rdByte (fld (c.w 2) 47 0 + i) t.mem) = data[i]?) ∧
        (∀ a, (a < fld (c.w 2) 47 0 ∨ fld (c.w 2) 47 0 + (c.w 3).toNat ≤ a) → rdByte a t.mem = rdByte a s.mem) ∧
        t = { s with ports := t.ports, mem := t.mem, poison := t.poison, free := t.free })) ∧
  (starting 6 port q seq s = some (n, c) → 1 ≤ (c.w 3).toNat → (c.w 3).toNat ≤ 2 ^ 38 →
    inside (fld (c.w 2) 47 0) (c.w 3).toNat (jobRange n s) = true →
    (poisoned (fld (c.w 2) 47 0) (c.w 3).toNat s = none → (portOf port s).linkUp = false → Answers (.copyOut port q seq none) s fun t =>
      EndedWith port q seq 0x000C 0 t ∧ t = { s with ports := t.ports }) ∧
    (poisoned (fld (c.w 2) 47 0) (c.w 3).toNat s = none → (portOf port s).linkUp = true → Answers (.copyOut port q seq none) s fun t =>
      EndedWith port q seq 0 (BitVec.ofNat 64 (c.w 3).toNat) t ∧
      t = { s with ports := t.ports, out := s.out ++
        [.hostBytes port (c.w 1) ((List.range (c.w 3).toNat).map fun i => rdByte (fld (c.w 2) 47 0 + i) s.mem)] }) ∧
    (∀ a, poisoned (fld (c.w 2) 47 0) (c.w 3).toNat s = some a → fld (c.w 2) 47 0 < a → (portOf port s).linkUp = true →
     Answers (.copyOut port q seq none) s fun t =>
      EndedWith port q seq 0x000D (BitVec.ofNat 64 (a - fld (c.w 2) 47 0)) t ∧
      t.out[s.out.length]? = some (.hostBytes port (c.w 1)
        ((List.range (a - fld (c.w 2) 47 0)).map fun i => rdByte (fld (c.w 2) 47 0 + i) s.mem)) ∧
      t.mem = s.mem ∧ t.jobs = s.jobs))

/-- A job of one module alone: no section for the Jacks or the Domino engines, no channel, no descriptor of another module. -/
def LocalJob (j : Job) : Prop := j.jsection = [] ∧ j.csection = [] ∧ j.channels = [] ∧ (∀ x ∈ j.tiles, ∀ d ∈ x.descs, d.space ≠ 1) ∧
  j.coll.abandoned = false ∧ j.coll.applied = none

/-- R136 to R138, R170, R306, R308, R542: RUN_START of a waiting START_JOB of a local job in a sound partition with no other run. A
curtain count that has come starts every tile at its first instruction, and one that has passed is counted as late; a count to come
leaves the run waiting; a job gone ends NO_JOB; a fault not repaired ends FAULT. R299, R301, R307, R324: RUN_END of a job whose tiles have all ended: its START_JOB ends SUCCESS with the Clockwork count, the job record
in memory holds the step, the run's curtain count and the count of its end, memory outside the statistics is as before, the job stays
loaded.
Where the spec leaves a point open, the statement follows the model's choices of log entries 18, 83, 84, 92. -/
def Obligations.RunsStartAndEnd : Prop :=
  (
  ∀ (s : State) (port q seq n : Nat) (c : Command),
  partOfPort port s = some n → commandOf port q seq s = some c → c.opcode = 2 → c.state = .started → (partOf n s).state = 2 →
  n < s.parts.length → (∀ k ∈ s.jobs, k.part = n → k.run = none) → fld (c.w 0) 8 8 = 0 →
  (∀ k ∈ s.jobs, ∀ r, k.run = some r → (r.port, r.qp, r.seq) ≠ (port, q, seq)) →
  (jobOf n c.job s = none → Answers (.runStart port q seq) s fun t => EndedWith port q seq 0x0003 0 t ∧ t = { s with ports := t.ports }) ∧
  (∀ j, jobOf n c.job s = some j → (∀ p ∈ allSpares s, p.2.deferred = false) → faultBlocks n s = true →
    Answers (.runStart port q seq) s fun t => EndedWith port q seq 0x000E 0 t ∧ t = { s with ports := t.ports }) ∧
  (∀ j, jobOf n c.job s = some j → LocalJob j → Sound s → c.w 4 ≠ 0 → s.cwk.state ≠ .unsynced →
    (c.w 4 ≤ s.cwk.now → Answers (.runStart port q seq) s fun t =>
      (∃ j' r, jobOf n c.job t = some j' ∧ j'.run = some r ∧ r.started = true ∧ r.start = c.w 4 ∧ r.filler = false ∧
        (r.port, r.qp, r.seq) = (port, q, seq) ∧
        j'.tiles.map (fun x => (x.tile, x.list)) = j.tiles.map (fun x => (x.tile, x.list)) ∧
        (∀ x ∈ j'.tiles, x.state = 2 ∧ x.next = 0 ∧ x.loops = [] ∧ x.posted = List.replicate 15 0 ∧ x.x = List.replicate 8 0) ∧
        j'.tiles.map (fun x => x.extra.late) =
          j.tiles.map (fun x => if c.w 4 < s.cwk.now then min (x.extra.late + 1) 0xFFFFFFFF else x.extra.late)) ∧
      (partOf n t).lateCurtains = (partOf n s).lateCurtains + (if c.w 4 < s.cwk.now then j.tiles.length else 0) ∧ t.mem = s.mem) ∧
    (s.cwk.now < c.w 4 → Answers (.runStart port q seq) s fun t =>
      (∃ j' r, jobOf n c.job t = some j' ∧ j'.run = some r ∧ r.started = false ∧ r.count = some (c.w 4) ∧ ∀ x ∈ j'.tiles, x.state = 1) ∧
      t.mem = s.mem))) ∧
  (
  ∀ (s : State) (n num : Nat) (j : Job) (r : Run) (d : Command),
  jobOf n num s = some j → j.run = some r → r.started = true → (∀ x ∈ j.tiles, x.state = 5 ∧ x.tile < 1024 ∧ x.seq.length = 14) → j.jsection = [] → Sound s →
  commandOf r.port r.qp r.seq s = some d → d.state ≠ .ended → Memory.wf s.mem = true →
  Answers (.runEnd n num) s fun t =>
    (∃ j', jobOf n num t = some j' ∧ j'.run = none ∧ j'.tiles = j.tiles) ∧ EndedWith r.port r.qp r.seq 0 s.cwk.now t ∧
    BitVec.ofNat 64 (rdNat (j.stats + 0x40000) 8 t.mem) = j.step ∧
    BitVec.ofNat 64 (rdNat (j.stats + 0x40008) 8 t.mem) = r.start ∧
    BitVec.ofNat 64 (rdNat (j.stats + 0x40010) 8 t.mem) = BitVec.ofNat 64 r.ended ∧
    (∀ a, (a < j.stats ∨ j.stats + 0x49000 ≤ a) → rdByte a t.mem = rdByte a s.mem))

/-! ### The Toybox (09) -/

/-- R330 to R336: a request that its pool's state, its quota and a free buffer allow, with no eligible request before it, takes the lowest
free buffer at once; otherwise it waits behind the others; the oldest eligible waiting request is served; a CREDITED ALLOC turns its
requester's lowest reservation into an allocation. R334 to R338: FREE and HANDOFF by the owner of an allocated buffer free it and name another owner; by any other unit they are refused
and counted; a pool at HOLD for SATURATION_WINDOW_US raises sustained-saturation once; the age sweep changes no pool.
Where the spec leaves a point open, the statement follows the model's choices of log entries 106, 108. -/
def Obligations.Pools : Prop :=
  (
  ∀ (s : State) (k req own : Nat) (c : PoolCfg), poolCfg k s = some c → k < s.pools.length →
  (∀ alloc, eligible c (poolOf k s) ⟨alloc, req, if alloc then own else req⟩ = true →
    ((poolOf k s).waiting.all fun w => !eligible c (poolOf k s) w) = true →
    Answers (if alloc then .alloc k req own false else .reserve k req) s fun t =>
      (∃ i, (∀ b ∈ (poolOf k s).buffers, b.num ≠ i) ∧ i < c.bufferCount ∧
        (∀ i', i' < i → ∃ b ∈ (poolOf k s).buffers, b.num = i') ∧
        (∀ b, b ∈ (poolOf k t).buffers ↔ b ∈ (poolOf k s).buffers ∨
          b = ⟨i, req, if c.multiOwner && alloc then own else req, alloc, false, s.cwk.now.toNat / 65536 % 2 ^ 36⟩)) ∧
      (poolOf k t).waiting = (poolOf k s).waiting ∧ (∀ k', k' ≠ k → poolOf k' t = poolOf k' s) ∧ t.mem = s.mem ∧ t.jobs = s.jobs) ∧
  (∀ alloc, eligible c (poolOf k s) ⟨alloc, req, if alloc then own else req⟩ = false →
    Answers (if alloc then .alloc k req own false else .reserve k req) s fun t =>
      (poolOf k t).buffers = (poolOf k s).buffers ∧
      (poolOf k t).waiting = (poolOf k s).waiting ++ [⟨alloc, req, if alloc then own else req⟩] ∧ t = { s with pools := t.pools }) ∧
  (∀ w rest, (poolOf k s).waiting = w :: rest → eligible c (poolOf k s) w = true → Answers (.poolWaitServed k) s fun t =>
    (poolOf k t).waiting = rest ∧ (poolOf k t).buffers.length = (poolOf k s).buffers.length + 1 ∧
    (∀ b ∈ (poolOf k s).buffers, b ∈ (poolOf k t).buffers) ∧ (∃ b ∈ (poolOf k t).buffers, b.requester = w.requester ∧ b.allocated = w.alloc) ∧
    t.mem = s.mem ∧ t.jobs = s.jobs) ∧
  (∀ b rest, (poolOf k s).buffers = b :: rest → b.allocated = false → b.requester = req → (∀ x ∈ rest, x.num ≠ b.num) →
    Answers (.alloc k req own true) s fun t =>
      (poolOf k t).buffers = { b with allocated := true, age := s.cwk.now.toNat / 65536 % 2 ^ 36,
                                      owner := if c.multiOwner then own else req } :: rest ∧
      (poolOf k t).waiting = (poolOf k s).waiting ∧ t.mem = s.mem ∧ t.jobs = s.jobs)) ∧
  (
  ∀ (s : State) (k unit num : Nat) (c : PoolCfg), poolCfg k s = some c → k < s.pools.length →
  (∀ b ∈ (poolOf k s).buffers, b.num = num → b.allocated = true → b.owner = unit →
    (Answers (.free k unit num) s fun t =>
      (poolOf k t).buffers = (poolOf k s).buffers.filter (fun x => x.num != num) ∧ (poolOf k t).waiting = (poolOf k s).waiting ∧
      (∀ k', k' ≠ k → poolOf k' t = poolOf k' s) ∧ t.mem = s.mem ∧ t.jobs = s.jobs) ∧
    (∀ own, c.multiOwner = true → Answers (.handoff k unit num own) s fun t =>
      (poolOf k t).buffers = (poolOf k s).buffers.map (fun x => if x.num = num then { x with owner := own, handedOff := true } else x) ∧
      (poolOf k t).waiting = (poolOf k s).waiting ∧ t = { s with pools := t.pools })) ∧
  ((∀ b ∈ (poolOf k s).buffers, b.num = num → b.allocated = true → b.owner ≠ unit) → ∀ own,
    ∀ cmd ∈ [Instr.free k unit num, Instr.handoff k unit num own], Answers cmd s fun t =>
      (poolOf k t).buffers = (poolOf k s).buffers ∧ (poolOf k t).waiting = (poolOf k s).waiting ∧
      (poolOf k t).audit.refused =
        (if (poolOf k s).audit.refused < 0xFFFF then (poolOf k s).audit.refused + 1 else (poolOf k s).audit.refused) ∧
      t.mem = s.mem ∧ t.jobs = s.jobs) ∧
  (poolThreshold c c.hold ≤ (poolOf k s).buffers.length → (poolOf k s).satRaised = false → Answers (.poolSaturationTimeout k) s fun t =>
    poolOf k t = { poolOf k s with satRaised := true } ∧ t.mem = s.mem ∧ t.jobs = s.jobs) ∧
  (Answers .bufferAgeSweep s fun t => t.pools = s.pools ∧ t.mem = s.mem ∧ t.jobs = s.jobs))


/-! ### Instruction lists: issue, the SYNC and CTRL classes, completion (08) -/

/-- The instruction `w` at the front of tile `x` of job `j` issues now as CLASS `cls`, OP `op` (R284, R285, R308). -/
def Issues (s : State) (t : Nat) (c : Ctx) (cls op : Nat) (j : Job) (x : JobTile) (w : W128) : Prop :=
  issuable t c cls op s = some (j, x, w) ∧ jobOf j.part j.num s = some j ∧ x.posted.length = 15 ∧ x.reserved.length = 15 ∧
  x.x.length = 8

/-- Tile `t` of job `j` after a command, with `P`. -/
def TileNow (u : State) (j : Job) (t : Nat) (P : JobTile → Prop) : Prop :=
  ∃ j' y, jobOf j.part j.num u = some j' ∧ j'.tile t = some y ∧ P y

/-- Nothing of the jobs but tile `t` of job `j` differs. -/
def OnlyTile (s u : State) (j : Job) (t : Nat) : Prop :=
  (∀ n m, (n, m) ≠ (j.part, j.num) → jobOf n m u = jobOf n m s) ∧
  ∃ j', jobOf j.part j.num u = some j' ∧ j' = { j with tiles := j'.tiles } ∧ ∀ v, v ≠ t → j'.tile v = j.tile v

/-- What issue leaves on the sequencer (R272, R283, R296, R299): ISSUED counts, LAST_INDEX names the instruction, the entry of WAIT_STR
is taken; MAYVARY marks the run. -/
def IssueCounted (x : JobTile) (w : W128) (y : JobTile) : Prop :=
  y.extra.last = x.next ∧ y.seq[0]? = x.seq[0]?.map (· + 1) ∧ y.variedRun = (x.variedRun || mayVary w) ∧ y.list = x.list ∧
  y.descs = x.descs ∧ y.epis = x.epis

/-- R286: the instruction completes at issue: its string is posted at once, and no unit queue changes. -/
def CompletesHere (x : JobTile) (w : W128) (y : JobTile) : Prop :=
  IssueCounted x w y ∧ y.reserved = x.reserved ∧
  (∀ i, i < 15 → y.posted.getD i 0 =
    x.posted.getD i 0 - (if waitStr w = i then 1 else 0) + (if postStr w = i then 1 else 0)) ∧
  y.fetcher = x.fetcher ∧ y.arrays = x.arrays ∧ y.vector = x.vector ∧ y.jacks = x.jacks ∧ y.domino = x.domino ∧
  y.streams = x.streams ∧ y.acc = x.acc ∧ y.num = x.num ∧ y.binds = x.binds ∧ y.fence = x.fence

/-- R286: the instruction enters the queue of a unit, and a place of POST_STR is reserved. -/
def EntersQueue (u : UnitId) (x : JobTile) (w : W128) (y : JobTile) : Prop :=
  IssueCounted x w y ∧ y.state = 2 ∧ (y.next, y.loops) = advance x.next x.loops ∧
  (∃ e, y.queue u = x.queue u ++ [e] ∧ e.index = x.next ∧ e.word = w ∧ e.x = x.xval w ∧ e.post = postStr w) ∧
  (∀ v, v ≠ u → y.queue v = x.queue v) ∧ y.x = x.x ∧
  ∀ i, i < 15 → y.posted.getD i 0 = x.posted.getD i 0 - (if waitStr w = i then 1 else 0) ∧
    y.reserved.getD i 0 = x.reserved.getD i 0 + (if postStr w = i then 1 else 0)

/-- R271 to R273, R281, R283, R285, R286: WAIT, CTRL NOP, FENCE, SETX, ADDX, LOOP, JUMP and BARRIER complete at issue; nothing but their
tile changes; SETX and ADDX change one index register, LOOP opens a loop over its body, JUMP moves the next index, BARRIER counts. R136, R137, R282, R285: a CURTAIN issues at a count that has come; one that is reached after its count without having waited is
counted and reported as late, in its tile and in its partition; a step curtain counts for its tile.
Where the spec leaves a point open, the statement follows the model's choices of log entries 46, 49, 50, 52, 78, 217. -/
def Obligations.SyncControlAndCurtains : Prop :=
  (
  ∀ (s : State) (t : Nat) (c : Ctx) (ws : List (Nat × Nat)) (j : Job) (x : JobTile)
    (w : W128),
  (∀ cmd cls op, (cmd, cls, op) ∈ [(Instr.wait t c ws, 5, 5), (Instr.ctrlNop t c ws, 6, 0), (Instr.fence t c ws, 5, 4)] →
    Issues s t c cls op j x w → Answers cmd s fun u =>
      u = { s with jobs := u.jobs } ∧ OnlyTile s u j t ∧ TileNow u j t fun y => CompletesHere x w y ∧ y.state = 2 ∧
        (y.next, y.loops) = advance x.next x.loops ∧ y.x = x.x ∧ y.barriers = x.barriers ∧ y.curtains = x.curtains) ∧
  (Issues s t c 6 4 j x w → Answers (.setx t c ws) s fun u =>
    u = { s with jobs := u.jobs } ∧ OnlyTile s u j t ∧ TileNow u j t fun y => CompletesHere x w y ∧ y.state = 2 ∧
      (y.next, y.loops) = advance x.next x.loops ∧
      ∀ r, r < 8 → y.x.getD r 0 = if r = ifld w 103 101 then BitVec.ofNat 32 (ifld w 100 69) else x.x.getD r 0) ∧
  (Issues s t c 6 5 j x w → Answers (.addx t c ws) s fun u =>
    u = { s with jobs := u.jobs } ∧ OnlyTile s u j t ∧ TileNow u j t fun y => CompletesHere x w y ∧ y.state = 2 ∧
      (y.next, y.loops) = advance x.next x.loops ∧
      ∀ r, r < 8 → y.x.getD r 0 = x.x.getD r 0 + if r = ifld w 103 101 then BitVec.ofNat 32 (ifld w 100 69) else 0) ∧
  (Issues s t c 6 1 j x w → Answers (.loop t c ws) s fun u =>
    u = { s with jobs := u.jobs } ∧ OnlyTile s u j t ∧ TileNow u j t fun y => CompletesHere x w y ∧ y.state = 2 ∧
      y.next = (advance x.next x.loops).1 ∧
      y.loops = ⟨x.next + 1, x.next + ifld w 71 56, ifld w 103 72⟩ :: (advance x.next x.loops).2 ∧ y.x = x.x) ∧
  (Issues s t c 6 2 j x w → Answers (.jump t c ws) s fun u =>
    u = { s with jobs := u.jobs } ∧ OnlyTile s u j t ∧ TileNow u j t fun y => CompletesHere x w y ∧ y.state = 2 ∧
      y.next = ifld w 103 72 ∧ y.loops = (advance x.next x.loops).2 ∧ y.x = x.x) ∧
  (Issues s t c 5 1 j x w → Answers (.barrier t c ws) s fun u =>
    u = { s with jobs := u.jobs } ∧ OnlyTile s u j t ∧ TileNow u j t fun y => CompletesHere x w y ∧ y.state = 2 ∧
      (y.next, y.loops) = advance x.next x.loops ∧ y.x = x.x ∧
      ∀ b, y.barrierCount b = x.barrierCount b + if b = ifld w 103 98 then 1 else 0)) ∧
  (
  ∀ (s : State) (t : Nat) (c : Ctx) (ws : List (Nat × Nat)) (j : Job) (x : JobTile) (w : W128)
    (k : W64), Issues s t c 5 0 j x w → curtainCount j x w = some k → j.part < s.parts.length →
  k ≤ s.cwk.now ∧
  (k = s.cwk.now → Answers (.curtain t c ws) s fun u =>
    u = { s with jobs := u.jobs } ∧ OnlyTile s u j t ∧ TileNow u j t fun y => CompletesHere x w y ∧ y.state = 2 ∧
      y.curtains = x.curtains + (if ifld w 103 102 = 1 then 1 else 0) ∧ y.extra.late = x.extra.late) ∧
  (k < s.cwk.now → (∀ p ∈ ws, p.1 ≠ 6) → Answers (.curtain t c ws) s fun u =>
    OnlyTile s u j t ∧ (TileNow u j t fun y => CompletesHere x w y ∧ y.state = 2 ∧
      y.curtains = x.curtains + (if ifld w 103 102 = 1 then 1 else 0) ∧ y.extra.late = min (x.extra.late + 1) 0xFFFFFFFF) ∧
    (partOf j.part u).lateCurtains = (partOf j.part s).lateCurtains + 1 ∧ u.mem = s.mem))

/-- R281, R283, R286 to R288, R294: BRANCH stops issue until the tile has drained; then the condition word chooses TARGET or the next
instruction, and its arrays that spin stop (R217); END ends issue, and a tile whose units are empty is ENDED; a refill ends the wait for the
instruction buffer.
Where the spec leaves a point open, the statement follows the model's choices of log entries 46, 53, 227. -/
def Obligations.BranchesAndEnd : Prop := ∀ (s : State) (t : Nat) (c : Ctx) (ws : List (Nat × Nat)) (j : Job) (x : JobTile) (w : W128),
  (Issues s t c 6 3 j x w → Answers (.branch t c ws) s fun u =>
    u = { s with jobs := u.jobs, dp := u.dp } ∧ OnlyTile s u j t ∧ (TileNow u j t fun y => y = { x with state := 4, seq := y.seq }) ∧
    ∀ core i, lookup0 t s.dp.prev = core + 1 → lookup0 core s.dp.last = t + 1 → i < 4 → arrayState core i s = 2 →
      arrayState core i u = 0) ∧
  (Issues s t c 6 7 j x w → Answers (.endList t c ws) s fun u =>
    u = { s with jobs := u.jobs } ∧ TileNow u j t fun y => CompletesHere x w y ∧ y.ending = true ∧ y.next = x.next ∧
      y.state = if x.drained then 5 else 2) ∧
  (∀ cycles, runOn t c s = some (j, x) → jobOf j.part j.num s = some j → x.refill = true →
    Answers (.ifetchRefillDone t c cycles) s fun u =>
      u = { s with jobs := u.jobs } ∧ OnlyTile s u j t ∧ TileNow u j t fun y => y = { x with refill := false, seq := y.seq }) ∧
  (∀ cycles d a v, runOn t c s = some (j, x) → jobOf j.part j.num s = some j → x.posted.length = 15 → x.reserved.length = 15 →
    x.word = some w → iclass w = 6 → iop w = 3 → x.state = 4 → x.drained = true →
    d = x.desc (ifld w 71 64) → a = (d.base + 4 * ifld w 63 48) % 2 ^ 48 → checkReads j t [(a, 4)] s = none → v = rdNat a 4 s.mem →
    Answers (.branchDrainEnd t c cycles) s fun u =>
      u = { s with jobs := u.jobs } ∧ TileNow u j t fun y => CompletesHere x w y ∧ y.state = 2 ∧
        y.extra.branches = min (x.extra.branches + 1) 0xFFFFFFFF ∧ y.loops = (advance x.next x.loops).2 ∧
        y.next = if (ifld w 47 46 = 0 ∧ v = ifld w 45 14) ∨ (ifld w 47 46 = 1 ∧ v ≠ ifld w 45 14) ∨
            (ifld w 47 46 = 2 ∧ v < ifld w 45 14) ∨ (ifld w 47 46 = 3 ∧ ifld w 45 14 ≤ v)
          then ifld w 103 72 else (advance x.next x.loops).1)

/-- R281, R286, R303, R304: TIME writes the Clockwork count at its place and enters the fetcher's queue; a unit that completes its oldest
instruction posts its string, and a tile that was ending is ENDED once all its units are empty; the stuck-run and tile saturation
timeouts are counted in the run and stop nothing; the first watches a run of which some tile is stalled, for no agreed future count.
Where the spec leaves a point open, the statement follows the model's choices of log entries 46, 47. -/
def Obligations.TimeAndCompletion : Prop := ∀ (s : State) (t : Nat) (c : Ctx) (ws : List (Nat × Nat)) (j : Job) (x : JobTile),
  (∀ w d a, Issues s t c 6 6 j x w → d = x.desc (ifld w 103 96) → a = (d.base + 8 * ((ifld w 95 76 + x.xval w) % 2 ^ 20)) % 2 ^ 48 →
    checkWrites j.part t [(a, 8)] s = none → s.faults.out = [] → Memory.wf s.mem = true → Answers (.time t c ws) s fun u =>
      (TileNow u j t fun y => EntersQueue .fetcher x w y) ∧ BitVec.ofNat 64 (rdNat a 8 u.mem) = s.cwk.now ∧
      (∀ b, (b < a ∨ a + 8 ≤ b) → rdByte b u.mem = rdByte b s.mem)) ∧
  (∀ unit e rest, runOn t c s = some (j, x) → jobOf j.part j.num s = some j → x.posted.length = 15 → x.reserved.length = 15 →
    x.queue unit = e :: rest → e.left = 0 → (unit = .arrays → e.ended = true ∧ e.held = []) → x.state ≠ 7 → Answers (.instructionComplete t c unit) s fun u =>
      u = { s with jobs := u.jobs } ∧ TileNow u j t fun y => y.queue unit = rest ∧ (∀ v, v ≠ unit → y.queue v = x.queue v) ∧
        (∀ i, i < 15 → y.posted.getD i 0 = x.posted.getD i 0 + (if e.post = i then 1 else 0) ∧
          y.reserved.getD i 0 = x.reserved.getD i 0 - (if e.post = i then 1 else 0)) ∧
        (x.ending = false → y.state = x.state) ∧
        (x.ending = true → rest = [] → (∀ v, v ≠ unit → x.queue v = []) → y.state = 5) ∧ y.next = x.next ∧ y.x = x.x) ∧
  (∀ n num r, jobOf n num s = some j → j.run = some r → r.started = true → s.clk.gated = false →
    (∃ y ∈ j.tiles, 2 ≤ y.state ∧ y.state ≤ 4 ∧ y.ending = false ∧ stallCause j y j.ctx s ≠ 0) →
    (∀ y ∈ j.tiles, y.state ≠ 7 ∧ (stallCause j y j.ctx s = 6 → ∀ v k, y.word = some v → curtainCount j y v = some k → k ≤ s.cwk.now)) →
    Answers (.stuckRunTimeout n num) s fun u =>
      (∃ j', jobOf n num u = some j' ∧ j' = { j with run := some { r with stuck := r.stuck + 1 } }) ∧
      (∀ m k, (m, k) ≠ (n, num) → jobOf m k u = jobOf m k s) ∧ u.mem = s.mem) ∧
  (∀ k r, runOn t c s = some (j, x) → jobOf j.part j.num s = some j → j.run = some r → saturationKey j x c s = some k → k ∉ x.satRaised →
    Answers (.tileSaturationTimeout t c) s fun u =>
      (TileNow u j t fun y => y = { x with satRaised := k :: x.satRaised }) ∧
      (∃ j' r', jobOf j.part j.num u = some j' ∧ j'.run = some r' ∧ r' = { r with saturations := r.saturations + 1 }) ∧ u.mem = s.mem)

/-- R289, R290, R281: a SEND on a channel between tiles of the module takes a credit and its lines, packed, become the next entry; a
RECV takes the oldest entry that has arrived, binds its place, and gives back the credit of the entry taken before.
Where the spec leaves a point open, the statement follows the model's choices of log entries 46, 47, 55. -/
def Obligations.ChannelInstructions : Prop := ∀ (s : State) (t : Nat) (c : Ctx) (ws : List (Nat × Nat)) (j : Job) (x : JobTile) (w : W128),
  (∀ h d rs bs a, Issues s t c 5 2 j x w → outChannel j t (ifld w 103 96) = some h → h.dstSeat = ownSeatOf s →
    d = x.desc (ifld w 95 88) → rs = lineRanges d ((ifld w 87 68 + x.xval w) % 2 ^ 20) (ifld w 67 52) →
    bs = gatherBytes rs s.mem → a = h.buffer + h.written % h.depth * h.entryBytes → bs.length ≤ h.entryBytes →
    checkReads j t rs s = none → mayRead j x rs s = true → checkWrites j.part h.dstTile [(a, bs.length)] s = none → s.faults.out = [] →
    Memory.wf s.mem = true → Answers (.send t c ws) s fun u =>
      (TileNow u j t fun y => EntersQueue .fetcher x w y) ∧
      (∃ j', jobOf j.part j.num u = some j' ∧ outChannel j' t (ifld w 103 96) =
        some { h with credits := h.credits - 1, written := h.written + 1, arrived := h.arrived + 1 }) ∧
      (∀ i, i < bs.length → some (rdByte (a + i) u.mem) = bs[i]?) ∧
      (∀ b, (b < a ∨ a + bs.length ≤ b) → rdByte b u.mem = rdByte b s.mem)) ∧
  (∀ h, Issues s t c 5 3 j x w → inChannel j t (ifld w 103 96) (ownSeatOf s) = some h → (j.tile h.srcTile).isSome = true →
    Answers (.recv t c ws) s fun u =>
      u = { s with jobs := u.jobs } ∧
      (TileNow u j t fun y => EntersQueue .fetcher x w y ∧
        (y.desc (ifld w 95 88)).base = h.buffer + h.taken % h.depth * h.entryBytes ∧
        (∀ i, i ≠ ifld w 95 88 → y.desc i = x.desc i)) ∧
      (∃ j', jobOf j.part j.num u = some j' ∧ inChannel j' t (ifld w 103 96) (ownSeatOf s) =
        some { h with taken := h.taken + 1, credits := if h.taken = 0 then h.credits else h.credits + 1 }))

/-! ### The fetcher, the fill batcher, the arrays and the vector unit (06, 07, 08, 11 R380) -/

/-- A byte outside all of some ranges. -/
def Outside (rs : List (Nat × Nat)) (b : Nat) : Prop := ∀ r ∈ rs, b < r.1 ∨ r.1 + r.2 ≤ b

/-- Tile `t` of partition `n` may write every run of bytes within some ranges (R141, R312). -/
def MayWrite (n t : Nat) (rs : List (Nat × Nat)) (s : State) : Prop :=
  ∀ a len, (∀ b, a ≤ b → b < a + len → ¬ Outside rs b) → reach n t a len s = none

/-- The bytes of ranges `ws` after are those of the ranges `rs` before, range by range. -/
def BytesMoved (rs ws : List (Nat × Nat)) (s u : State) : Prop :=
  ∀ (k : Nat) (r w : Nat × Nat), rs[k]? = some r → ws[k]? = some w → ∀ i, i < w.2 → rdByte (w.1 + i) u.mem = rdByte (r.1 + i) s.mem

/-- Ranges of 48-bit device addresses (R312). -/
def In48 (rs : List (Nat × Nat)) : Prop := ∀ r ∈ rs, r.1 + r.2 ≤ 2 ^ 48

/-- No operation waits to start on a tile of tile `t`'s cluster, in either context (R196, R197). -/
def NoOpWaits (t : Nat) (s : State) : Prop := ∀ v c k y, v / 16 = t / 16 → runOn v c s = some (k, y) →
  ∀ e ∈ y.arrays, e.acc ≠ none ∨ e.ended = true

/-- Ranges that share no byte. -/
def Apart (rs : List (Nat × Nat)) : Prop := rs.Pairwise fun a b => a.1 + a.2 ≤ b.1 ∨ b.1 + b.2 ≤ a.1

/-- R141, R223, R276, R326: a COPY within the module and an MCAST enter the fetcher's queue and write no byte outside their destination
lines (of each named cluster store); with elements of whole bytes, and lines that overlap no other line, each destination line holds the
source line's bytes. R276, R441: an ATOMIC on the module's own memory enters the fetcher's queue and writes no byte outside its target elements and its
returned values; on one INT32 element without return, add, min, max, compare-and-swap and swap leave the value that Table 12.9 gives.
Where the spec leaves a point open, the statement follows the model's choices of log entries 46, 47, 70, 72. -/
def Obligations.CopyMulticastAndAtomic : Prop :=
  (
  ∀ (s : State) (t : Nat) (c : Ctx) (ws : List (Nat × Nat)) (j : Job) (x : JobTile) (w : W128)
    (src dst : Desc) (l : Nat), src = x.desc (ifld w 103 96) → dst = x.desc (ifld w 95 88) →
  l = (ifld w 87 68 + x.xval w) % 2 ^ 20 → s.faults.out = [] → Memory.wf s.mem = true → dst.format = src.format →
  (∀ k rows col0 n rr wr, Issues s t c 0 0 j x w → src.space = 0 → dst.space = 0 → k = ifld w 67 48 → rows = ifld w 47 32 →
    col0 = ifld w 31 16 → n = copyCols src col0 (ifld w 15 0) → rr = copyRanges src l rows col0 n → wr = copyRanges dst k rows col0 n →
    In48 wr → checkReads j t rr s = none → checkWrites j.part t wr s = none → mayRead j x (rr ++ wr) s = true → Answers (.copy t c ws) s fun u =>
      (TileNow u j t fun y => EntersQueue .fetcher x w y) ∧ (∀ b, Outside wr b → rdByte b u.mem = rdByte b s.mem) ∧
      (isMx src.format = false → elemBits src.format % 8 = 0 → Apart (rr ++ wr) → BytesMoved rr wr s u)) ∧
  (∀ rows cs wr, Issues s t c 0 1 j x w → rows = ifld w 67 52 → cs = setBits (ifld w 32 0) 33 →
    wr = (cs.flatMap fun q => copyRanges { dst with base := mcastWindow (t / 512) q + dst.base % 2 ^ 24 } 0 rows 0 src.lineLen) →
    In48 wr → checkReads j t (copyRanges src l rows 0 src.lineLen) s = none →
    mayRead j x (copyRanges src l rows 0 src.lineLen ++ wr) s = true →
    (∀ q ∈ cs, ∃ p, partCfg j.part s = some p ∧ (if t / 512 = 0 then p.clusters0 else p.clusters1).testBit q = true ∧
      ∀ r ∈ copyRanges { dst with base := mcastWindow (t / 512) q + dst.base % 2 ^ 24 } 0 rows 0 src.lineLen,
        inside r.1 r.2 (mcastWindow (t / 512) q, 2 ^ 24) = true) →
    Answers (.mcast t c ws) s fun u =>
      (TileNow u j t fun y => EntersQueue .fetcher x w y) ∧ (∀ b, Outside wr b → rdByte b u.mem = rdByte b s.mem) ∧
      (isMx src.format = false → elemBits src.format % 8 = 0 → Apart (copyRanges src l rows 0 src.lineLen ++ wr) → ∀ q ∈ cs,
        BytesMoved (copyRanges src l rows 0 src.lineLen)
          (copyRanges { dst with base := mcastWindow (t / 512) q + dst.base % 2 ^ 24 } 0 rows 0 src.lineLen) s u))) ∧
  (
  ∀ (s : State) (t : Nat) (c : Ctx) (ws : List (Nat × Nat)) (j : Job) (x : JobTile) (w : W128)
    (dst src : Desc) (aop n row count : Nat) (rd tg rt : List (Nat × Nat)),
  Issues s t c 0 5 j x w → dst = x.desc (ifld w 103 96) → src = x.desc (ifld w 95 88) → dst.space = 0 → aop = ifld w 79 76 →
  n = atypeBytes (ifld w 75 72) → row = (ifld w 71 52 + x.xval w) % 2 ^ 20 → count = ifld w 51 36 →
  rd = ((List.range (if aop = 3 then 2 * count else count)).map fun i => (flatAddr src n i, n)) →
  tg = ((List.range count).map fun i => (flatAddr dst n (row + i), n)) →
  rt = (if ifld w 87 80 = 0xFF then [] else (List.range count).map fun i => (flatAddr (x.desc (ifld w 87 80)) n i, n)) →
  checkReads j t rd s = none → checkWrites j.part t rt s = none → checkReads j t tg s = none →
  checkWrites j.part t tg s = none → mayRead j x (rd ++ tg ++ rt) s = true → s.faults.out = [] → Memory.wf s.mem = true → Answers (.atomic t c ws) s fun u =>
    (TileNow u j t fun y => EntersQueue .fetcher x w y) ∧ (∀ b, Outside (tg ++ rt) b → rdByte b u.mem = rdByte b s.mem) ∧
    (∀ a p q old v cmp, count = 1 → ifld w 75 72 = 0 → ifld w 87 80 = 0xFF → a = flatAddr dst 4 row → old = rdNat a 4 s.mem →
      p = flatAddr src 4 0 → q = flatAddr src 4 1 → v = rdNat (if aop = 3 then q else p) 4 s.mem → cmp = rdNat p 4 s.mem →
      (aop = 0 → rdNat a 4 u.mem = (old + v) % 2 ^ 32) ∧
      (aop = 1 → rdNat a 4 u.mem = if sint 4 v < sint 4 old then v else old) ∧
      (aop = 2 → rdNat a 4 u.mem = if sint 4 old < sint 4 v then v else old) ∧
      (aop = 3 → rdNat a 4 u.mem = if old = cmp then v else old) ∧
      (aop = 4 → rdNat a 4 u.mem = v)))

/-- R211 to R215, R276, R277, R286: BATCH_OPEN, where the batcher may open one more batch, opens its stream with no row of its own, behind the
batches that no operation has taken, BATCH_END marks it ended and closes what waits in it, GATHER waits
for its rows; a row that arrives joins its stream, and the sixteenth closes a batch; an index beyond the source is dropped and counted; an
expired deadline closes the rows that wait.
Where the spec leaves a point open, the statement follows the model's choices of log entries 46, 73, 210. -/
def Obligations.FillBatcher : Prop := ∀ (s : State) (t : Nat) (c : Ctx) (ws : List (Nat × Nat)) (j : Job) (x : JobTile) (w : W128),
  x.streams.length = 4 →
  (∀ old, Issues s t c 0 3 j x w → (∀ e ∈ x.fetcher, e.left = 0) → x.mayOpen (ifld w 87 86) = true →
    x.streams[ifld w 87 86]? = some old → Answers (.batchOpen t c ws) s fun u =>
    u = { s with jobs := u.jobs } ∧ OnlyTile s u j t ∧ TileNow u j t fun y => EntersQueue .fetcher x w y ∧
      (∀ i, i ≠ ifld w 87 86 → y.streams[i]? = x.streams[i]?) ∧
      ∃ closed, y.streams[ifld w 87 86]? = some (some ⟨bit w.toNat 85, ifld w 103 88, [], closed, 0, none⟩) ∧
        (old = none → closed = []) ∧
        ∀ q, old = some q → closed = q.closed ++ if q.rows = [] then [] else [q.rows]) ∧
  (∀ q, Issues s t c 0 4 j x w → (∀ e ∈ x.fetcher, e.left = 0) → x.arrays = [] → NoOpWaits t s → x.streams[ifld w 87 86]? = some (some q) →
    q.keyed = false → Answers (.batchEnd t c ws) s fun u =>
      u = { s with jobs := u.jobs } ∧ OnlyTile s u j t ∧ TileNow u j t fun y => EntersQueue .fetcher x w y ∧
        ∃ p, y.streams[ifld w 87 86]? = some (some p) ∧ p.ended.isSome = true ∧ p.rows = [] ∧
          p.closed = q.closed ++ (if q.rows = [] then [] else [q.rows])) ∧
  (Issues s t c 0 2 j x w → Answers (.gather t c ws) s fun u =>
    u = { s with jobs := u.jobs } ∧ OnlyTile s u j t ∧ TileNow u j t fun y => EntersQueue .fetcher x w y ∧ y.streams = x.streams ∧
      ∃ e, y.fetcher = x.fetcher ++ [e] ∧ e.left = ifld w 59 44) ∧
  (∀ i q, runOn t c s = some (j, x) → jobOf j.part j.num s = some j → x.arrays = [] → NoOpWaits t s → x.streams[i]? = some (some q) →
    q.keyed = false → q.rows ≠ [] → Answers (.fillDeadlineExpiry t c i) s fun u =>
      u = { s with jobs := u.jobs } ∧ OnlyTile s u j t ∧ TileNow u j t fun y =>
        y = { x with streams := y.streams } ∧ y.streams[i]? = some (some { q with closed := q.closed ++ [q.rows], rows := [] })) ∧
  (∀ e rest st q src idx r l p, runOn t c s = some (j, x) → jobOf j.part j.num s = some j → x.arrays = [] → NoOpWaits t s → x.fetcher = e :: rest →
    (∀ d ∈ rest, d.left = 0) → e.left ≠ 0 → iclass e.word = 0 → iop e.word = 2 → batchedRows x < 64 → st = ifld e.word 43 42 →
    x.streams[st]? = some (some q) → q.keyed = false → src = x.desc (ifld e.word 103 96) → idx = x.desc (ifld e.word 95 88) →
    (l, p) = flatPlace idx ((ifld e.word 79 60 + e.x) % 2 ^ 20 + (ifld e.word 59 44 - e.left)) →
    checkReads j t [idx.span l p 1] s = none → r = rdElem idx l p s.mem →
    (src.rows ≤ r → Answers (.batchRowArrival t c .fetcher) s fun u => u = { s with jobs := u.jobs } ∧ TileNow u j t fun y =>
      y.streams = x.streams ∧ y.fetcher = { e with left := e.left - 1 } :: rest ∧
      y.extra.dropped = min (x.extra.dropped + 1) 0xFFFFFFFF) ∧
    (r < src.rows → ifld e.word 87 80 = 0xFF → checkReads j t (src.spans r 0 src.lineLen) s = none →
      Answers (.batchRowArrival t c .fetcher) s fun u => u = { s with jobs := u.jobs } ∧ TileNow u j t fun y =>
        y.fetcher = { e with left := e.left - 1 } :: rest ∧ y.extra.dropped = x.extra.dropped ∧
        ∃ b q', b.row = r ∧ b.a = some (rdLine src r 0 src.lineLen s.mem) ∧ y.streams[st]? = some (some q') ∧
          (q.rows.length < 15 → q'.rows = q.rows ++ [b] ∧ q'.closed = q.closed) ∧
          (q.rows.length = 15 → q'.rows = [] ∧ q'.closed = q.closed ++ [q.rows ++ [b]])))

/-- R203 to R209, R216, R227, R274, R275, R554, R555: a MAC enters the arrays' queue, and with its operands in memory and a free datapath its
accumulators are those of its cells, each over its row and its column; at its end the accumulators are kept, and with no operation to
follow the arrays of its datapath spin, or stop when SPINNER_WINDOW is 0; without an epilogue no memory changes. R207, R224, R239, R275: with an epilogue that stores the accumulators in FP32, each element of the block in the destination holds its
accumulator, and no byte outside the block's elements changes.
Where the spec leaves a point open, the statement follows the model's choices of log entries 46, 48, 71, 75, 76, 77, 78, 87, 231. -/
def Obligations.ArraysAndEpilogue : Prop :=
  (
  ∀ (s : State) (t : Nat) (c : Ctx) (ws : List (Nat × Nat)) (j : Job) (x : JobTile),
  (∀ w f core, Issues s t c 1 0 j x w → f = macFields w → x.arrays = [] → f.batch = 0 → f.cont = false →
    NoOpWaits t s → tileBusy t s = false → mayRead j x (macRanges f x) s = true →
    freeDatapath (if Config.gradeF then positionOf t else positionOf (16 * (t / 16))) s = some core →
    checkReads j t (macRanges f x) s = none → Answers (.mac t c ws) s fun u =>
      (TileNow u j t fun y => EntersQueue .arrays x w y ∧ ∃ e a, y.arrays = [e] ∧ e.acc = some a ∧ e.ended = false ∧ e.core = core ∧
        a.nrows = (if f.shared then 64 else 16) ∧ a.ncols = (if f.shared then 16 else 64) ∧
        a.int = ((x.desc f.descA).format == 0xA) ∧
        ∀ r n, r < a.nrows → n < a.ncols → a.vals[r * a.ncols + n]? = some
          (cell a.int (stepSize (x.desc f.descA).format (x.desc f.descB).sparse) 0
            (rdK true (x.desc f.descA) (f.aRow * a.nrows + r) f.kStart f.k s.mem)
            (bColumn f (x.desc f.descB) (f.bCol * a.ncols + n) s.mem)).1) ∧ u.mem = s.mem ∧ u.addq = s.addq) ∧
  (∀ e a f spun rotation operand drain bank limiter, runOn t c s = some (j, x) → jobOf j.part j.num s = some j → x.arrays = [e] →
    e.ended = false → e.acc = some a → arraysRun e s = true → NoOpWaits t s → f = macFields e.word → f.epi = 0xFF →
    Answers (.arrayOperationEnd t c spun rotation operand drain bank limiter) s fun u =>
      (TileNow u j t fun y => y.arrays = [{ e with ended := true }] ∧ y.acc = some a ∧ y.act.spinner = x.act.spinner + spun ∧
        y.act.rotation = x.act.rotation + (if Config.gradeF then 0 else rotation) ∧ y.act.operand = x.act.operand + operand ∧
        y.act.drain = min 0xFFFFFFFF (x.act.drain + (drain + (16 - e.cycles))) ∧ y.num = x.num ∧
        y.act.limiter = min 0xFFFFFFFF (x.act.limiter + limiterCycles e limiter (Config.freeValue s.free).toNat s)) ∧
      (opOn e.core u = none → ∀ i, i < (if f.shared ∧ emulatesOn (positionServed e.core s) e.core = true then 1 else 4) →
        arrayState e.core i u = if x.state = 4 ∨ (powerCfg s).spinnerWindow = 0 then 0 else 2) ∧ u.mem = s.mem ∧ u.addq = s.addq)) ∧
  (
  ∀ (s : State) (t : Nat) (c : Ctx) (j : Job) (x : JobTile) (e : Entry) (a : AccSet) (f : MacFields)
    (ep : Epi) (d : Desc) (wr : List (Nat × Nat)) (spun rotation operand drain bank limiter : Nat),
  runOn t c s = some (j, x) → jobOf j.part j.num s = some j → x.arrays = [e] → e.ended = false → e.acc = some a →
  arraysRun e s = true → NoOpWaits t s → f = macFields e.word → f.epi ≠ 0xFF → x.epi f.epi = some ep → ep.stages = 0x80 → ep.addWrite = false →
  ep.round ≠ 2 →
  a.int = false → a.ncols = f.ncols → a.rowIdx = (List.range f.nrows).map some → e.x = 0 → f.bCol < 2 ^ 16 →
  d = { x.desc ep.out with format := 0 } → d.kdim = false →
  wr = ((List.range f.nrows).map fun r => d.span (f.aRow * f.nrows + r) (f.bCol * f.ncols) f.ncols) →
  MayWrite j.part t wr s → Apart wr → s.faults.out = [] → Memory.wf s.mem = true →
  Answers (.arrayOperationEnd t c spun rotation operand drain bank limiter) s fun u =>
    (TileNow u j t fun y => y.arrays = [{ e with ended := true }] ∧ y.acc = some a) ∧
    (∀ b, Outside wr b → rdByte b u.mem = rdByte b s.mem) ∧
    (∀ r n, r < f.nrows → n < f.ncols →
      rdNat (d.lineAddr (f.aRow * f.nrows + r) + 4 * (f.bCol * f.ncols + n)) 4 u.mem =
        (convert 0 ep.round 0 ep.sat (ofF32 (a.vals.getD (r * f.ncols + n) 0))).code % 2 ^ 32))

/-- R216, R218: the arrays of a core's datapath. A spinning array whose window has passed stops, a held start is granted in ascending order.
Where the spec leaves a point open, the statement follows the model's choices of log entry 75. -/
def Obligations.SpinnersAndStagger : Prop := ∀ (s : State),
  (∀ core i, i < 4 → arrayState core i s = 2 → Answers (.spinnerWindowExpiry core i) s fun u =>
    arrayState core i u = 0 ∧ (∀ k, k ≠ 4 * core + i → lookup0 k u.dp.arrays = lookup0 k s.dp.arrays) ∧
    (tileOn core s = none → u.jobs = s.jobs) ∧
    (∀ j x, tileOn core s = some (j, x) → jobOf j.part j.num s = some j → OnlyTile s u j x.tile ∧ TileNow u j x.tile fun y =>
      y = { x with act := { x.act with spinner := x.act.spinner + (powerCfg s).spinnerWindow } }) ∧
    u = { s with dp := u.dp, jobs := u.jobs }) ∧
  (∀ g i cycles, i < 64 → lookup0 (64 * g + i) s.dp.arrays = 3 → (∀ k, k < i → lookup0 (64 * g + k) s.dp.arrays ≠ 3) →
    Answers (.arrayStartStagger g cycles) s fun u =>
      lookup0 (64 * g + i) u.dp.arrays = 1 ∧ (∀ k, k ≠ 64 * g + i → lookup0 k u.dp.arrays = lookup0 k s.dp.arrays) ∧
      (∀ j x, tileOn (16 * g + i / 4) s = some (j, x) → jobOf j.part j.num s = some j → TileNow u j x.tile fun y =>
        y = { x with act := { x.act with stagger := min 0xFFFFFFFF (x.act.stagger + cycles) } }) ∧
      u = { s with dp := u.dp, jobs := u.jobs })

/-- The columns that a row of a VEC writes (R278). -/
def vecCols (op : Nat) (f : VecFields) : Nat := if op = 1 then 1 else f.cols

/-- R225, R278, R279: ELEM, REDUCE, CONVERT and RAND enter the vector unit's queue and write no byte outside their destination rows; with
a destination of whole-byte elements and one row whose elements overlap no other, each element holds its function's value converted to
the destination's format with the epilogue entry's rounding. R380, R381: TOPK enters the vector unit's queue and writes no byte outside its destination rows; for one row of u32 words it writes
the columns it selects, with their offset, and then their values.
Where the spec leaves a point open, the statement follows the model's choices of log entries 46, 47, 56, 57, 58, 59, 60, 79, 225. -/
def Obligations.VectorAndTopk : Prop :=
  (
  ∀ (s : State) (t : Nat) (c : Ctx) (ws : List (Nat × Nat)) (j : Job) (x : JobTile) (w : W128)
    (f : VecFields) (e : Epi) (d : Desc) (op : Nat) (cmd : Instr) (wr : List (Nat × Nat)),
  (cmd, op) ∈ [(Instr.elem t c ws, 0), (Instr.reduce t c ws, 1), (Instr.convert t c ws, 2), (Instr.rand t c ws, 3)] →
  Issues s t c 2 op j x w → f = vecFields x w → e = (x.epi f.epi).getD Epi.none → d = x.desc f.dst →
  wr = ((List.range f.rows).flatMap fun i => rowRanges d (f.row + i) (vecCols op f)) →
  checkReads j t (vecReads op f x) s = none → mayRead j x (vecReads op f x) s = true → MayWrite j.part t wr s → In48 wr → s.faults.out = [] → Memory.wf s.mem = true →
  Answers cmd s fun u =>
    (TileNow u j t fun y => EntersQueue .vector x w y) ∧ (∀ b, Outside wr b → rdByte b u.mem = rdByte b s.mem) ∧
    (f.rows = 1 → isMx d.format = false → elemBits d.format % 8 = 0 → 0 < elemBits d.format → d.kdim = false → Apart wr →
      (op = 0 → f.b ≠ 0xFF ∨ 0x10 ≤ f.func) → (op = 1 → f.cols ≤ 4096) →
      ∀ n, n < vecCols op f → rdNat (d.lineAddr f.row + n * (elemBits d.format / 8)) (elemBits d.format / 8) u.mem =
        (convert d.format e.round (vecDraw j e t f.row n) e.sat ((vecRow op f x j e 0 s.mem f.row).getD n (.fin false 0 0))).code
          % 2 ^ elemBits d.format)) ∧
  (
  ∀ (s : State) (t : Nat) (c : Ctx) (ws : List (Nat × Nat)) (j : Job) (x : JobTile) (w : W128)
    (f : VecFields) (d : Desc) (wr : List (Nat × Nat)), Issues s t c 2 4 j x w → f = vecFields x w → d = x.desc f.dst →
  d.format = 0xB →
  wr = ((List.range f.rows).flatMap fun i => rowRanges d (f.row + i) (2 * f.func)) →
  checkReads j t (topkReads f x) s = none → mayRead j x (topkReads f x) s = true → checkWrites j.part t wr s = none → s.faults.out = [] → Memory.wf s.mem = true →
  Answers (.topk t c ws) s fun u =>
    (TileNow u j t fun y => EntersQueue .vector x w y) ∧ (∀ b, Outside wr b → rdByte b u.mem = rdByte b s.mem) ∧
    (∀ vals keys, f.rows = 1 → d.kdim = false → Apart wr → f.b = 0xFF → (x.desc f.a).kdim = false → f.func ≤ f.cols →
      vals = (List.range f.cols).map (fun n => rdElem (x.desc f.a) f.row n s.mem) → keys = rankColumns vals →
      ∀ i, i < f.func → rdNat (d.lineAddr f.row + 4 * i) 4 u.mem = keys.getD i 0 % 2 ^ 32 ∧
        rdNat (d.lineAddr f.row + 4 * (f.func + i)) 4 u.mem = canonF32 (vals.getD (keys.getD i 0) 0) % 2 ^ 32))


/-! ### The Jacks engines (11) -/

/-- A ROUTE instruction of SIDE `side` on a descriptor of KIND `kind` issues while the engines hold no request of its job and test nothing
(R280, R390, R394). -/
def RouteIssues (s : State) (t : Nat) (c : Ctx) (op side kind : Nat) (j : Job) (x : JobTile) (w : W128) : Prop :=
  Issues s t c 3 op j x w ∧ ifld w 103 102 = side ∧ dKind (j.jdesc (ifld w 101 88)) = kind ∧ j.route.reqs = [] ∧ s.faults.tests = [] ∧
  ∀ e ∈ x.jacks, e.id ≠ j.route.nextId

/-- What the engines hold of job `j` after a command, with `P`. -/
def RouteNow (u : State) (j : Job) (P : RouteRun → Prop) : Prop := ∃ j', jobOf j.part j.num u = some j' ∧ P j'.route

/-- R280, R286: the instruction enters the engine's queue; with `wait` its request is held, else it is done and its string may be
posted. -/
def RequestMade (wait : Bool) (u : State) (j : Job) (t : Nat) (x : JobTile) (w : W128) (s : State) : Prop :=
  (TileNow u j t fun y => EntersQueue .jacks x w y ∧ ∃ e, y.jacks = x.jacks ++ [e] ∧ e.left = if wait then 1 else 0) ∧
  RouteNow u j fun r => (wait = false → r.reqs = []) ∧ (wait = true → ∃ q, r.reqs = [q] ∧ q.tile = t ∧ q.word = w ∧ q.admitted = true ∧
    q.row = (ifld w 69 50 + x.xval w) % 2 ^ 20 ∧ q.since = s.cwk.now)

/-- Nothing holds the accesses of tile `x`: a bridge credit of its die is free, every MAC that it has issued has ended, no unit is under test
(R220, R292, R530). -/
def NothingHeld (x : JobTile) (s : State) : Prop :=
  bridgeRoom 0 (x.tile / 512) s = true ∧ (∀ e ∈ x.arrays, e.ended = true) ∧ s.faults.tests = []

/-- R395, R397, R404: a DISPATCH SEND of part of a micro-batch takes its slot and its map bits and covers its tokens; a GRAD_TO_EXPERT
SEND of a micro-batch whose kept choices are all on other members takes gradient map bits and asks each of them once. R388, R389, R401, R404: the first RECEIVE or FEED of a use stands in line and takes the lowest frame; a forward use then waits for its
counts, a gradient use knows its rows from the occupancy array.
Where the spec leaves a point open, the statement follows the model's choices of log entries 121, 123, 124. -/
def Obligations.RoutingUses : Prop :=
  (
  ∀ (s : State) (t : Nat) (c : Ctx) (ws : List (Nat × Nat)) (j : Job) (x : JobTile) (w : W128)
    (d : List W64) (di micro row rows : Nat), di = ifld w 101 88 → d = j.jdesc di → micro = ifld w 77 70 →
  row = (ifld w 69 50 + x.xval w) % 2 ^ 20 → rows = ifld w 49 34 → mapBitsUsed (t / 512) s + dTokens d * dK d ≤ 2097152 →
  j.bitsAhead (t / 512) j.route.nextId = false →
  (RouteIssues s t c 0 0 0 j x w → j.route.tuses = [] → rows < dTokens d → Answers (.dispatchSend t c ws) s fun u =>
    RequestMade true u j t x w s ∧ (RouteNow u j fun r => ∃ v, r.tuses = [v] ∧ v.desc = di ∧ v.micro = micro ∧ v.fwdMap = true ∧
      v.covered = [(row, rows)] ∧ v.counted = none) ∧ u = { leaveLine t c s with jobs := u.jobs }) ∧
  (∀ v m, RouteIssues s t c 2 0 0 j x w → m = j.rmap (dMap d) → j.route.tuses = [v] → v.desc = di → v.micro = micro → v.gradMap = false →
    v.asked = [] → v.ready = [] → v.gradCovered = [] → selfOf m s ∉ keptMembers d micro s →
    (∃ q ∈ choicesOf d row rows, (rdRecord d micro q.1 q.2 s).testBit 62 = false) → s.poison = [] → s.faults.out = [] →
    Answers (.gradToExpertSend t c ws) s fun u =>
      RequestMade true u j t x w s ∧ (RouteNow u j fun r => ∃ v', r.tuses = [v'] ∧ v'.gradMap = true ∧ v'.gradCovered = [(row, rows)] ∧
        v'.asked = keptMembers d micro s ∧ v'.ready = []) ∧ u.mem = s.mem)) ∧
  (
  ∀ (s : State) (t : Nat) (c : Ctx) (ws : List (Nat × Nat)) (j : Job) (x : JobTile) (w : W128)
    (d : List W64) (q micro mi : Nat), d = j.jdesc (ifld w 101 88) → q = dQueue d → micro = ifld w 77 70 →
  j.mapOf (qLayer (j.rqueue q)) = some mi → 1 ≤ qFrames (j.rqueue q) → mapBitsUsed (t / 512) s + j.capacity q ≤ 2097152 →
  j.route.quses = [] → j.route.counts = [] → j.route.gradReqs = [] → groupOf (j.rmap mi) ≠ [] → 1 ≤ ifld w 49 34 →
  (∀ cmd side, (cmd, side) ∈ [(Instr.dispatchReceive t c ws, 1), (Instr.dispatchFeed t c ws, 2)] → RouteIssues s t c 0 side 1 j x w →
    Answers cmd s fun u =>
      RequestMade true u j t x w s ∧ (RouteNow u j fun r => ∃ v, r.quses = [v] ∧ v.queue = q ∧ v.grad = false ∧ v.micro = micro ∧
        v.frame = some 0 ∧ v.used = none ∧ v.arrived = 0 ∧ v.freed = false) ∧ u = { leaveLine t c s with jobs := u.jobs }) ∧
  (∀ cmd side n, (cmd, side) ∈ [(Instr.gradToExpertReceive t c ws, 1), (Instr.gradToExpertFeed t c ws, 2)] →
    RouteIssues s t c 2 side 1 j x w → n = rdNat (qOcc (j.rqueue q) + 4 * micro) 4 s.mem → n = j.capacity q →
    s.poison = [] → s.faults.out = [] → (ifld w 69 50 + x.xval w) % 2 ^ 20 < n → Answers cmd s fun u =>
      RequestMade true u j t x w s ∧ (RouteNow u j fun r => ∃ v, r.quses = [v] ∧ v.queue = q ∧ v.grad = true ∧ v.micro = micro ∧
        v.frame = some 0 ∧ v.used = some n ∧ v.arrived = 0 ∧ v.freed = false) ∧ u.mem = s.mem))

/-- R389, R394, R403, R405, R410: a COMBINE or GRAD_RETURN SEND whose slots are all there is done, and each occupied slot whose token is on
another member leaves as one message; a COMBINE or GRAD_RETURN RECEIVE whose rows are all there is done; a RELEASE that is due is counted
at once. R419 to R421: an index copy of MODE 0 gives each block the source block that its index names, or zeros for an index out of range,
and writes no byte outside its blocks; MODEs 1 and 2 queue add-writes and write no memory themselves; each counts in its descriptor's
record.
Where the spec leaves a point open, the statement follows the model's choices of log entries 121, 123, 127. -/
def Obligations.SendsReleasesAndCopies : Prop :=
  (
  ∀ (s : State) (t : Nat) (c : Ctx) (ws : List (Nat × Nat)) (j : Job) (x : JobTile) (w : W128)
    (d : List W64) (di micro row rows : Nat), di = ifld w 101 88 → d = j.jdesc di → micro = ifld w 77 70 →
  row = (ifld w 69 50 + x.xval w) % 2 ^ 20 → rows = ifld w 49 34 → s.poison = [] → s.faults.out = [] →
  (∀ cmd op v n, (cmd, op) ∈ [(Instr.combineSend t c ws, 1), (Instr.gradReturnSend t c ws, 3)] → RouteIssues s t c op 0 1 j x w →
    j.quse (dQueue d) (op == 3) micro = some v → v.freed = false → v.used = some n →
    (∀ i, i < rows → n ≤ row + i ∨ v.arrived.testBit (row + i) = true) → Answers cmd s fun u =>
      RequestMade false u j t x w s ∧
      (∀ a src, rows = 1 → row < n → a = j.tagAddr (dQueue d) (j.areaBase (dQueue d) (v.frame.getD 0) v.grad s) row →
        src = bits (rdNat a 8 s.mem) 62 57 → src ≠ selfOf (j.rmap (dMap d)) s → (routeTo j.part src s).isSome = true →
        u.fab.nextStream = (s.fab.nextStream + 1) % 2 ^ 32)) ∧
  (∀ cmd op v, (cmd, op) ∈ [(Instr.combineReceive t c ws, 1), (Instr.gradReturnReceive t c ws, 3)] → RouteIssues s t c op 1 0 j x w →
    j.route.tuses = [v] → v.desc = di → v.micro = micro → (v.covered = [] ∨ choicesKnown j d v row rows = true) →
    (∀ q ∈ choicesOf d row rows, (if op = 3 then v.ret else v.combine).testBit (q.1 * dK d + q.2) = true) →
    coveredCount ((if op = 3 then v.retDone else v.combineDone) ++ [(row, rows)]) < dTokens d → Answers cmd s fun u =>
      RequestMade false u j t x w s ∧ (RouteNow u j fun r => ∃ v', r.tuses = [v'] ∧ v'.combine = v.combine ∧ v'.ret = v.ret ∧
        (if op = 3 then v'.retDone else v'.combineDone) = (if op = 3 then v.retDone else v.combineDone) ++ [(row, rows)]) ∧
      u = { leaveLine t c s with jobs := u.jobs }) ∧
  (∀ cmd op v, (cmd, op) ∈ [(Instr.dispatchRelease t c ws, 0), (Instr.gradToExpertRelease t c ws, 2)] → RouteIssues s t c op 3 1 j x w →
    j.route.quses = [v] → v.queue = dQueue d → v.grad = (op == 2) → v.micro = micro → v.freed = false →
    v.releases < qReleasers (j.rqueue (dQueue d)) → Answers cmd s fun u =>
      (TileNow u j t fun y => EntersQueue .jacks x w y ∧ ∃ e, y.jacks = x.jacks ++ [e] ∧ e.left = 0) ∧
      (RouteNow u j fun r => ∃ v', r.quses = [v'] ∧ v'.releases = v.releases + 1 ∧ v'.arrived = v.arrived ∧
        (v.releases + 1 < qReleasers (j.rqueue (dQueue d)) → v'.freed = false)) ∧ u = { leaveLine t c s with jobs := u.jobs })) ∧
  (
  ∀ (s : State) (t : Nat) (c : Ctx) (ws : List (Nat × Nat)) (j : Job) (x : JobTile) (w : W128)
    (d : List W64) (di micro row rows gb : Nat) (idx : Nat → Nat) (wr : List (Nat × Nat)), di = ifld w 101 88 → d = j.jdesc di →
  micro = ifld w 77 70 → row = (ifld w 69 50 + x.xval w) % 2 ^ 20 → rows = ifld w 49 34 → gb = dRowBytes d →
  idx = (fun i => rdNat (dAddr d 2 + micro * dTokens d + 4 * (row + i)) 4 s.mem) →
  wr = ((List.range rows).map fun i => (dAddr d 4 + (row + i) * gb, gb)) →
  Issues s t c 3 0 j x w → ifld w 103 102 = 0 → dKind d = 2 → NothingHeld x s → s.faults.out = [] → Memory.wf s.mem = true →
  (dMode d < 2 → ∀ i, i < rows → checkReads j t [(dAddr d 2 + micro * dTokens d + 4 * (row + i), 4)] s = none) →
  (dMode d = 0 → checkWrites j.part t wr s = none →
    (∀ i, i < rows → idx i < dLimit d → checkReads j t [(dAddr d 3 + idx i * gb, gb)] s = none) →
    Answers (.groupGather t c ws) s fun u =>
      (TileNow u j t fun y => EntersQueue .jacks x w y) ∧ (∀ b, Outside wr b → rdByte b u.mem = rdByte b s.mem) ∧
      (∀ i k, i < rows → k < gb → rdByte (dAddr d 4 + (row + i) * gb + k) u.mem =
        if idx i < dLimit d then rdByte (dAddr d 3 + idx i * gb + k) s.mem else 0) ∧ u.addq = s.addq ∧
      (RouteNow u j fun r =>
        (find0 {} di r.crecs).used = min 0xFFFFFFFF ((find0 {} di j.route.crecs).used +
          ((List.range rows).filter fun i => decide (idx i < dLimit d)).length) ∧
        (find0 {} di r.crecs).dropped = min 0xFFFFFFFF ((find0 {} di j.route.crecs).dropped +
          ((List.range rows).filter fun i => decide (dLimit d ≤ idx i)).length))) ∧
  (dMode d = 1 → (∀ i, i < rows → idx i < dLimit d → checkReads j t [(dAddr d 3 + (row + i) * gb, gb)] s = none ∧
      ∀ a, dAddr d 4 + idx i * gb ≤ a → a < dAddr d 4 + idx i * gb + gb → inside (a / 64 * 64) 64 (jobRange j.part s) = true) →
    Answers (.groupScatter t c ws) s fun u =>
      (TileNow u j t fun y => EntersQueue .jacks x w y) ∧ u.mem = s.mem ∧
      (∃ l, u.addq = s.addq ++ l ∧ ∀ q ∈ l, q.part = j.part ∧ q.int = false ∧ q.addr % 64 = 0) ∧
      (RouteNow u j fun r => (find0 {} di r.crecs).used = min 0xFFFFFFFF ((find0 {} di j.route.crecs).used +
        ((List.range rows).filter fun i => decide (idx i < dLimit d)).length))) ∧
  (dMode d = 2 → (∀ i, i < rows → checkReads j t [(dAddr d 3 + 16 * dLimit d * (row + i), 16 * dLimit d)] s = none ∧
      checkReads j t [(dAddr d 5 + (row + i) * (dLimit d / 2), (dLimit d + 1) / 2)] s = none) →
    (∀ a, dAddr d 4 + 8 * dLimit d * row ≤ a → a < dAddr d 4 + 8 * dLimit d * (row + rows) →
      inside (a / 64 * 64) 64 (jobRange j.part s) = true) →
    Answers (.sparsePack t c ws) s fun u =>
      (TileNow u j t fun y => EntersQueue .jacks x w y) ∧ u.mem = s.mem ∧
      (∃ l, u.addq = s.addq ++ l ∧ ∀ q ∈ l, q.part = j.part ∧ q.int = false ∧ q.addr % 64 = 0) ∧
      (RouteNow u j fun r => (find0 {} di r.crecs).used = min 0xFFFFFFFF ((find0 {} di j.route.crecs).used + rows))))

/-- A Jacks message with header word `h0` on a link reaches job `j`, whose engines hold no request (R396). -/
def JacksArrives (s : State) (link : Nat) (h0 : W64) (j : Job) (mi micro src : Nat) : Prop :=
  partOfLink link s = some j.part ∧ s.jobs.find? (fun k => k.part == j.part && k.running && (k.run.map Run.filler) == some false) = some j ∧
  jobOf j.part j.num s = some j ∧ j.mapOf (fld h0 53 44) = some mi ∧ j.serves (fld h0 53 44) = true ∧ micro = fld h0 43 36 ∧
  src = fld h0 59 54 ∧ j.route.reqs = []

/-- R396 to R399: the first COUNT of a member waits until every member's is there; the first GRANT of a member is kept, and the record of
the one choice of a use of one token says where its row goes, or that it was dropped; a second COUNT or GRANT of that member changes no
memory and is counted as late. R388, R396, R400, R403 to R405: a dispatch or gradient row is written to its slot with its tag and marks the slot as arrived; a
combine or return row is written to its choice's place and marks it; a row of no known use changes no memory and is counted as late.
Where the spec leaves a point open, the statement follows the model's choices of log entries 122, 126. -/
def Obligations.CountGrantAndRows : Prop :=
  (
  ∀ (s : State) (link : Nat) (h0 h1 : W64) (data : List Byte) (j : Job) (mi micro src : Nat),
  JacksArrives s link h0 j mi micro src → (groupOf (j.rmap mi)).contains src = true → j.part < s.parts.length →
  ((∀ q ∈ j.route.counts, q.layer = mLayer (j.rmap mi) → q.micro = micro → q.src ≠ src) →
    (∃ g ∈ groupOf (j.rmap mi), g ≠ src ∧ ∀ q ∈ j.route.counts, q.layer = mLayer (j.rmap mi) → q.micro = micro → q.src ≠ g) →
    Answers (.count link h0 h1 data) s fun u =>
      (RouteNow u j fun r => r.counts = j.route.counts ++ [⟨mLayer (j.rmap mi), micro, src, bytesU32 data⟩]) ∧
      u = { s with jobs := u.jobs }) ∧
  ((∃ q ∈ j.route.counts, q.layer = mLayer (j.rmap mi) ∧ q.micro = micro ∧ q.src = src) → Answers (.count link h0 h1 data) s fun u =>
    (partOf j.part u).lateMessages = (partOf j.part s).lateMessages + 1 ∧ u.mem = s.mem ∧
    RouteNow u j fun r => r.counts = j.route.counts) ∧
  (∀ di d v e le t0 vals, j.tokenDesc (mLayer (j.rmap mi)) = some di → d = j.jdesc di → j.route.tuses = [v] → v.desc = di →
    v.micro = micro → v.counted = some t0 → v.grants = [] → vals = pairsOf (bytesU32 data) → dTokens d = 1 → dK d = 1 →
    v.choices = [e] → j.expertsOn mi src = [(e, le)] → src ≠ selfOf (j.rmap mi) s → s.poison = [] → s.faults.out = [] → Memory.wf s.mem = true →
    Answers (.grant link h0 h1 data) s fun u =>
      (RouteNow u j fun r => ∃ v', r.tuses = [v'] ∧ v'.grants = [(src, vals)] ∧ v'.choices = [e]) ∧
      rdRecord d micro 0 0 u = (if 0 < (vals.getD 0 (0, 0)).2 then routeRecord false false src le (vals.getD 0 (0, 0)).1
        else routeRecord true false src le 0) ∧
      (∀ b, (b < recordAddr d micro 0 0 ∨ recordAddr d micro 0 0 + 8 ≤ b) → rdByte b u.mem = rdByte b s.mem))) ∧
  (
  ∀ (s : State) (link : Nat) (h0 h1 : W64) (row : List Byte) (j : Job) (mi micro src : Nat),
  JacksArrives s link h0 j mi micro src → j.part < s.parts.length → s.faults.out = [] → Memory.wf s.mem = true →
  (∀ cmd grad v n f q base slot, (cmd, grad) ∈ [(Instr.dispatchRow link h0 h1 row, false), (Instr.gradRow link h0 h1 row, true)] →
    q = j.queueOf mi (fld h0 35 27) → j.route.quses = [v] → v.queue = q → v.grad = grad → v.micro = micro → v.frame = some f →
    v.used = some n → v.freed = false → slot = fld h1 31 0 → slot < n → n ≤ j.capacity q → v.arrived.testBit slot = false →
    base = j.areaBase q f grad s → row.length = j.rowBytes (qLayer (j.rqueue q)) → Answers cmd s fun u =>
      (∀ i, i < row.length → some (rdByte (j.slotAddr q base slot + i) u.mem) = row[i]?) ∧
      rdNat (j.tagAddr q base slot) 8 u.mem = slotTag src (fld h0 26 24) (fld h1 50 32) ∧
      (∀ b, Outside [(j.slotAddr q base slot, row.length), (j.tagAddr q base slot, 8)] b → rdByte b u.mem = rdByte b s.mem) ∧
      (RouteNow u j fun r => ∃ v', r.quses = [v'] ∧ v'.arrived = v.arrived ||| 2 ^ slot) ∧ u.parts = s.parts) ∧
  (∀ cmd ret di d v b a, (cmd, ret) ∈ [(Instr.combineRow link h0 h1 row, false), (Instr.returnRow link h0 h1 row, true)] →
    j.tokenDesc (mLayer (j.rmap mi)) = some di → d = j.jdesc di → j.route.tuses = [v] → v.desc = di → v.micro = micro →
    fld h1 50 32 < dTokens d → fld h0 26 24 < dK d → b = fld h1 50 32 * dK d + fld h0 26 24 →
    (if ret then v.ret else v.combine).testBit b = false →
    a = dAddr d (if ret then 7 else 5) + (tokenPlace d micro (fld h1 50 32) * dK d + fld h0 26 24) * dRowBytes d →
    Answers cmd s fun u =>
      (∀ i, i < row.length → some (rdByte (a + i) u.mem) = row[i]?) ∧
      (∀ y, Outside [(a, row.length)] y → rdByte y u.mem = rdByte y s.mem) ∧
      (RouteNow u j fun r => ∃ v', r.tuses = [v'] ∧ (if ret then v'.ret else v'.combine) = (if ret then v.ret else v.combine) ||| 2 ^ b) ∧
      u.parts = s.parts) ∧
  (∀ cmd ∈ [Instr.dispatchRow link h0 h1 row, Instr.gradRow link h0 h1 row, Instr.combineRow link h0 h1 row, Instr.returnRow link h0 h1 row],
    j.route.quses = [] → j.route.tuses = [] → Answers cmd s fun u =>
      (partOf j.part u).lateMessages = (partOf j.part s).lateMessages + 1 ∧ u.mem = s.mem))

/-- R389, R401, R402, R404: a GRAD_REQUEST waits until every local queue of the layer has its gradient use; a GRAD_READY of a member that
was asked marks it ready; a use that waits takes the lowest frame that is free; the next row of a FEED joins its stream.
Where the spec leaves a point open, the statement follows the model's choices of log entries 122, 125. -/
def Obligations.GradientMessagesAndFeeds : Prop := ∀ (s : State) (j : Job) (mi micro : Nat),
  (∀ link h0 h1 src, JacksArrives s link h0 j mi micro src →
    ((groupOf (j.rmap mi)).contains src = true → (mLayer (j.rmap mi), micro, src) ∉ j.route.gradReqs →
      (∃ q ∈ j.localQueues mi s, j.quse q true micro = none) → Answers (.gradRequest link h0 h1) s fun u =>
        (RouteNow u j fun r => r.gradReqs = j.route.gradReqs ++ [(mLayer (j.rmap mi), micro, src)]) ∧ u = { s with jobs := u.jobs }) ∧
    (∀ di v, j.tokenDesc (mLayer (j.rmap mi)) = some di → j.route.tuses = [v] → v.desc = di → v.micro = micro → src ∈ v.asked →
      src ∉ v.ready → v.gradCovered = [] → Answers (.gradReady link h0 h1) s fun u =>
        (RouteNow u j fun r => r.tuses = [{ v with ready := v.ready ++ [src] }]) ∧ u = { s with jobs := u.jobs })) ∧
  (∀ q v, jobOf j.part j.num s = some j → j.route.reqs = [] → j.route.counts = [] → groupOf (j.rmap mi) ≠ [] →
    j.mapOf (qLayer (j.rqueue q)) = some mi → j.route.quses = [v] → v.queue = q → v.grad = false → v.micro = micro → v.frame = none →
    v.freed = false → 1 ≤ qFrames (j.rqueue q) → mapBitsUsed v.die s + j.capacity q ≤ 2097152 →
    Answers (.frameAcquired j.part j.num q false micro) s fun u =>
      (RouteNow u j fun r => r.quses = [{ v with frame := some 0 }]) ∧ u = { s with jobs := u.jobs }) ∧
  (∀ t c x r d v n q st, runOn t c s = some (j, x) → jobOf j.part j.num s = some j → j.route.reqs = [r] → r.tile = t → r.side = 2 →
    r.op = 0 → r.admitted = true → d = j.jdesc r.desc → dKind d = 1 → dKeys d = false → j.route.quses = [v] → v.queue = dQueue d →
    v.grad = false → v.micro = r.micro → v.used = some n → v.arrived.testBit (r.row + r.fed) = true → r.row + r.fed < n → r.fed + 1 < r.rows →
    r.row + r.fed + 1 < n → batchedRows x < 64 → x.arrays = [] → NoOpWaits t s → st = dStream d → x.streams[st]? = some (some q) → q.keyed = false →
    q.rows.length < 15 → s.faults.tests = [] → s.poison = [] → s.faults.out = [] → Answers (.batchRowArrival t c .jacks) s fun u =>
      (TileNow u j t fun y => ∃ q' b, y.streams[st]? = some (some q') ∧ q'.rows = q.rows ++ [b] ∧ q'.closed = q.closed ∧
        ∃ a, b.a = some a ∧ a.format = dFormat d) ∧
      (RouteNow u j fun y => y.reqs = [{ r with fed := r.fed + 1 }] ∧ y.quses = [v]) ∧ u = { s with jobs := u.jobs })

/-! ### The Domino engines and step commit (13) -/

/-- The Domino engines and the agent hold nothing of a job (R478, R510). -/
def CollIdle (j : Job) : Prop :=
  j.coll.runs = [] ∧ j.coll.early = [] ∧ j.coll.repairs = [] ∧ j.coll.asks = [] ∧ j.coll.retry = false

/-- A COLL instruction of OP `op` issues while the engines are idle and sound (R285, R478). -/
def CollIssues (s : State) (t : Nat) (c : Ctx) (op : Nat) (j : Job) (x : JobTile) (w : W128) (d : List W64) : Prop :=
  Issues s t c 4 op j x w ∧ d = j.cdesc (ifld w 103 88) ∧ cOp d = op ∧ CollIdle j ∧ (∀ k ∈ s.jobs, k.coll.runs = []) ∧
  s.faults.tests = [] ∧ s.faults.out = [] ∧ s.poison = [] ∧ Memory.wf s.mem = true ∧ (j.tiles.map JobTile.tile).Nodup ∧
  ∀ e ∈ x.domino, e.id ≠ j.coll.nextId

/-- The group of a descriptor has this module alone (R481). -/
def OneRank (j : Job) (d : List W64) : Prop := j.ranks (cGroup d) = 1 ∧ j.myRank (cGroup d) = 0

/-- R280: the instruction is in the queue of the Domino engines, and its request is done (`left` 0) or held (`left` 1). -/
def RequestIn (left : Nat) (u : State) (j : Job) (t : Nat) (x : JobTile) (w : W128) : Prop :=
  TileNow u j t fun y => EntersQueue .domino x w y ∧ ∃ e, y.domino = x.domino ++ [e] ∧ e.left = left

/-- What the engines and the agent hold of job `j` after a command, with `P`. -/
def CollNow (u : State) (j : Job) (P : CollRun → Prop) : Prop := ∃ j', jobOf j.part j.num u = some j' ∧ P j'.coll

/-- R478, R498: in a group of one rank BROADCAST and ALLGATHER copy SRC to DST, write nothing else, and are done. R518, R519: a PERMUTE of one move on its own rank that fits TEMP copies the bytes of FROM to TO and to TEMP, writes nothing else, and is
held until the round has ended; the end of its last round, with every piece landed, ends the request.
Where the spec leaves a point open, the statement follows the model's choices of log entries 147, 148. -/
def Obligations.DataCollectivesAndRounds : Prop :=
  (
  ∀ (s : State) (t : Nat) (c : Ctx) (ws : List (Nat × Nat)) (j : Job) (x : JobTile) (w : W128)
    (d : List W64) (cmd : Instr) (op : Nat), (cmd, op) ∈ [(Instr.broadcast t c ws, 2), (Instr.allgather t c ws, 3)] →
  CollIssues s t c op j x w d → OneRank j d → cRoot d = 0 → Apart [(cSrc d, cBytes d), (cDst d, cBytes d)] →
  checkReads j t [(cSrc d, cBytes d)] s = none → reach j.part t (cDst d) (cBytes d) s = none → Answers cmd s fun u =>
    RequestIn 0 u j t x w ∧ (CollNow u j fun r => r.runs = []) ∧
    (∀ i, i < cBytes d → rdByte (cDst d + i) u.mem = rdByte (cSrc d + i) s.mem) ∧
    (∀ b, Outside [(cDst d, cBytes d)] b → rdByte b u.mem = rdByte b s.mem)) ∧
  (
  ∀ (s : State) (j : Job) (d : List W64),
  (∀ (t : Nat) (c : Ctx) (ws : List (Nat × Nat)) (x : JobTile) (w : W128) (m : Move), CollIssues s t c 4 j x w d → OneRank j d →
    cBytes d = 32 → movesOf d s.mem = [m] → m.src = 0 → m.dst = 0 → 0 < m.len → m.len % 4096 = 0 → m.len ≤ j.tempBytes →
    Apart [(m.from', m.len), (m.to', m.len), (j.tempBase, j.tempBytes), (cSrc d, 32)] →
    checkReads j t [(cSrc d, 32)] s = none → reach j.part t j.tempBase j.tempBytes s = none → reach j.part t m.from' m.len s = none →
    reach j.part t m.to' m.len s = none → Answers (.permute t c ws) s fun u =>
      RequestIn 1 u j t x w ∧ (CollNow u j fun r => ∃ q, r.runs = [q] ∧ q.tile = t ∧ q.cdesc = ifld w 103 88 ∧ q.started = true ∧
        q.round = 0 ∧ q.landed = 0) ∧
      (∀ i, i < m.len → rdByte (m.to' + i) u.mem = rdByte (m.from' + i) s.mem) ∧
      (∀ b, Outside [(m.to', m.len), (j.tempBase, m.len)] b → rdByte b u.mem = rdByte b s.mem)) ∧
  (∀ (cd : Nat) (q : CRun) (x : JobTile) (rest : List Entry) (e : Entry), jobOf j.part j.num s = some j → d = j.cdesc cd → cOp d = 4 →
    (∀ k ∈ s.jobs, k.coll.runs = [] ∨ k = j) → s.faults.tests = [] → j.coll.runs = [q] → j.coll.early = [] → j.coll.repairs = [] →
    j.coll.asks = [] → j.coll.retry = false → q.cdesc = cd → q.started = true → q.units = [] →
    moveRounds j.tempBytes (movesOf d s.mem) ≤ q.round + 1 → q.landed = movesIn j.tempBytes (j.myRank (cGroup d)) (movesOf d s.mem) →
    j.tile q.tile = some x → x.domino = e :: rest → e.id = q.id → (∀ f ∈ rest, f.id ≠ q.id) →
    Answers (.permuteRoundEnd j.part j.num cd) s fun u =>
      (TileNow u j q.tile fun y => y = { x with domino := { e with left := 0 } :: rest }) ∧ (CollNow u j fun r => r.runs = []) ∧
      u = { s with jobs := u.jobs }))

/-- Element `i` of block `b` of a descriptor after an exact DX32 sum over one rank (R252, R491, R492). -/
def dxOneRank (j : Job) (b : Nat × Nat × Nat) (i : Nat) (m : Mem) : Nat :=
  if dxExponent (blockAcc j b m) = 0xFF then lF32.nan
  else dxDecode (dxScale (dxExponent (blockAcc j b m)))
    (i32 (dxEncode (dxScale (dxExponent (blockAcc j b m))) (rdNat (j.accAddr b.1 (b.2.1 + i)) 4 m) % (2 ^ 32 : Int)).toNat)

/-- R252, R373, R490 to R494, R499: in a group of one rank, REDUCE_FP32 leaves every accumulator word as it is, REDUCE_DX32 leaves each as
its DX32 word says, no other byte changes; their segments are HELD and count as landed, and the request is done. R352, R496, R497: in a group of one rank, NORM whose reductions have landed writes the root of the sum of squares and the step to the
optimiser table; COUNTS of one chunk moves its counts to the table's count array, zeroes them at SRC and writes the step; both are done.
Where the spec leaves a point open, the statement follows the model's choices of log entries 89, 90, 146, 147. -/
def Obligations.ReductionsNormAndCounts : Prop :=
  (
  ∀ (s : State) (t : Nat) (c : Ctx) (ws : List (Nat × Nat)) (j : Job) (x : JobTile) (w : W128)
    (d : List W64) (cmd : Instr) (op : Nat), (cmd, op) ∈ [(Instr.reduceDx32 t c ws, 0), (Instr.reduceFp32 t c ws, 1)] →
  CollIssues s t c op j x w d → OneRank j d → cAlgo d < 2 → s.addq = [] →
  (∀ k ∈ s.jobs, ∀ y ∈ k.tiles, ∀ e ∈ y.arrays, e.held = []) →
  (∀ g ∈ cSegs d, ∃ q, j.seg g = some q ∧ q.acc ≠ 2) →
  Apart ((cSegs d).map fun g => (j.accAddr g 0, 4 * ((j.seg g).map fun q => (segFields q.words).elements).getD 0)) → Answers cmd s fun u =>
    RequestIn 0 u j t x w ∧ (CollNow u j fun r => r.runs = [] ∧ ∀ g ∈ cSegs d, g ∈ r.landed) ∧
    (∃ j', jobOf j.part j.num u = some j' ∧ ∀ g ∈ cSegs d, ∃ q, j'.seg g = some q ∧ q.acc = 1) ∧
    (op = 1 → ∀ b, rdByte b u.mem = rdByte b s.mem) ∧
    (op = 0 → (∀ b ∈ j.blocks d, ∀ i, i < b.2.2 → rdNat (j.accAddr b.1 (b.2.1 + i)) 4 u.mem = dxOneRank j b i s.mem % 2 ^ 32) ∧
      ∀ a, (∀ b ∈ j.blocks d, Outside [(j.accAddr b.1 b.2.1, 4 * b.2.2)] a) → rdByte a u.mem = rdByte a s.mem)) ∧
  (
  ∀ (s : State) (t : Nat) (c : Ctx) (ws : List (Nat × Nat)) (j : Job) (x : JobTile) (w : W128)
    (d : List W64) (tb : OptTable), OneRank j d → j.table = some tb →
  (CollIssues s t c 5 j x w d → (∀ g ∈ cSegs d, g ∈ j.coll.landed) → Answers (.norm t c ws) s fun u =>
    RequestIn 0 u j t x w ∧ rdNat (tb.base + 28) 4 u.mem = f32Of64 (f64Sqrt (ownNorm j d s.mem)) % 2 ^ 32 ∧
    rdNat (tb.base + 16) 4 u.mem = j.step.toNat % 2 ^ 32 ∧
    (∀ b, Outside [(tb.base + 16, 4), (tb.base + 28, 4)] b → rdByte b u.mem = rdByte b s.mem)) ∧
  (∀ a, CollIssues s t c 6 j x w d → a = fld (heldWord j 1) 47 0 → 1 ≤ cBytes d → cBytes d ≤ 65536 → cBytes d % 4 = 0 →
    Apart [(a, cBytes d), (cSrc d, cBytes d), (tb.base, 64)] → checkReads j t [(cSrc d, cBytes d)] s = none →
    Answers (.counts t c ws) s fun u =>
      RequestIn 0 u j t x w ∧ (∀ i, i < cBytes d → rdByte (a + i) u.mem = rdByte (cSrc d + i) s.mem) ∧
      (∀ i, i < cBytes d → rdByte (cSrc d + i) u.mem = 0) ∧ rdNat (tb.base + 20) 4 u.mem = j.step.toNat % 2 ^ 32 ∧
      (∀ b, Outside [(a, cBytes d), (cSrc d, cBytes d), (tb.base + 20, 4)] b → rdByte b u.mem = rdByte b s.mem)))

/-- A decision of a job's step and round that the module holds now, queued in the engines for its count (R503, R506). -/
def DecisionHeld (u : State) (j : Job) (d : Decision) : Prop := ∃ j', jobOf j.part j.num u = some j' ∧
  j'.coll.decided = (d :: j.coll.decided).take 16 ∧ j'.coll.decision = some d ∧ j'.outcome = some ⟨d.count, d.kind⟩ ∧ j'.step = j.step

/-- A collective message of CTYPE `ct` about the step in progress reaches job `j` on a link (R485). -/
def CollArrives (s : State) (link : Nat) (h0 : W64) (ct : Nat) (j : Job) : Prop :=
  partOfLink link s = some j.part ∧ collJob j.part ct s = some j ∧ jobOf j.part j.num s = some j ∧ fld h0 63 60 = ct ∧
  fld h0 55 40 < j.cdescCount ∧ stepAge j h0 = 0 ∧ s.faults.tests = [] ∧ s.faults.out = [] ∧ s.poison = [] ∧ Memory.wf s.mem = true ∧
  (∀ k ∈ s.jobs, ∀ r, k.run = some r → r.started = true)

/-- A rank of a group lies in the pod and can be reached from the partition of a job. -/
def Reaches (j : Job) (g rank : Nat) (s : State) : Prop :=
  j.rankSeat g rank / 64 = seatOf s / 64 ∧ (routeTo j.part (j.rankSeat g rank % 64) s).isSome = true

/-- The engine of a descriptor sends the next message with a chunk at once (R495): none waits, and fewer than 64 are not free. -/
def SendsNow (j : Job) (cdesc : Nat) (s : State) : Prop :=
  s.fab.chunks = [] ∧ (s.fab.ahead.filter fun a => a.die == j.engineOf cdesc && isAhead s a).length < 64

/-- Exactly one message of a pod member has left. -/
def OneLeaves (s u : State) : Prop := u.fab.nextStream = (s.fab.nextStream + 1) % 2 ^ 32

/-- The engines hold exactly the request `r` of a job, for the descriptor that a message names. -/
def OnlyRun (j : Job) (h0 : W64) (r : CRun) : Prop :=
  j.coll.runs = [r] ∧ r.cdesc = fld h0 55 40 ∧ r.started = true ∧ j.coll.early = [] ∧ j.coll.repairs = [] ∧ j.coll.asks = [] ∧
  j.coll.retry = false

/-- R486 to R488, R491, R492: at a leaf of the tree of a REDUCE_DX32 of one chunk, the agreed exponents open its value pass, whose words leave
for the parent; the agreed words end its value pass and land. A child's partial at a node of a REDUCE_FP32 that waited for it alone is
combined, and the sum leaves for the parent. A DONE of an ATOMIC descriptor is noted. R495: with 64 messages of its engine not free, the sum waits in it.
Where the spec leaves a point open, the statement follows the model's choices of log entries 143, 229. -/
def Obligations.ReductionMessages : Prop := ∀ (s : State) (link : Nat) (h0 h1 : W64) (data : List Byte) (j : Job) (r : CRun)
    (d : List W64) (g p me : Nat), OnlyRun j h0 r → d = j.cdesc r.cdesc → g = cGroup d → p = j.ranks g → me = j.myRank g →
  (∀ es0 vals, CollArrives s link h0 0 j → cOp d = 0 → cAlgo d = 1 → j.chunks d = 1 → me % 2 = 1 → fld h1 63 52 = me - 1 →
    fld h1 38 19 = 0 → r.units = [{ pass := 0, chunk := 0, own := some es0, sent := true }, { pass := 1, chunk := 0 }] →
    vals = (data.map BitVec.toNat).take es0.length → Reaches j g (me - 1) s → SendsNow j r.cdesc s → Answers (.collExponent link h0 h1 data) s fun u =>
      (CollNow u j fun q => (∃ r', q.runs = [r'] ∧ r'.units =
          [{ pass := 0, chunk := 0, own := some es0, sent := true, result := some vals },
           { pass := 1, chunk := 0, own := some (ownWords j d 0 vals s.mem), sent := true }]) ∧
        q.nonfinite = (j.coll.nonfinite || vals.any (0xF2 ≤ ·))) ∧ OneLeaves s u ∧ u.mem = s.mem) ∧
  (∀ es v vals, CollArrives s link h0 1 j → cOp d = 0 → cAlgo d = 1 → j.chunks d = 1 → me % 2 = 1 → fld h1 63 52 = me - 1 →
    fld h1 38 19 = 0 → r.units = [{ pass := 0, chunk := 0, own := some es, sent := true, result := some es },
      { pass := 1, chunk := 0, own := some v, sent := true }] → vals = (bytesWords 4 data).take v.length → (∀ e ∈ es, e < 0xF2) →
    v.length = 32 * es.length → es.length = (j.blocks d).length → vals.length = v.length →
    Apart ((j.blocks d).map fun b => (j.accAddr b.1 b.2.1, 4 * b.2.2)) → Answers (.collValue link h0 h1 data) s fun u =>
      (CollNow u j fun q => q.runs = [] ∧ ∀ k ∈ cSegs d, k ∈ q.landed) ∧
      (∀ k b e i, (j.blocks d)[k]? = some b → es[k]? = some e → i < b.2.2 → rdNat (j.accAddr b.1 b.2.1 + 4 * i) 4 u.mem =
        dxDecode (dxScale e) (i32 (vals.getD (32 * k + i) 0)) % 2 ^ 32) ∧
      (∀ a, (∀ b ∈ j.blocks d, Outside [(j.accAddr b.1 b.2.1, 4 * b.2.2)] a) → rdByte a u.mem = rdByte a s.mem)) ∧
  (∀ v k vals, CollArrives s link h0 2 j → cOp d = 1 → cAlgo d = 1 → j.chunks d = 1 → me ≠ 0 → treeKids p me = [k] →
    fld h1 63 52 = k → fld h1 38 19 = 0 → r.units = [{ pass := 1, chunk := 0, own := some v }] → vals = (bytesWords 4 data).take v.length →
    Reaches j g (treeParent me) s → Answers (.collPartial link h0 h1 data) s fun u =>
      (CollNow u j fun q => ∃ r', q.runs = [r'] ∧
        r'.units = [{ pass := 1, chunk := 0, own := some v, parts := [(k, vals)], sent := true }]) ∧ u.mem = s.mem ∧
      (SendsNow j r.cdesc s → OneLeaves s u ∧ u.fab.chunks = []) ∧
      (s.fab.chunks = [] → 64 ≤ (s.fab.ahead.filter fun a => a.die == j.engineOf r.cdesc && isAhead s a).length →
        u.fab.nextStream = s.fab.nextStream ∧ u.fab.links = s.fab.links ∧ ∃ w : Chunk, u.fab.chunks = [w] ∧ w.seat = j.rankSeat g (treeParent me) ∧
          w.chunk = 0 ∧ w.data = wordBytes 4 (combineAll 1 1 v vals))) ∧
  (CollArrives s link h0 9 j → cOp d = 0 → cAlgo d = 2 → r.doneSent = true → r.dones.length + 1 < p → fld h1 63 52 ∉ r.dones →
    (∀ i, i < j.chunks d → i ∈ r.issued) → (∃ v ∈ r.units, v.pass ≠ 0) → (r.units.map fun v => (v.pass, v.chunk)).Nodup →
    (∀ v ∈ r.units, v.sent = true ∧ (v.pass = 0 → ∃ es, v.result = some es ∧ ∀ e ∈ es, e < 0xF2) ∧ (v.pass ≠ 0 → v.result = none)) →
    Answers (.collDone link h0 h1) s fun u =>
      (CollNow u j fun q => ∃ r', q.runs = [r'] ∧ r'.dones = fld h1 63 52 :: r.dones ∧ r'.units = r.units) ∧ u.mem = s.mem ∧
      u.fab = s.fab)

/-- R498, R510, R512: DATA of a BROADCAST lands at its chunk's place at the last rank of a ring, once; an answer to a digest request that agrees
proves its segment, one that differs has the segment restored from the next replica that was not asked; a REQUEST for accumulators that may be read
is answered at once, one for a segment that is RUNNING or RESTORING waits.
Where the spec leaves a point open, the statement follows the model's choices of log entries 144, 153, 229. -/
def Obligations.DataAndRepairMessages : Prop := ∀ (s : State) (link : Nat) (h0 h1 : W64) (data : List Byte) (j : Job),
  (∀ r d k n, OnlyRun j h0 r → CollArrives s link h0 3 j → d = j.cdesc r.cdesc → cOp d = 2 → cAlgo d = 0 →
    (j.myRank (cGroup d) + 1) % j.ranks (cGroup d) = cRoot d → k = fld h1 38 19 → k < j.chunks d → (cRoot d, k) ∉ r.arrived →
    r.units = [] → r.arrived.length + 1 < j.chunks d → n = min 65536 (cBytes d - 65536 * k) → data.length = n →
    Answers (.collData link h0 h1 data) s fun u =>
      (CollNow u j fun q => ∃ r', q.runs = [r'] ∧ r'.arrived = (cRoot d, k) :: r.arrived) ∧
      (∀ i, i < n → some (rdByte (cDst d + 65536 * k + i) u.mem) = data[i]?) ∧
      (∀ b, Outside [(cDst d + 65536 * k, n)] b → rdByte b u.mem = rdByte b s.mem) ∧ u.fab = s.fab) ∧
  (∀ w q seg g, CollArrives s link h0 8 j → w = toWords data → fld (w.getD 0 0) 63 60 = 1 → seg = fld (w.getD 0 0) 31 0 →
    j.seg seg = some g → j.coll.repairs = [q] → q.seg = seg → q.kind = 2 → q.asked = true → q.fails = 0 → j.coll.runs = [] →
    j.coll.early = [] → j.coll.asks = [] → j.coll.retry = false →
    (w.getD 1 0 = g.digest → Answers (.collDigest link h0 h1 data) s fun u =>
      (CollNow u j fun a => a.repairs = [] ∧ (seg, g.digest) ∈ a.proven ∧ seg ∈ a.redone) ∧ u.mem = s.mem ∧ u.fab = s.fab) ∧
    (w.getD 1 0 ≠ g.digest → q.k + 1 < (j.replicas seg).2.1 → g.upd = 0 → Answers (.collDigest link h0 h1 data) s fun u =>
      (CollNow u j fun a => ∃ b, a.repairs = [b] ∧ b.seg = seg ∧ b.kind = 1 ∧ b.k = q.k + 1 ∧ b.fails = 1 ∧ b.asked = true) ∧
      (∃ j' g', jobOf j.part j.num u = some j' ∧ j'.seg seg = some g' ∧ g'.upd = 5) ∧ u.mem = s.mem)) ∧
  (∀ w seg g, CollArrives s link h0 0xA j → CollIdle j → w = toWords data → fld (w.getD 0 0) 63 60 = 0 → seg = fld (w.getD 0 0) 31 0 →
    j.seg seg = some g →
    ((g.upd = 2 ∨ g.upd = 5) → Answers (.collRequest link h0 h1 data) s fun u =>
      (CollNow u j fun a => a.asks = [⟨0, seg, fld h1 63 52, fld h0 55 40⟩]) ∧ u = { s with jobs := u.jobs }) ∧
    (g.upd ≠ 2 → g.upd ≠ 5 → 1 ≤ (segFields g.words).elements → (segFields g.words).elements ≤ 16384 →
      Reaches j (cGroup (j.cdesc (j.replicas seg).1)) (fld h1 63 52) s → SendsNow j (j.replicas seg).1 s → Answers (.collRequest link h0 h1 data) s fun u =>
        (CollNow u j fun a => a.asks = []) ∧ OneLeaves s u ∧ u.mem = s.mem))

/-- R499 to R503: the VOTE of a group of one rank whose counter is LOCKED contributes and decides at once, COMMIT_LEAD_US ahead; VOTE is
done, and no byte of memory changes. R502 to R504, R506: a child's record waits at a node that has not contributed; the last one at a node that has sends the combined
record upward. A proposal is acknowledged; a decision whose count is to come is held and queued; the acknowledgement of the rank's own proposal
makes the decision. A query for a decision that is held is answered, another one waits.
Where the spec leaves a point open, the statement follows the model's choices of log entries 144, 145, 149, 150. -/
def Obligations.VotesAndDecisions : Prop :=
  (
  ∀ (s : State) (t : Nat) (c : Ctx) (ws : List (Nat × Nat)) (j : Job) (x : JobTile) (w : W128)
    (d : List W64) (rd : Nat), CollIssues s t c 7 j x w d → j.votePlace.1 = 1 → j.votePlace.2.1 = 0 → s.cwk.state = .locked →
  j.coll.vote = { round := rd } → j.coll.queries = [] → Answers (.vote t c ws) s fun u =>
    RequestIn 0 u j t x w ∧ u.mem = s.mem ∧ ∃ v : Decision, DecisionHeld u j v ∧ v.step = j.step ∧ v.round = rd ∧ v.missing = 0 ∧
      v.count = s.cwk.now + BitVec.ofNat 64 (j.leadUs * 1000) ∧
      v.outcome = if stepNonfinite j then 1 else if healthFailed j s then (if rd < j.retryLimit then 2 else 3) else 0) ∧
  (
  ∀ (s : State) (link : Nat) (h0 h1 : W64) (data : List Byte) (j : Job) (p me a rank round : Nat),
  CollIdle j → (p, me, a) = j.votePlace → rank = fld h1 63 52 → round = fld h0 59 56 →
  (CollArrives s link h0 4 j → round = j.coll.vote.round → j.coll.vote.sent = false → rank ∈ voteKids p a me → 2 ≤ me → 1 ≤ a →
    (∀ q ∈ j.coll.vote.kids, q.1 ≠ rank) →
    (j.coll.vote.own = none → Answers (.collVote link h0 h1 data) s fun u =>
      (CollNow u j fun c => c.vote = { j.coll.vote with kids := j.coll.vote.kids ++ [(rank, readVote (toWords data))] }) ∧
      u = { s with jobs := u.jobs }) ∧
    (∀ r0, j.coll.vote.own = some r0 → (∀ k ∈ voteKids p a me, k = rank ∨ ∃ q ∈ j.coll.vote.kids, q.1 = k) →
      Reaches j j.voteGroup ((me - 1) / a) s → Answers (.collVote link h0 h1 data) s fun u =>
        (CollNow u j fun c => c.vote.sent = true) ∧ OneLeaves s u ∧ u.mem = s.mem)) ∧
  (∀ d, CollArrives s link h0 5 j → j.coll.vote.round ≤ round → d = readDecision j.step (toWords data) → j.coll.decision = none →
    j.coll.applied = none → (∀ e ∈ j.coll.decided, e.step.toNat % 2 ^ 32 = fld h0 31 0 → e.round = round → e.count ≠ d.count) →
    (d.count = 0 → (me ≠ 0 ∨ j.coll.vote.proposed = none) → Reaches j j.voteGroup rank s → Answers (.collDecision link h0 h1 data) s fun u =>
      (CollNow u j fun c => c.vote = { j.coll.vote with proposed := none } ∧ c.decision = j.coll.decision) ∧ OneLeaves s u ∧
      u.mem = s.mem) ∧
    (s.cwk.now < d.count → Answers (.collDecision link h0 h1 data) s fun u => DecisionHeld u j d ∧ u.mem = s.mem ∧ u.cwk = s.cwk)) ∧
  (∀ d, CollArrives s link h0 6 j → j.coll.vote.proposed = some d → d.round = round → rank = 1 - me → Answers (.collDecisionAck link h0 h1) s
    fun u => DecisionHeld u j { d with count := s.cwk.now + BitVec.ofNat 64 (j.leadUs * 1000) } ∧ u.mem = s.mem ∧ u.cwk = s.cwk) ∧
  (CollArrives s link h0 7 j →
    (∀ d, j.held (fld h0 31 0) round = some d → j.decidedNow round = true → Reaches j j.voteGroup rank s →
      Answers (.collQuery link h0 h1) s fun u => (CollNow u j fun c => c.queries = j.coll.queries) ∧ OneLeaves s u ∧ u.mem = s.mem) ∧
    (j.held (fld h0 31 0) round = none → j.decidedNow round = false → j.coll.vote.round ≤ round → rank ∉ j.coll.queries → Answers (.collQuery link h0 h1) s fun u =>
      (CollNow u j fun c => c.queries = j.coll.queries ++ [rank]) ∧ u = { s with jobs := u.jobs })))

/-- R502 to R504, R507, R508, R373, R374: after VOTE_TIMEOUT_US rank 0 goes on without its missing children, counts them, and proposes while its counter is LOCKED; a
rank without a decision asks rank 0, then rank 1. At COMMIT_COUNT the outcome takes effect in every segment of deferred mode, of which those
with their scalars there run at once (R366, R372), and a COMMIT advances the step counter; then, with nothing to repair, the commit record is written and the next step curtain count is released.
Where the spec leaves a point open, the statement follows the model's choices of log entries 150, 151, 152, 155. -/
def Obligations.StepOutcome : Prop := ∀ (s : State) (j : Job), jobOf j.part j.num s = some j → CollIdle j →
  (∀ k ∈ s.jobs, k.coll.runs = []) → s.faults.tests = [] → s.faults.out = [] →
  (∀ a r0, j.votePlace.2 = (0, a) → 2 ≤ j.votePlace.1 → 1 ≤ a → s.cwk.state = .locked → j.coll.vote.own = some r0 → j.coll.vote.kids = [] →
    j.coll.vote.sent = false → j.coll.vote.combined = none → j.coll.vote.proposed = none → Answers (.voteTimeout j.part j.num) s fun u =>
      (CollNow u j fun c => c.vote.sent = true ∧ ∃ d, c.vote.proposed = some d ∧ d.count = 0 ∧ d.round = j.coll.vote.round ∧
        d.missing = r0.missing + ((voteKids j.votePlace.1 a 0).map fun k => subtree j.votePlace.1 a 13 k k).sum ∧
        d.outcome = if r0.nonfinite then 1 else if j.coll.vote.round < j.retryLimit then 2 else 3) ∧ u.mem = s.mem ∧ u.cwk = s.cwk) ∧
  (j.coll.vote.contributed ≠ none → j.coll.decision = none → j.coll.vote.queried < 2 →
    Answers (.decisionQueryTimeout j.part j.num) s fun u =>
      (CollNow u j fun c => c.vote.queried = j.coll.vote.queried + 1 ∧ c.decision = none) ∧
      (j.coll.vote.queried ≠ j.votePlace.2.1 → j.coll.vote.queried < j.votePlace.1 → Reaches j j.voteGroup j.coll.vote.queried s →
        OneLeaves s u) ∧ (j.coll.vote.queried = j.votePlace.2.1 → u.fab = s.fab) ∧ u.mem = s.mem) ∧
  (∀ o d, j.outcome = some o → j.coll.decision = some d → d.outcome < 2 → o.kind = d.outcome → s.wake.selfRefresh = false →
    s.cwk.now ≤ o.count → earlyMode j.part s = false → j.jsection = [] → (∀ g ∈ j.segs, g.copyDirty = false ∧ (d.outcome = 1 → g.upd ≠ 2)) →
    (∀ p ∈ allSpares s, p.2.deferred = false) → Answers (.commitCountReached j.part j.num) s fun u =>
      u.cwk = { s.cwk with now := o.count } ∧ u.mem = s.mem ∧ ∃ j', jobOf j.part j.num u = some j' ∧ j'.outcome = none ∧
        j'.step = j.step + (if d.outcome = 0 then 1 else 0) ∧
        (d.outcome = 1 → j'.segs = j.segs.map (skipSeg true)) ∧
        (d.outcome = 0 → j'.segs = j.segs.map fun g =>
          if (commitSeg false g).upd = 1 ∧ scalarsReady j (commitSeg false g) s = true
          then (commitSeg false g).running false (laneCount j.part s) else commitSeg false g) ∧
        j'.coll.applied = some ⟨d, o.count, false⟩ ∧ j'.coll.decision = none ∧ j'.coll.index = j.coll.index + 1 ∧
        j'.coll.vote = { round := 0 } ∧ j'.coll.landed = [] ∧ j'.coll.nonfinite = false) ∧
  (∀ a r at', j.coll.applied = some a → a.decision.outcome = 0 → j.run = some r → r.started = true → (∀ g ∈ j.segs, g.settled = true ∧
      (g.outcome = 3 ∨ g.outcome = 4 → (g.index, g.digest) ∈ j.coll.proven)) → (trainCfg j.part s).digestInterval = 0 →
    at' = j.commitRecords + 32 * (j.coll.index % 16) → inside at' 32 (stackRange j.part s) = true → Memory.wf s.mem = true →
    Answers (.stepCurtainRelease j.part j.num) s fun u =>
      BitVec.ofNat 64 (rdNat at' 8 u.mem) = a.decision.step ∧ BitVec.ofNat 64 (rdNat (at' + 8) 8 u.mem) = a.decision.count ∧
      BitVec.ofNat 64 (rdNat (at' + 16) 8 u.mem) = a.at' ∧ (∀ b, Outside [(at', 32)] b → rdByte b u.mem = rdByte b s.mem) ∧
      ∃ j', jobOf j.part j.num u = some j' ∧ j'.coll.applied = none ∧ j'.step = j.step ∧ ∃ r', j'.run = some r' ∧
        r'.stepCurtains = r.stepCurtains ++ [a.decision.count + BitVec.ofNat 64 (j.gapUs * 1000)])

/-! ### Serden engines, stack memory, faults (09, 10, 14) -/

/-- Segment `i` of job `j` after a command. -/
def SegNow (u : State) (j : Job) (i : Nat) (g : Segment) : Prop := ∃ j', jobOf j.part j.num u = some j' ∧ j'.seg i = some g

/-- An address outside the field area of a segment: outside its accumulators and every element of its arrays (R348, R349). -/
def OffFields (j : Job) (f : SegFields) (s : State) (b : Nat) : Prop :=
  Outside [(f.fieldBase, 4 * f.elements)] b ∧ ∀ a e, a < 10 → e < f.elements → Outside [fieldAt j.part f a e s] b

/-- Where the result record of segment `i` lies (R379). -/
def resultAt (j : Job) (i : Nat) : Nat := fld (heldWord j 4) 47 0 + 32 * i

/-- R374, R376: COMMIT_AT queues the outcome for its count; START_UPDATE of an IDLE segment with ACC HELD, REDO of a FAILED one in early mode
and RESTORE_BEGIN of an IDLE or FAILED one change its state; DIGEST answers with the digest of the slot; each command that finds its segment in
another state changes no segment and no memory. R371, R373, R376, R379: RESTORE_END of a RESTORING segment leaves it IDLE and OPEN with its accumulators at +0; REEMIT writes only the compute
copy, and for a segment of one element the rounded master; when the clear of a CLEARING segment is done its accumulators are +0 and it is OPEN.
Where the spec leaves a point open, the statement follows the model's choices of log entries 98, 115, 117. -/
def Obligations.SegmentsAndCopies : Prop :=
  (
  ∀ (s : State) (j : Job) (i : Nat) (g : Segment), jobOf j.part j.num s = some j → j.seg i = some g →
  (∀ n k, Answers (.commitAt j.part j.num n k) s fun u =>
    (∃ j', jobOf j.part j.num u = some j' ∧ j' = { j with outcome := some ⟨n, k % 3⟩ }) ∧ u = { s with jobs := u.jobs, gated := u.gated }) ∧
  (g.upd = 0 → g.acc = 1 → Answers (.startUpdate j.part j.num i) s fun u =>
    SegNow u j i { g with upd := 2, outcome := 0, lanesLeft := laneCount j.part s, copyDirty := g.copyDirty || earlyMode j.part s } ∧
    u = { s with jobs := u.jobs, gated := u.gated }) ∧
  (g.upd = 4 → earlyMode j.part s = true → Answers (.redo j.part j.num i) s fun u =>
    SegNow u j i { g with upd := 2, outcome := 3, reruns := min 63 (g.reruns + 1), lanesLeft := laneCount j.part s, copyDirty := true } ∧
    u = { s with jobs := u.jobs, gated := u.gated }) ∧
  ((g.upd = 0 ∨ g.upd = 4) → Answers (.restoreBegin j.part j.num i) s fun u =>
    SegNow u j i { g with upd := 5 } ∧ u = { s with jobs := u.jobs, gated := u.gated }) ∧
  (∀ slot, g.upd ≠ 2 → Answers (.digest j.part j.num i slot) s fun u =>
    u = { s with out := s.out ++ [.serden j.part j.num i (stateDigest j.part (segFields g.words) slot s)], gated := u.gated }) ∧
  (∀ cmd ok, (cmd, ok) ∈ [(Instr.startUpdate j.part j.num i, decide (g.upd = 0 ∧ g.acc = 1)),
      (Instr.redo j.part j.num i, decide (g.upd = 4 ∧ earlyMode j.part s = true)),
      (Instr.restoreBegin j.part j.num i, decide (g.upd = 0 ∨ g.upd = 4)), (Instr.restoreEnd j.part j.num i, decide (g.upd = 5)),
      (Instr.digest j.part j.num i false, decide (g.upd ≠ 2)), (Instr.reemit j.part j.num i, decide (g.upd = 0 ∨ g.upd = 3))] → ok = false →
    Answers cmd s fun u => u.jobs = s.jobs ∧ u.mem = s.mem ∧ u.gated = s.gated)) ∧
  (
  ∀ (s : State) (j : Job) (i : Nat) (g : Segment) (f : SegFields),
  jobOf j.part j.num s = some j → j.seg i = some g → f = segFields g.words →
  (g.upd = 5 → inside (resultAt j i) 32 (jobRange j.part s) = true → Memory.wf s.mem = true → Answers (.restoreEnd j.part j.num i) s fun u =>
    (∃ d, SegNow u j i { g with upd := 0, acc := 0, outcome := 4, digest := d, copyDirty := false }) ∧
    (∀ a, f.fieldBase ≤ a → a < f.fieldBase + 4 * f.elements → Outside [(resultAt j i, 32)] a → rdByte a u.mem = 0) ∧
    (∀ b, OffFields j f s b → Outside [(resultAt j i, 32)] b → rdByte b u.mem = rdByte b s.mem)) ∧
  ((g.upd = 0 ∨ g.upd = 3) → Memory.wf s.mem = true → Answers (.reemit j.part j.num i) s fun u =>
    SegNow u j i { g with copyDirty := false } ∧ u = { s with jobs := u.jobs, gated := u.gated, mem := u.mem, poison := u.poison } ∧
    (∀ b, (∀ e, e < f.elements → Outside [((fieldAt j.part f 1 e s).1, 2)] b) → rdByte b u.mem = rdByte b s.mem) ∧
    (f.elements = 1 → rdNat (fieldAt j.part f 1 0 s).1 2 u.mem =
      toBf16 f.copySr (laneDraw j f g.step 0 0) (readField j.part f (slotArray g.slot) 0 s) % 2 ^ 16)) ∧
  (g.acc = 2 → Answers (.accClearDone j.part j.num i) s fun u =>
    SegNow u j i { g with acc := 0 } ∧ u = { s with jobs := u.jobs, mem := u.mem, poison := u.poison } ∧
    ∀ a, rdByte a u.mem = if f.fieldBase ≤ a ∧ a < f.fieldBase + 4 * f.elements then 0 else rdByte a s.mem) ∧
  (g.acc ≠ 2 → Answers (.accClearDone j.part j.num i) s fun u => u = s))

/-- R344 to R347: the oldest add-write of a channel that no segment holds adds its words to its line, FP32 or INT32 as it says, and to nothing
else; add-writes for a segment that is not OPEN wait, and so does a lane under test; one for a poisoned line or a channel out of service changes
no memory. An engine without segment work is power-gated. R361 to R373, R375, R379: the end of the lanes of a RUNNING segment: a lane that
failed leaves it FAILED, and nothing outside its field area changed; without its scalars it goes on waiting; else its update is done: in early
mode it is WRITTEN, in deferred mode IDLE and OPEN; nothing outside its field area and its result record changes. For a segment of one element
with FP32 moments in early mode, the other slot holds the new element.
Where the spec leaves a point open, the statement follows the model's choices of log entries 78, 111, 114, 117, 215, 216, 228. -/
def Obligations.AddWritesAndUpdates : Prop :=
  (
  ∀ (s : State),
  (∀ ch, (∀ w ∈ s.addq, channelOf w.part w.addr s ≠ ch ∨ addHeld w.addr s = true) ∨ underTest (.lane ch) s = true →
    Answers (.addWrite ch) s fun u => u = s) ∧
  (∀ (ch : Nat) (w : AddWrite) (before rest : List AddWrite), s.addq = before ++ w :: rest →
    (∀ v ∈ before, channelOf v.part v.addr s ≠ ch ∨ addHeld v.addr s = true) → channelOf w.part w.addr s = ch → addHeld w.addr s = false →
    underTest (.lane ch) s = false → Memory.wf s.mem = true → (∀ j ∈ s.jobs, ∀ x ∈ j.tiles, ∀ e ∈ x.arrays, e.held = []) →
    (deadLine (w.addr / 64) s = true ∨ w.addr / 64 ∈ s.poison → Answers (.addWrite ch) s fun u =>
      u.addq = before ++ rest ∧ u.mem = s.mem ∧ u.jobs = s.jobs) ∧
    (deadLine (w.addr / 64) s = false → w.addr / 64 ∉ s.poison → Answers (.addWrite ch) s fun u =>
      u = { s with addq := before ++ rest, mem := u.mem } ∧ (∀ b, Outside [(w.addr, 64)] b → rdByte b u.mem = rdByte b s.mem) ∧
      ∀ i, i < 16 → rdNat (w.addr + 4 * i) 4 u.mem =
        if w.mask.testBit i then
          (if w.int then rdNat (w.addr + 4 * i) 4 s.mem + w.vals.getD i 0 else f32Add (rdNat (w.addr + 4 * i) 4 s.mem) (w.vals.getD i 0)) %
            2 ^ 32
        else rdNat (w.addr + 4 * i) 4 s.mem)) ∧
  (∀ e, e < 8 → engineWorks e s = false → 0x50 + e ∉ s.gated → Answers (.serdenPowerGate e) s fun u =>
    u = { s with gated := s.gated ++ [0x50 + e] })) ∧
  (
  ∀ (s : State) (j : Job) (i : Nat) (g : Segment) (f : SegFields), jobOf j.part j.num s = some j →
  j.seg i = some g → f = segFields g.words → g.upd = 2 → j.coll.startWait = false → g.index = i →
  (∀ lane, Memory.wf s.mem = true → Answers (.segmentUpdateDone j.part j.num i (some lane)) s fun u =>
    SegNow u j i { g with upd := 4 } ∧ ∀ b, OffFields j f s b → rdByte b u.mem = rdByte b s.mem) ∧
  (scalarsReady j g s = false → Answers (.segmentUpdateDone j.part j.num i none) s fun u => u = s) ∧
  (scalarsReady j g s = true → inside (resultAt j i) 32 (jobRange j.part s) = true → poisonedLane j.part f (updateReads (earlyMode j.part s) f g.slot (updateKind j f s)) s = none → s.faults.out = [] → g.flipPending = false →
    Memory.wf s.mem = true → Answers (.segmentUpdateDone j.part j.num i none) s fun u =>
      (∃ h, SegNow u j i h ∧ h.step = g.step ∧ h.clip = (clipOf (j.during g) s).1 ∧ h.provisional = (clipOf (j.during g) s).2 ∧ h.slot = g.slot ∧
        h.upd = (if earlyMode j.part s then 3 else 0) ∧ (earlyMode j.part s = false → h.acc = 0)) ∧
      (∀ b, OffFields j f s b → Outside [(resultAt j i, 32)] b → rdByte b u.mem = rdByte b s.mem) ∧
      (earlyMode j.part s = true → ∀ (t : OptTable) (k : Scalars) (y : Element) (h : Nat), j.table = some t → f.elements = 1 →
        untouched j f s = false → momentBf16 j.part s = false → h = slotArray (!g.slot) →
        k = scalars f (t.scheds.getD f.sched []) (t.points.getD f.sched []) g.step.toNat (clipOf (j.during g) s).1 (segCount j f s) →
        y = newElement f k g.step.toNat 0 (readField j.part f 0 0 s) (readElement j.part f g.slot 0 s) →
        Apart (((List.range 10).map fun a => ((fieldAt j.part f a 0 s).1, if a = 1 then 2 else 4)) ++ [(resultAt j i, 32)]) →
        rdNat (fieldAt j.part f h 0 s).1 4 u.mem = y.w % 2 ^ 32 ∧ rdNat (fieldAt j.part f (h + 1) 0 s).1 4 u.mem = y.m % 2 ^ 32 ∧
        rdNat (fieldAt j.part f (h + 2) 0 s).1 4 u.mem = y.v % 2 ^ 32 ∧ rdNat (fieldAt j.part f (h + 3) 0 s).1 4 u.mem = y.a % 2 ^ 32 ∧
        rdNat (fieldAt j.part f 1 0 s).1 2 u.mem = toBf16 f.copySr (laneDraw j f g.step 0 0) y.w % 2 ^ 16 ∧
        ∀ a, a < 10 → a ≠ 1 → (a < h ∨ h + 4 ≤ a) → rdNat (fieldAt j.part f a 0 s).1 4 u.mem = rdNat (fieldAt j.part f a 0 s).1 4 s.mem)))

/-- No operation of any tile waits in an array queue for its operands or its datapath. -/
def NoStartWaits (s : State) : Prop := ∀ j ∈ s.jobs, ∀ x ∈ j.tiles, ∀ e ∈ x.arrays, e.acc ≠ none ∨ e.ended = true

/-- R325 to R328, R529: scrub waits while an add-write waits for its channel; a clean scrub changes nothing; a corrected error below the limit
is counted for its channel; an uncorrectable line is poisoned and its channel tested; the end of a bank's copy frees the bank; none of them
changes memory or a job. R196, R528 to R531, R534: an error in a unit that is out of service or fused off has no effect; a check that fails in
a unit of a core holds the tile that the unit serves and starts its test; a test that passes, below the bucket's count, records a transient and
the tile goes on; while the units' clocks are gated no test ends.
Where the spec leaves a point open, the statement follows the model's choices of log entries 161, 162, 165, 168, 169. -/
def Obligations.ScrubErrorsAndTests : Prop :=
  (
  ∀ (s : State) (line n : Nat) (ch : Nat), partOfAddr (64 * line) s = some n →
  ch = channelOf n (64 * line) s →
  ((∃ q ∈ s.addq, q.part = n ∧ channelOf n q.addr s = ch) → ∀ f, Answers (.scrubAccess line f) s fun u => u = s) ∧
  ((∀ q ∈ s.addq, q.part ≠ n ∨ channelOf n q.addr s ≠ ch) → TestUnit.channel ch ∉ s.faults.out → s.faults.tests = [] →
  (Answers (.scrubAccess line .clean) s fun u => u = s) ∧
  (recent (.channel ch) 3600000000000 (pushTime (.channel ch) s.cwk.now s.faults.ce) s < (faultCfg s).channelCeLimit →
    Answers (.scrubAccess line .corrected) s fun u =>
      u.faults = { s.faults with ce := pushTime (.channel ch) s.cwk.now s.faults.ce } ∧ u.poison = s.poison ∧ u.mem = s.mem ∧ u.jobs = s.jobs) ∧
  (Answers (.scrubAccess line .uncorrectable) s fun u =>
    u.faults = { s.faults with tests := [⟨.channel ch, none, false⟩] } ∧ (∀ l, l ∈ u.poison ↔ l = line ∨ l ∈ s.poison) ∧ u.mem = s.mem ∧
    u.jobs = s.jobs)) ∧
  (∀ c p b, bankKey c p b ∈ s.faults.copying → Answers (.bankSpareCopyDone c p b) s fun u =>
    u.faults = { s.faults with copying := s.faults.copying.filter fun x => x != bankKey c p b } ∧ u.mem = s.mem ∧ u.jobs = s.jobs)) ∧
  (
  ∀ (s : State) (un : TestUnit) (tile c pos t : Nat), coreOfUnit un = some c → servedBy c s = some pos →
  t = (if Config.gradeF || storeUnit un then tileOfCore pos else tile) →
  (un ∈ s.faults.out ∨ (fusedOff c = true ∧ storeUnit un = false) → ∀ cls, Answers (.errorDetected un cls tile) s fun u => u = s) ∧
  (s.clk.gated = true → ∀ passed, Answers (.selfTestComplete un passed) s fun u => u = s) ∧
  (un ∉ s.faults.out → fusedOff c = false ∨ storeUnit un = true → TestUnit.core c ∉ s.faults.out → s.faults.tests = [] → Answers (.errorDetected un (.detected false) tile) s fun u =>
    u.faults = { s.faults with tests := [⟨un, some t, false⟩] } ∧ u.mem = s.mem ∧
    u.jobs = s.jobs.map (fun j => if j.running then j.onTile t JobTile.hold else j)) ∧
  (s.faults.tests = [⟨un, some t, false⟩] → s.clk.gated = false → NoStartWaits s → TestUnit.core c ∉ s.faults.suspects → s.faults.swaps = [] → positionOf t ∉ s.faults.lost → c % 528 < 512 →
    oldTransients un ((faultCfg s).bucketWindowS * 1000000000) s +
      recent (bucketOf un) ((faultCfg s).bucketWindowS * 1000000000) (pushTime (bucketOf un) s.cwk.now s.faults.buckets) s <
      (faultCfg s).bucketCount → Answers (.selfTestComplete un true) s fun u =>
      u.faults = { s.faults with tests := [], buckets := pushTime (bucketOf un) s.cwk.now s.faults.buckets } ∧ u.mem = s.mem ∧
      u.jobs = s.jobs.map (fun j => if j.running then j.onTile t JobTile.unhold else j)))

/-- R533, R537, R544: a datapath or store unit of a core that fails its test leaves service with its core, and the lowest free spare of the die takes
its position; when the spare has taken it, its count and held time are in SPARE_STATUS, the operations of the failed core go on there and the
tile goes on. The retest timer tests every unit out of service that has left fewer than three times, and every suspect unit; a core position
that passed joins the spare pool, but for one whose core logic is fused off (R196), and a spare core is free again.
Where the spec leaves a point open, the statement follows the model's choices of log entries 166, 167, 168. -/
def Obligations.SwapsAndRejoin : Prop := ∀ (s : State), s.faults.spares.length = 32 →
  (∀ (un : TestUnit) (c t sp : Nat), coreOfUnit un = some c → (∀ p ∈ allSpares s, p.1 ≠ c) → s.faults.tests = [⟨un, some t, false⟩] →
    deferredSpare c s = none → freeSpare (dieOfCore c) s = some sp → sp < 1056 → TestUnit.core c ∉ s.faults.out → c % 528 < 512 →
    s.clk.gated = false → NoStartWaits s → Answers (.selfTestComplete un false) s fun u =>
      u.faults.out = s.faults.out ++ [.core c] ∧ u.faults.tests = [] ∧
      u.faults.swaps = s.faults.swaps ++ [⟨c, sp, some t, if storeUnit un then .coreStore else .datapath⟩] ∧
      (∃ p, (sp, p) ∈ allSpares u ∧ p.state = 1 ∧ p.serves = c ∧ p.emulating = decide (c % 16 < 2)) ∧
      u.faults.lasting = min 0xFFFF (s.faults.lasting + 1) ∧ u.mem = s.mem) ∧
  (∀ (w : Swap) (t us : Nat) (go : Entry → Entry), s.faults.swaps = [w] → w.tile = some t → s.faults.tests = [] → positionOf t ∉ s.faults.lost →
    w.spare < 1056 → NoStartWaits s → (∀ j ∈ s.jobs, (j.tiles.map JobTile.tile).Nodup) →
    (∀ e, go e = if e.acc.isSome ∧ e.ended = false ∧ TestUnit.core e.core ∈ s.faults.out then { e with core := w.spare } else e) →
    Answers (.spareTakesPosition w.position us [] false) s fun u =>
      u.faults.swaps = [] ∧ u.mem = s.mem ∧
      (∀ p, (w.spare, p) ∈ allSpares s → (512 ≤ w.spare % 528 → ∀ q ∈ s.faults.extra, q.1 ≠ w.spare) →
        (w.spare, { p with swaps := min 0xFFFF (p.swaps + 1), heldUs := min 0xFFFF us }) ∈ allSpares u) ∧
      u.jobs = s.jobs.map (fun j => if j.running then j.onTile t (fun x => JobTile.unhold { x with arrays := x.arrays.map go }) else j)) ∧
  (Answers .unitRetestTimer s fun u =>
    u.faults.tests = s.faults.tests ++ ((s.faults.out.filter (fun v => leavesOf v s < 3) ++ s.faults.suspects).filter fun v =>
      !s.faults.passed.contains v && !s.faults.tests.any fun q => q.unit == v).map (fun v => ⟨v, none, true⟩) ∧
    u.faults.out = s.faults.out ∧ u.mem = s.mem ∧ u.jobs = s.jobs) ∧
  (∀ c, TestUnit.core c ∈ s.faults.passed → TestUnit.core c ∈ s.faults.out → Answers (.unitRejoin (.core c)) s fun u =>
    u.faults.passed = s.faults.passed.filter (fun v => v != .core c) ∧ u.faults.out = s.faults.out.filter (fun v => v != .core c) ∧
    u.faults.suspects = s.faults.suspects.filter (fun v => v != .core c) ∧
    (c % 528 < 512 → u.faults.extra = s.faults.extra ++ [(c, if fusedOff c then ({ state := 2 } : Spare) else ({} : Spare))] ∧ u.faults.spares = s.faults.spares) ∧
    (512 ≤ c % 528 → c < 1056 → (c, ({} : Spare)) ∈ allSpares u ∧ u.faults.extra = s.faults.extra) ∧ u.mem = s.mem ∧ u.jobs = s.jobs)

/-! ### The Dranto fabric (12) -/

/-- Link `k` after a command is `l`, and every other link, but for what may have been sent over it, is in its state. -/
def LinkNow (s u : State) (k : Nat) (l : Link) : Prop := linkOf k u = l ∧ ∀ i, i ≠ k → (linkOf i u).state = (linkOf i s).state

/-- Link `k` is DOWN, or trains again, with a cause: counted, and in no route (R468, R469). -/
def LinkDown (s u : State) (k cause : Nat) : Prop :=
  ((linkOf k u).state = 6 ∨ (linkOf k u).state = 1) ∧ (linkOf k u).cause = cause ∧
  (linkOf k u).downCount = min 0xFFFF ((linkOf k s).downCount + 1) ∧ inForce (linkOf k u) u = false ∧ u.mem = s.mem ∧ u.jobs = s.jobs

/-- Link `k` carries packet `p`: it waits for credit, or is in the retry buffer (R431, R435). -/
def Carries (u : State) (k : Nat) (p : Packet) : Prop :=
  p ∈ (linkOf k u).txq ∨ ∃ f ∈ (linkOf k u).retry, f.head = some p

/-- R54, R55, R426 to R429, R461: the stages of a Dranto-mode attempt one after another, its identity flit, its time-outs and the next attempt; an
Ethernet-mode link goes up with its MAC, and down with it into a new attempt.
Where the spec leaves a point open, the statement follows the model's choices of log entries 133, 214. -/
def Obligations.LinkTraining : Prop := ∀ (s : State) (k pair : Nat) (l : Link), l = linkOf k s → k < s.fab.links.length →
  ((linkCfg k s).mode = 1 → l.waiting = false →
    (l.stage = 1 → l.state = 1 → (pair = 0 ∨ (linkCfg k s).narrowAllowed = true) → Answers (.linkTrainStageDone k pair) s fun u =>
      LinkNow s u k { l with lanePair := pair, stage := 2 } ∧ u = { s with fab := u.fab }) ∧
    (l.stage = 2 → Answers (.linkTrainStageDone k pair) s fun u =>
      LinkNow s u k { l with stage := 3, state := 2 } ∧ u = { s with fab := u.fab, out := s.out ++
        [.identity k (seatOf s) k 1 (linkCfg k s).narrowAllowed (forwardEnable s) l.lanePair] }) ∧
    (l.stage = 3 → l.identified = false → Answers (.linkTrainStageDone k pair) s fun u => u = s) ∧
    (((l.stage = 3 ∧ l.identified = true) ∨ l.stage = 4) → l.state = 2 → Answers (.linkTrainStageDone k pair) s fun u =>
      LinkNow s u k { l with stage := l.stage + 1 } ∧ u = { s with fab := u.fab }) ∧
    (l.stage = 5 → s.cwk.state ≠ .locked → Answers (.linkTrainStageDone k pair) s fun u =>
      LinkNow s u k { l with stage := 0, state := 3 } ∧ u = { s with fab := u.fab }) ∧
    (l.stage = 3 → l.state = 2 → ∀ mode narrow forward, (linkCfg k s).role = 0 →
      (seatTwice k (linkCfg k s).peerSeat (linkCfg k s).peerLink s = false →
        Answers (.identityFlit k (linkCfg k s).peerSeat (linkCfg k s).peerLink mode narrow forward l.lanePair) s fun u =>
        LinkNow s u k { l with peerSeat := (linkCfg k s).peerSeat, peerLink := (linkCfg k s).peerLink, peerForward := forward,
                               identified := true } ∧ u = { s with fab := u.fab }) ∧
      (∀ seat peer, seat ≠ (linkCfg k s).peerSeat ∨ peer ≠ (linkCfg k s).peerLink ∨ pair ≠ l.lanePair ∨ seatTwice k seat peer s = true →
        Answers (.identityFlit k seat peer mode narrow forward pair) s fun u =>
          LinkNow s u k { l with peerSeat := seat, peerLink := peer, peerForward := forward, state := 7, cause := 8, stage := 0 } ∧
          (∃ ws, Out.report s.fab.fmAddr 1 ws ∈ u.out) ∧ u.mem = s.mem ∧ u.jobs = s.jobs))) ∧
  (l.stage ≠ 0 → l.waiting = false →
    (l.tries + 1 < 4 → Answers (.linkTrainTimeout k) s fun u =>
      LinkNow s u k { l with attempts := min 255 (l.attempts + 1), tries := l.tries + 1, waiting := true } ∧ u = { s with fab := u.fab }) ∧
    (4 ≤ l.tries + 1 → Answers (.linkTrainTimeout k) s fun u =>
      LinkNow s u k { l with attempts := min 255 (l.attempts + 1), tries := l.tries + 1, state := 7, cause := 7, stage := 0 } ∧
      u.mem = s.mem ∧ u.jobs = s.jobs)) ∧
  (l.waiting = true → Answers (.linkTrainRetryEnd k) s fun u =>
    LinkNow s u k { l with waiting := false, state := 1, stage := 1, lanePair := 0, identified := false } ∧ u = { s with fab := u.fab }) ∧
  ((linkCfg k s).mode = 2 → s.fab.tx = [] →
    (l.state = 1 → Answers (.ethernetLinkUp k) s fun u =>
      LinkNow s u k { l with state := 4, stage := 0, waiting := false, attempts := 0, tries := 0 } ∧ u = { s with fab := u.fab }) ∧
    (l.state = 4 → Answers (.ethernetLinkDown k) s fun u =>
      (linkOf k u).state = 1 ∧ (linkOf k u).stage = 1 ∧ (linkOf k u).cause = 1 ∧
      (linkOf k u).downCount = min 0xFFFF (l.downCount + 1) ∧ u.mem = s.mem ∧ u.jobs = s.jobs))

/-- A flit of words `w0`, `w1` and `body` whose CRC is right, or not (R430, R620). -/
def FlitOf (words : List W64) (w0 w1 : W64) (body : List W64) (good : Bool) : Prop :=
  words = w0 :: w1 :: body ∧ body.length = 30 ∧
  (good = true ↔ (crc32 (ofWords (w0 :: pack [(fld w1 63 32, 32, 32)] :: body))).toNat = fld w1 31 0)

/-- R430, R431, R435, R468: a flit whose CRC fails changes nothing but the link's NAK and its count of failures, and an IDLE flit answers it; one whose CRC is
right returns credits and drops what it acknowledges from the retry buffer; a DATA flit in sequence is accepted (no packet that ends in it being
reserved or a message to forward), one out of sequence is not and sets NAK; NAK is repeated while the gap lasts; a lost acknowledgement takes the link down.
Where the spec leaves a point open, the statement follows the model's choices of log entries 129, 130, 131, 224. -/
def Obligations.FlitsAndRetry : Prop := ∀ (s : State) (k : Nat) (l : Link) (words : List W64) (w0 w1 : W64) (body : List W64), l = linkOf k s →
  k < s.fab.links.length → (linkCfg k s).mode = 1 → l.state = 4 → l.txq = [] → l.avail.length = 5 → l.peerFreed.length = 5 →
  (FlitOf words w0 w1 body false → l.crcRun + 1 < 4 → Answers (.flitReceive k words) s fun u =>
    LinkNow s u k { l with crcRun := l.crcRun + 1, gap := true } ∧ (∃ ws, u.out = s.out ++ [.flit k ws]) ∧
    u = { s with fab := u.fab, out := u.out }) ∧
  (FlitOf words w0 w1 body true → s.fab.chunks = [] → fld w0 34 34 = 0 →
    (fld w0 63 60 = 0 → Answers (.flitReceive k words) s fun u =>
      (linkOf k u).retry = (if fld w0 35 35 = 1 then dropAcked (fld w0 47 36) l.retry else l.retry) ∧ (linkOf k u).crcRun = 0 ∧
      (linkOf k u).naks = 0 ∧ (linkOf k u).peerFreed = [fld w1 63 56, fld w1 55 48, fld w1 47 40, fld w1 39 32, fld w0 29 22] ∧
      (∀ v, v < 5 → (linkOf k u).avail.getD v 0 = l.avail.getD v 0 +
        ((linkOf k u).peerFreed.getD v 0 + 256 - l.peerFreed.getD v 0) % 256) ∧
      (linkOf k u).rxSeq = l.rxSeq ∧ (linkOf k u).gap = l.gap ∧ (linkOf k u).state = 4 ∧ u = { s with fab := u.fab }) ∧
    (fld w0 63 60 = 1 → fld w0 59 48 = (l.rxSeq + 1) % 4096 →
      (∀ p ∈ (walkSlots 16 l.rxLeft l.rxWords body).2.2, knownOpcode p.opcode = true ∧ (p.vl < 2 ∨ p.dst = seatOf s % 64)) → Answers (.flitReceive k words) s fun u =>
      (linkOf k u).rxSeq = fld w0 59 48 ∧ (linkOf k u).rxValid = true ∧ (linkOf k u).gap = false ∧
      (∃ ws, u.out = s.out ++ [.flit k ws]) ∧ u = { s with fab := u.fab, out := u.out }) ∧
    (fld w0 63 60 = 1 → fld w0 59 48 ≠ (l.rxSeq + 1) % 4096 → Answers (.flitReceive k words) s fun u =>
      (linkOf k u).rxSeq = l.rxSeq ∧ (linkOf k u).gap = true ∧ (∃ ws, u.out = s.out ++ [.flit k ws]) ∧
      u = { s with fab := u.fab, out := u.out })) ∧
  (Answers (.nakRepeat k) s fun u => (l.gap = true → ∃ ws, u = { s with out := s.out ++ [.flit k ws] }) ∧ (l.gap = false → u = s)) ∧
  (l.retry ≠ [] → Answers (.ackProgressTimeout k) s fun u => LinkDown s u k 3)

/-- R455, R456, R468 to R472: narrowing to two lanes and its end or failure, the agreement of a switch count and the switch of a STANDBY
link, the handover of a failed link; heartbeats go out on every ACTIVE and STANDBY link, bring the peer's reach, and three that are missed take
the peer's link down.
Where the spec leaves a point open, the statement follows the model's choices of log entries 132, 133. -/
def Obligations.LinkChanges : Prop := ∀ (s : State) (k : Nat) (l : Link), l = linkOf k s → k < 36 → s.fab.links.length = 36 →
  (linkCfg k s).mode = 1 →
  (∀ lane, l.state = 4 →
    ((linkCfg k s).narrowAllowed = true → l.lanePair = 0 → Answers (.laneLossOfLock k lane) s fun u =>
      LinkNow s u k { l with state := 5, narrowTo := if lane < 2 then 2 else 1, narrowCause := 1, widen := false } ∧
      u = { s with fab := u.fab }) ∧
    ((linkCfg k s).narrowAllowed = false → l.lanePair = 0 → Answers (.laneLossOfLock k lane) s fun u => LinkDown s u k 1)) ∧
  (l.state = 5 →
    (l.txq = [] → Answers (.narrowingDone k) s fun u =>
      LinkNow s u k { l with state := 4, lanePair := l.narrowTo, widen := false, resent := l.resent + l.retry.length } ∧ u.mem = s.mem ∧ u.jobs = s.jobs) ∧
    (l.narrowTo = 0 → Answers (.narrowingTimeout k) s fun u =>
      LinkNow s u k { l with narrowTo := l.lanePair, widen := false } ∧ u = { s with fab := u.fab }) ∧
    (l.narrowTo ≠ 0 → l.narrowCause ≠ 5 → Answers (.narrowingTimeout k) s fun u => LinkDown s u k l.narrowCause)) ∧
  (∀ count, l.state = 3 → l.switchAt = none →
    (s.cwk.state = .locked → s.cwk.now + 2000000 ≤ count → Answers (.switchPropose k count) s fun u =>
      (linkOf k u).switchAt = some count ∧ (linkOf k u).state = 3 ∧ u.mem = s.mem ∧ u.jobs = s.jobs) ∧
    (s.cwk.state ≠ .locked → Answers (.switchPropose k count) s fun u => u = s) ∧
    (l.proposed = some count → Answers (.switchAgree k count) s fun u =>
      LinkNow s u k { l with switchAt := some count, proposed := none } ∧ u = { s with fab := u.fab }) ∧
    (s.cwk.state = .locked → s.cwk.now.toNat + 2000000 < 2 ^ 64 → Answers (.switchReproposeTimer k) s fun u =>
      (∃ c, (linkOf k u).proposed = some c ∧ 2000000 ≤ (c - s.cwk.now).toNat) ∧ (linkOf k u).switchAt = none ∧ u.mem = s.mem)) ∧
  (∀ c, l.state = 3 → l.switchAt = some c → c ≤ s.cwk.now → (∀ i, i ≠ k → (linkOf i s).switchAt = none) → Answers .routeSwitchCount s fun u =>
    (linkOf k u).state = 4 ∧ (linkOf k u).switchAt = none ∧ inForce (linkOf k u) u = true ∧ u.fab.tableB = !s.fab.tableB ∧
    (∀ i, i < 36 → i ≠ k → inForce (linkOf i u) u = inForce (linkOf i s) s ∧ (linkOf i u).state = (linkOf i s).state) ∧ u.mem = s.mem ∧
    u.jobs = s.jobs) ∧
  (∀ seq, ∀ cmd ∈ [Instr.handover k seq, Instr.handoverTimeout k], l.state = 6 → l.handover = true → l.txq = [] → l.retry = [] →
    s.fab.chunks = [] → l.cause ≠ 5 → l.cause ≠ 6 → Answers cmd s fun u =>
      (linkOf k u).handover = false ∧ (linkOf k u).state = 1 ∧ (linkOf k u).stage = 1 ∧ u = { s with fab := u.fab }) ∧
  (s.fab.tx = [] → Answers .heartbeatTimer s fun u => u.mem = s.mem ∧ u.jobs = s.jobs ∧
    ((l.state = 3 ∨ l.state = 4) → Carries u k (packet 4 0xC2 ((linkCfg k s).peerSeat % 64) (seatOf s % 64) 1 true true 0 0 0
      (ofWords [s.cwk.now, BitVec.ofNat 64 (ownReach s)])))) ∧
  (∀ seat count reach, l.state = 4 →
    (∀ i, i < 36 → (linkCfg i s).peerSeat = seat → (linkOf i s).state = 6 → (linkOf i s).cause ≠ 6) →
    Answers (.heartbeat k seat count reach) s fun u =>
      LinkNow s u k { l with reach := reach } ∧ u = { s with fab := u.fab }) ∧
  (∀ seat, (linkCfg k s).role = 0 → (linkCfg k s).peerSeat = seat → (l.state = 4 ∨ l.state = 5) →
    (∀ i, i < 36 → i ≠ k → (linkCfg i s).peerSeat = seat → 5 < (linkOf i s).state) → Answers (.heartbeatMissTimeout seat) s fun u =>
      LinkDown s u k 6 ∧ (linkOf k u).state = 6 ∧ Out.report s.fab.fmAddr 2 [BitVec.ofNat 64 seat] ∈ u.out) ∧
  (∀ v, (l.headOf v).isSome = true →
    (v ∉ l.sat → Answers (.linkSaturationTimeout k v) s fun u => LinkNow s u k { l with sat := v :: l.sat } ∧ u.mem = s.mem ∧ u.jobs = s.jobs) ∧
    (v ∈ l.sat → Answers (.linkSaturationTimeout k v) s fun u => u = s))

/-- A packet of opcode `op` on virtual lane `vl` for this module arrives on a link of partition `n`. -/
def PacketHere (s : State) (k vl n : Nat) (p : Packet) : Prop :=
  k < s.fab.links.length ∧ partOfLink k s = some n ∧ p.vl = vl ∧ p.dst = seatOf s % 64 ∧ s.faults.out = [] ∧ Memory.wf s.mem = true

/-- R437, R440, R441, R448, R449: the target answers every request on the link it came by, with the first status of Table 12.10 that applies; a
WRITE that is OK stores its bytes, an atomic of one INT32 leaves the value of Table 12.9, a CHAN_WRITE into its channel's buffer is written and
its last part makes the entry arrived; a request that is refused writes nothing, and none is served on a link that no partition holds (R57). R285, R286, R289, R290, R437, R448 to R450: the answer OK to the one outstanding request ends it: READ_DATA and ATOMIC_DATA write their bytes where the
instruction said and count for its fetcher entry, WRITE_ACK, ATOMIC_ACK and ATOMIC_DATA count for the tile's FENCE; CHAN_ACK ends its request;
an answer to no request is counted and discarded; CHAN_CREDIT gives a credit back, up to DEPTH. R276: the data that a COPY between two regions
has read is written on. R450 to R452: a READ, or an atomic without return, of another member that equals one in the crossbar's combining table
joins it and sends nothing of its own.
Where the spec leaves a point open, the statement follows the model's choices of log entries 135, 136, 137, 138, 223. -/
def Obligations.FabricRequests : Prop :=
  (
  ∀ (s : State) (k n : Nat) (h0 h1 : W64) (data : List Byte) (p : Packet) (count st : Nat),
  p = ⟨h0, h1, data⟩ → PacketHere s k 0 n p → st = requestStatus n p count s →
  (p.opcode = 0x01 → data = [] → count = 0 → Answers (.read k h0 h1) s fun u =>
    u.mem = s.mem ∧ u.jobs = s.jobs ∧ (st = 0 → Carries u k (answerPacket (seatOf s % 64) p 0 (rdBytes p.addr (16 * p.len) s.mem))) ∧
    (st ≠ 0 → st ≠ 4 → Carries u k (answerPacket (seatOf s % 64) p st []))) ∧
  (p.opcode = 0x02 → count = 0 → data.length = 16 * p.len → Answers (.write k h0 h1 data) s fun u =>
    Carries u k (answerPacket (seatOf s % 64) p st []) ∧ u.jobs = s.jobs ∧ (st ≠ 0 → u.mem = s.mem) ∧
    (st = 0 → (∀ i, i < data.length → some (rdByte (p.addr + i) u.mem) = data[i]?) ∧
      ∀ b, Outside [(p.addr, data.length)] b → rdByte b u.mem = rdByte b s.mem)) ∧
  (∀ aop ret old v cmp, p.opcode = 0x40 + 8 * aop + ret → aop < 5 → ret < 2 → count = 1 → old = rdNat p.addr 4 s.mem →
    v = leNat ((data.drop (if aop = 3 then 4 else 0)).take 4) → cmp = leNat (data.take 4) →
    Answers (.atomicPacket k h0 h1 count data) s fun u =>
      u.jobs = s.jobs ∧ (st ≠ 0 → u.mem = s.mem ∧ Carries u k (answerPacket (seatOf s % 64) p st [])) ∧
      (st = 0 → rdNat p.addr 4 u.mem = atomicValue aop 0 old v cmp % 2 ^ 32 ∧
        (∀ b, Outside [(p.addr, 4)] b → rdByte b u.mem = rdByte b s.mem) ∧
        Carries u k (answerPacket (seatOf s % 64) p 0 (if ret = 1 then leBytes 4 old else [])))) ∧
  (∀ j h, p.opcode = 0x03 → (partOf n s).state ≠ 3 → jobWithChannel n (memberSeat p.src s) (fld h0 31 22) (fld h0 21 18) s = some (j, h) →
    (inside p.addr data.length (h.buffer, h.depth * h.entryBytes) = false → Answers (.chanWrite k h0 h1 data) s fun u =>
      Carries u k (answerPacket (seatOf s % 64) p 0x01 []) ∧ u.mem = s.mem ∧ u.jobs = s.jobs) ∧
    (inside p.addr data.length (h.buffer, h.depth * h.entryBytes) = true → jobOf j.part j.num s = some j → j.channels = [h] →
      Answers (.chanWrite k h0 h1 data) s fun u =>
        Carries u k (answerPacket (seatOf s % 64) p 0 []) ∧ (∀ i, i < data.length → some (rdByte (p.addr + i) u.mem) = data[i]?) ∧
        (∀ b, Outside [(p.addr, data.length)] b → rdByte b u.mem = rdByte b s.mem) ∧
        ∃ j', jobOf j.part j.num u = some j' ∧
          j'.channels = [{ h with arrived := h.arrived + if fld h0 33 33 = 1 then 1 else 0 }]))) ∧
  (∀ (s : State) (k count : Nat) (h0 h1 : W64) (data : List Byte) (p : Packet), p = ⟨h0, h1, data⟩ → p.dst = seatOf s % 64 → p.vl = 0 →
    partOfLink k s = none → k < s.fab.links.length →
    ∀ cmd, (cmd = Instr.read k h0 h1 ∧ p.opcode = 0x01 ∧ data = [] ∧ count = 0) ∨ (cmd = .write k h0 h1 data ∧ p.opcode = 0x02 ∧ count = 0) ∨
      (cmd = .atomicPacket k h0 h1 count data ∧ 0x40 ≤ p.opcode ∧ p.opcode ≤ 0x67) ∨
      (cmd = .chanWrite k h0 h1 data ∧ p.opcode = 0x03 ∧ malformed p count = false) → Answers cmd s fun u =>
    Carries u k (answerPacket (seatOf s % 64) p (if malformed p count then 0x07 else 0x01) []) ∧ u = { s with fab := u.fab, out := u.out }) ∧
  (
  ∀ (s : State) (k n : Nat) (h0 h1 : W64) (data : List Byte) (p : Packet), p = ⟨h0, h1, data⟩ →
  PacketHere s k 1 n p → (∀ j ∈ s.jobs, j.coll.runs = []) → s.fab.copies = [] → (∀ c ∈ s.fab.combines, c.others = []) →
  (∀ r j x, s.fab.reqs = [r] → r.tag = p.tag → r.member = p.src → fld h0 31 24 = 0 →
    jobOf r.part r.job s = some j → j.tile r.tile = some x →
    (∀ cmd op use dst, (cmd, op, use) ∈ [(Instr.readData k h0 h1 data, 0x80, ReqUse.read dst),
        (Instr.atomicData k h0 h1 data, 0x83, ReqUse.atomic (some dst))] → p.opcode = op → answerOpcode r.opcode = op → r.use = use →
      data.length = r.len → Answers cmd s fun u => u.fab.reqs = [] ∧ (∀ i, i < r.len → some (rdByte (dst + i) u.mem) = data[i]?) ∧
        (∀ b, Outside [(dst, r.len)] b → rdByte b u.mem = rdByte b s.mem) ∧
        ∃ j' y, jobOf r.part r.job u = some j' ∧ j'.tile r.tile = some y ∧ y.fetcher =
          x.fetcher.map (fun e => if e.id = r.entry ∧ e.left ≠ 0 then { e with left := e.left - 1 } else e) ∧
          y.fence = x.fence - if op = 0x83 then 1 else 0) ∧
    (∀ cmd op use, (cmd, op, use) ∈ [(Instr.writeAck k h0 h1, 0x81, ReqUse.write), (Instr.atomicAck k h0 h1, 0x82, ReqUse.atomic none)] →
      data = [] → p.opcode = op → answerOpcode r.opcode = op → r.use = use → Answers cmd s fun u =>
        u.fab.reqs = [] ∧ u.mem = s.mem ∧ ∃ j' y, jobOf r.part r.job u = some j' ∧ j'.tile r.tile = some y ∧
          y = { x with fence := x.fence - 1 }) ∧
    (∀ m key a, p.opcode = 0x80 → answerOpcode r.opcode = 0x80 → r.use = .forward m key a → m ≠ seatOf s % 64 →
      (routeTo r.part m s).isSome = true → Answers (.readData k h0 h1 data) s fun u =>
        (∃ q, u.fab.reqs = [q] ∧ q.opcode = 0x02 ∧ q.member = m ∧ q.key = key ∧ q.addr = a ∧ q.use = .write ∧
          q.len = (data.take r.len).length) ∧ u.fab.copies = [] ∧ u.mem = s.mem) ∧
    (data = [] → p.opcode = 0x84 → answerOpcode r.opcode = 0x84 → r.use = .chan → Answers (.chanAck k h0 h1) s fun u =>
      u.fab.reqs = [] ∧ u = { s with fab := u.fab })) ∧
  (∀ cmd op, (cmd, op) ∈ [(Instr.readData k h0 h1 data, 0x80), (Instr.atomicData k h0 h1 data, 0x83)] → p.opcode = op → s.fab.reqs = [] →
    Answers cmd s fun u => (linkOf k u).lateResponses = (linkOf k s).lateResponses + 1 ∧ u = { s with fab := u.fab }) ∧
  (∀ j h, data = [] → p.opcode = 0x85 → jobOf n j.num s = some j → j.part = n → j.run.isSome = true → j.running = true → s.jobs = [j] →
    j.channels = [h] → h.srcTile = fld h0 31 22 → h.srcIndex = fld h0 21 18 → h.dstSeat = memberSeat (fld h0 46 41) s →
    Answers (.chanCredit k h0 h1) s fun u =>
      u.jobs = [{ j with channels := [{ h with credits := min h.depth (h.credits + 1) }] }] ∧ u.mem = s.mem)) ∧
  (∀ (s : State) (k l count : Nat) (h0 h1 : W64) (data : List Byte) (p q : Packet) (c : Combine), p = ⟨h0, h1, data⟩ → q = p.forwarded →
    p.dst ≠ seatOf s % 64 → p.fwd = false → (linkCfg k s).role ≠ 1 → forwardEnable s = true → directLinks p.dst (fun _ => true) s = [l] →
    l < s.fab.links.length → q.vl = 0 → p.vl = 0 → s.fab.combines = [c] → c.takes q s.cwk.now = true → c.isOf q = false →
    (q.opcode = 0x01 → data = [] → Answers (.read k h0 h1) s fun u =>
      u.fab.combines = [{ c with others := c.others ++ [(q.src, q.tag)] }] ∧ u.fab.combinedReads = s.fab.combinedReads + 1 ∧
      u.fab.links = s.fab.links ∧ u = { s with fab := u.fab }) ∧
    (combines q.opcode = true → q.opcode ≠ 0x01 → (linkOf l s).txq.any c.isOf = true → Answers (.atomicPacket k h0 h1 count data) s fun u =>
      u.fab.combines = [{ c with others := c.others ++ [(q.src, q.tag)] }] ∧ u.fab.combinedAtomics = s.fab.combinedAtomics + 1 ∧
      (linkOf l u).txq = (linkOf l s).txq.map (fun x => if c.isOf x then { x with data := combineData q.opcode x.data data } else x) ∧
      u = { s with fab := u.fab }))

/-- R458 to R464: a DMT segment in order advances its flow, a duplicate or one beyond WINDOW is discarded and counted; an ACK ends the segments
it names and sets WINDOW; a CNP and a quiet 50 µs change the rate of the flow within its bounds; the acknowledgement timer sends an ACK when one is due, with a WINDOW no further ahead than the link's receiver has room (R332);
an overdue segment is resent, and counted; control frames are answered, echo at most 100 times a second, others counted.
Where the spec leaves a point open, the statement follows the model's choices of log entries 140, 141. -/
def Obligations.DmtFlows : Prop := ∀ (s : State) (k n seat cls flow : Nat), k < s.fab.links.length → partOfLink k s = some n →
  (linkCfg k s).mode = 2 → (linkOf k s).state = 4 →
  (∀ d0 d1 h0 h1 data f, fld d0 35 24 = seatOf s → fld d0 47 36 = seat → fld d0 55 53 = cls → fld d0 23 0 = flow → (cls = 3 ∨ cls = 4) →
    s.fab.rx = [f] → (f.part, f.seat, f.cls, f.flow) = (n, seat, cls, flow) → f.held = [] →
    (fld d1 63 32 = f.next → seqLe f.next f.window = true → f.unacked + 1 < 16 → Answers (.dmtData k d0 d1 h0 h1 data false) s fun u =>
      u = { s with fab := { s.fab with rx := [{ f with next := (f.next + 1) % 2 ^ 32, unacked := f.unacked + 1 }] } }) ∧
    (64 ≤ (fld d1 63 32 + 2 ^ 32 - f.next) % 2 ^ 32 ∨ seqLe (fld d1 63 32) f.window = false → Answers (.dmtData k d0 d1 h0 h1 data false) s fun u =>
      (linkOf k u).dmtDiscards = (linkOf k s).dmtDiscards + 1 ∧ u.fab.rx = s.fab.rx ∧ u = { s with fab := u.fab })) ∧
  (∀ d0 d1 d2 d3 f, fld d0 47 36 = seat → fld d0 55 53 = cls → fld d0 23 0 = flow → s.fab.tx = [f] →
    (f.part, f.seat, f.cls, f.flow) = (n, seat, cls, flow) → (∀ g ∈ f.segs, g.out = true ∧ seqLe g.psn (fld d1 31 0) = true) →
    s.fab.chunks = [] → Answers (.dmtAck k d0 d1 d2 d3) s fun u =>
      ∃ f', u = { s with fab := { s.fab with tx := [f'], ahead := u.fab.ahead } } ∧ f'.segs = [] ∧ f'.window = fld d3 63 32 ∧ f'.rate = f.rate ∧ f'.next = f.next) ∧
  (∀ f, s.fab.tx = [f] → (f.part, f.seat, f.cls, f.flow) = (n, seat, cls, flow) →
    (Answers (.dmtCnp n seat cls flow) s fun u =>
      u = { s with fab := { s.fab with tx := [{ f with rate := max (f.rate * 7 / 8) 390625000 }] } }) ∧
    (Answers (.dmtRateRecovery n seat cls flow) s fun u =>
      u = { s with fab := { s.fab with tx := [{ f with rate := min (f.rate + 1562500000) 100000000000 }] } }) ∧
    (∀ g lk, f.segs = [g] → g.out = true → g.sacked = false → f.rto ≤ (s.cwk.now - g.sent).toNat → flowLink n flow s = some lk →
      lk < s.fab.links.length → Answers (.dmtRto n seat cls flow) s fun u =>
        u.fab.tx = [{ f with segs := [{ g with sent := s.cwk.now }] }] ∧ (linkOf lk u).dmtResent = (linkOf lk s).dmtResent + 1 ∧
        u.out = s.out ++ [.dmt lk seat (udpSource flow) (dmtHeader 0 cls g.last true (seatOf s) seat flow g.psn 0 0 0) [g.h0, g.h1] g.data] ∧
        u = { s with fab := u.fab, out := u.out })) ∧
  (∀ f, s.fab.rx = [f] → (f.part, f.seat, f.cls, f.flow) = (n, seat, cls, flow) →
    (f.unacked = 0 → Answers (.dmtAckTimer k seat cls flow) s fun u => u = s) ∧
    (f.unacked ≠ 0 → Answers (.dmtAckTimer k seat cls flow) s fun u =>
      u.fab = { s.fab with rx := [{ f with unacked := 0, window :=
        ((f.next + 2 ^ 32 - 1) % 2 ^ 32 + if cls = 3 ∨ cls = 4 then min 64 (receiverRoom k s) else 64) % 2 ^ 32 }] } ∧
      (∃ hdr, u.out = s.out ++ [.dmt k seat (udpSource flow) hdr [] []]) ∧ u = { s with fab := u.fab, out := u.out })) ∧
  (∀ kind, (kind < 2 → Answers (.ethernetControlFrame k kind) s fun u => u = { s with out := s.out ++ [.ethernet k kind] }) ∧
    (2 < kind → Answers (.ethernetControlFrame k kind) s fun u =>
      (linkOf k u).dmtDiscards = (linkOf k s).dmtDiscards + 1 ∧ u = { s with fab := u.fab }) ∧
    (kind = 2 → s.fab.echoSecond = s.cwk.now.toNat / 1000000000 → Answers (.ethernetControlFrame k 2) s fun u =>
      (s.fab.echoes < 100 → u = { s with out := s.out ++ [.ethernet k 2], fab := { s.fab with echoes := s.fab.echoes + 1 } }) ∧
      (100 ≤ s.fab.echoes → u = s)))

/-- R44, R306, R416, R447, R453, R454, R457, R458, R465, R483: a message of the fabric manager without an entry for master 0x40 is counted and
discarded, otherwise its setting applies and its address is held; a link that is not Ethernet brings none; a report is passed on to the
address held. A RESOLVE of a region of the partition is answered with it, one that no region
answers has no effect; a RESOLVE_REPLY gives the region to the run that waits; without one the START_JOB ends INVALID_FIELD; a declaration is
kept for its job, for the next run while one goes on; load sums are kept until every member's are there. With no wait too long the dead target
check changes nothing; a request, or a segment of a DMT flow, that has waited too long tears its partition down.
Where the spec leaves a point open, the statement follows the model's choices of log entries 128, 132, 157, 158, 159, 201. -/
def Obligations.AgentMessages : Prop := ∀ (s : State) (k n : Nat),
  ((linkCfg k s).mode ≠ 2 → ∀ m, Answers (.fabricManagerMessage k m) s fun u => u = s) ∧
  (∀ src (m : FmMsg) (cmd : Instr), NoneWaits s → k < s.fab.links.length →
    (cmd = .fabricManagerMessage k ⟨src, m⟩ ∧ (linkCfg k s).mode = 2) ∨ cmd = .report k (.down src m) →
    (masterOf 0x40 s = none → Answers cmd s fun u =>
      LinkNow s u k { linkOf k s with dmtDiscards := (linkOf k s).dmtDiscards + 1 } ∧ u = { s with fab := u.fab }) ∧
    ((masterOf 0x40 s).isSome = true →
      (∀ l mac, m = .nextHop l mac → l < s.fab.links.length → Answers cmd s fun u =>
        (linkOf l u).nextHop = some mac ∧ u.fab.fmLink = some k ∧ u.fab.fmAddr = some src ∧ u = { s with fab := u.fab }) ∧
      (∀ seat ip, m = .seatAddress seat ip → s.fab.tx = [] → Answers cmd s fun u => u = { s with fab := { s.fab with
        fmLink := some k, fmAddr := some src, seats := (seat, ip) :: s.fab.seats.filter fun p => p.1 != seat } }) ∧
      (∀ z, m = .segment z → Answers cmd s fun u => u = { s with fab := { s.fab with
        fmLink := some k, fmAddr := some src, segment := if 1024 ≤ z ∧ z ≤ 8192 ∧ z % 1024 = 0 then z else s.fab.segment } }) ∧
      (∀ on, m = .pfc on → Answers cmd s fun u => u = { s with fab := { s.fab with fmLink := some k, fmAddr := some src, pfc := on } }))) ∧
  (∀ kind ws, Answers (.report k (.up kind ws)) s fun u => u = { s with out := s.out ++ [.report s.fab.fmAddr kind ws] }) ∧
  (partOfLink k s = some n →
    (∀ member key, regionByKey n key s = none → Answers (.resolve k member key) s fun u => u = s) ∧
    (∀ member key r i, regionByKey n key s = some r → routeTo n member s = some ([i], false) → i < s.fab.links.length →
      Answers (.resolve k member key) s fun u =>
        Carries u i (packet 4 0xC3 member (seatOf s % 64) 2 true true (2 ^ 24) 0 0
          (ofWords [pack [(key, 0, 32), (r.perm, 32, 3)], BitVec.ofNat 64 r.base, BitVec.ofNat 64 (r.size * 2 ^ 21)])) ∧
        u.mem = s.mem ∧ u.jobs = s.jobs) ∧
    (∀ member key base size perm q j r, s.fab.resolves = [⟨n, j.num, member, key⟩, q] → q.part = n → q.job = j.num →
      (q.member, q.key) ≠ (member, key) → j.part = n → s.jobs = [j] → j.run = some r → r.setup = true → r.started = false → j.channels = [] →
      j.csection = [] → Answers (.resolveReply k member key base size perm) s fun u =>
        u = { s with fab := { s.fab with resolves := [q] },
                     jobs := [{ j with run := some { r with regions := r.regions ++ [⟨member, key, base, size, perm⟩] } }] }) ∧
    (∀ d j, declTarget n (seatOf s) d s = some j → j.part = n → s.jobs = [j] → j.run = none ∨ j.running = true → Answers (.channelDeclare k d) s fun u =>
      u = { s with jobs := [{ j with decls := d :: j.decls }] }) ∧
    (∀ words j mi src g, s.jobs = [j] → j.part = n → j.running = true → j.mapOf (fld (words.getD 0 0) 63 54) = some mi →
      src = fld (words.getD 0 0) 53 48 → (groupOf (j.rmap mi)).contains src = true → (groupOf (j.rmap mi)).head? = some (selfOf (j.rmap mi) s) →
      g ∈ groupOf (j.rmap mi) → g ≠ src → (∀ p ∈ (j.adviceOf mi).received, p.1 ≠ g) → Answers (.advice k words) s fun u =>
        (∃ j', u.jobs = [j'] ∧ (j'.adviceOf mi).received = (j.adviceOf mi).received ++
          [(src, ((words.drop 1).take (fld (words.getD 0 0) 31 0)).map BitVec.toNat)]) ∧ u = { s with jobs := u.jobs })) ∧
  (∀ num j r d q, s.fab.resolves = [q] → q.part = n → q.job = num → jobOf n num s = some j → j.run = some r → r.started = false →
    commandOf r.port r.qp r.seq s = some d → d.state ≠ .ended → s.faults.lost = [] → Answers (.regionResolveTimeout n num) s fun u =>
      EndedWith r.port r.qp r.seq 0x0002 s.cwk.now u ∧ (∃ j', jobOf n num u = some j' ∧ j'.run = none) ∧ u.fab.resolves = [] ∧ u.mem = s.mem) ∧
  ((∀ r ∈ s.fab.reqs, tooLong r.since s = false) → s.fab.tx = [] → s.jobs = [] → Answers .deadTargetCheck s fun u => u = s) ∧
  (∀ r, s.fab.reqs = [r] → tooLong r.since s = true → s.fab.tx = [] → (∀ j ∈ s.jobs, j.running = false) → r.part ∈ partIds s →
    Answers .deadTargetCheck s fun u => u.fab = { s.fab with reqs := [] } ∧ u.jobs = s.jobs ∧ u.mem = s.mem ∧
      ∃ step, Out.report s.fab.fmAddr 3 [BitVec.ofNat 64 r.job, BitVec.ofNat 64 r.member, step] ∈ u.out) ∧
  (∀ f g, s.fab.tx = [f] → f.cls ≠ 4 → g ∈ f.segs → tooLong g.since s = true → s.fab.reqs = [] → (∀ j ∈ s.jobs, j.running = false) →
    f.part ∈ partIds s → Answers .deadTargetCheck s fun u => u.fab = { s.fab with tx := [{ f with segs := [] }] } ∧ u.jobs = s.jobs ∧
      u.mem = s.mem ∧ ∃ step, Out.report s.fab.fmAddr 3 [0, BitVec.ofNat 64 (f.seat % 64), step] ∈ u.out)

/-! ### Power and thermal control (15) -/

/-- R548, R553: the first samples after reset are only recorded; from ten samples on, a mean above 2,650 W lowers every share, and ten samples in a row
below 2,550 W give each share that the guard holds one step back. R551, R557 to R559: at the end of a tick the governor takes its energy into the history, computes the pacing target and writes the shares: with no unit at work
they stay; with GOVERNOR_MODE 1 and one unit in a MAC phase it gets the largest share that fits the budget. Without a write for 10 ms every
share is 32/64. R560 to R563: the decision of every 100 ms stays, or moves one point slower when shares are below 52/64 or the floor was hit, one point faster when
the model allows; a droop below 40 mV is none, any other is counted for its cluster; entering a thermal state, and at CLAMP every share at
8/64; in HOT every 10 ms one point slower, or at the slowest every share 4/64 lower.
Where the spec leaves a point open, the statement follows the model's choices of log entries 176, 177, 178, 179, 180, 181, 182, 183, 185. -/
def Obligations.PowerAndThermal : Prop :=
  (
  ∀ (s : State) (w : Nat) (l : List Nat) (p : Power), l = (w :: s.power.samples).take 10 →
  p = { s.power with samples := l, tickSum := s.power.tickSum + w, tickN := s.power.tickN + 1 } →
  (l.length < 10 → Answers (.powerSample w) s fun u => u = { s with power := p }) ∧
  (l.length = 10 → 26500 < l.sum → (∃ x ∈ s.power.shares, 8 < x) → Answers (.powerSample w) s fun u =>
    u.power = { p with shares := s.power.shares.map fallShare, serden := s.power.serden.map fallShare, guardTicks := 0, peakGuard := true,
                       guardHigh := if s.power.peakGuard then max s.power.guardHigh (l.sum / 10) else l.sum / 10 } ∧
    (s.power.peakGuard = true → u = { s with power := u.power }) ∧ u.mem = s.mem ∧ u.jobs = s.jobs ∧ u.clk = s.clk) ∧
  (l.length = 10 → l.sum < 25500 → s.power.peakGuard = true → s.thermal.state < 3 →
    (s.power.guardTicks < 9 → Answers (.powerSample w) s fun u =>
      u = { s with power := { p with guardTicks := s.power.guardTicks + 1 } }) ∧
    (s.power.guardTicks = 9 → Answers (.powerSample w) s fun u =>
      u = { s with power := u.power } ∧ u.power.guardTicks = 0 ∧ u.power.govShares = s.power.govShares ∧
      ∀ (i g x : Nat), s.power.govShares[i]? = some g → s.power.shares[i]? = some x →
        u.power.shares[i]? = some (if x < g then x + 1 else x))) ∧
  (∀ x, fallShare x ≤ x ∧ (8 ≤ x → 8 ≤ fallShare x ∧ (12 ≤ x → fallShare x = x - 4)))) ∧
  (
  ∀ (s : State) (fixed e : Nat) (ticks : List Nat), e = s.power.tickSum / max 1 s.power.tickN →
  ticks = (if s.power.capNew then [] else (e :: s.power.ticks).take (windowTicks s)) →
  s.power.govShares.length = 66 → s.power.govSerden.length = 8 → s.power.peakGuard = false → s.thermal.state < 3 → s.thermal.lowered = 0 →
  s.clk.gated = false → (∀ x ∈ s.thermal.stackStates, x < 2) →
  (Answers (.governorTick fixed []) s fun u =>
    u = { s with power := u.power } ∧ u.power.inputW = e ∧ u.power.ticks = ticks ∧ u.power.tickSum = 0 ∧ u.power.tickN = 0 ∧
    u.power.capNew = false ∧ u.power.target = pacingTarget s.power.cap (windowTicks s) ticks ∧ u.power.watchdog = false ∧
    u.power.written = true ∧ u.power.shares = s.power.govShares ∧ u.power.serden = s.power.govSerden) ∧
  (∀ o budget, (powerCfg s).governorEqual = true → o.unit < 66 → activePart o.part s = true → o.cls < 4 → s.power.planTargets = [] →
    (∀ ps ∈ s.power.phases, ps = []) → budget = 1000 * pacingTarget s.power.cap (windowTicks s) ticks - fixed →
    Answers (.governorTick fixed [o]) s fun u => u = { s with power := u.power } ∧
      (∃ g, u.power.shares[o.unit]? = some g ∧ 1 ≤ g ∧ g ≤ 64 ∧ (g = 1 ∨ powerAt o.fullMw o.heldMw g ≤ budget) ∧
        ∀ h, g < h → h ≤ 64 → budget < powerAt o.fullMw o.heldMw h) ∧
      ∀ i, i < 66 → i ≠ o.unit → u.power.shares[i]? = s.power.govShares[i]?) ∧
  (Answers .shareWatchdogTimeout s fun u => u.power = { s.power with
      shares := List.replicate 66 32, serden := List.replicate 8 32, watchdog := true } ∧ u.mem = s.mem ∧ u.jobs = s.jobs ∧ u.clk = s.clk)) ∧
  (
  ∀ (s : State),
  (∀ predicted pause, s.clk.opPhase = .idle → s.clk.gated = false → s.clk.source ≠ .clockLoss → s.clk.opVoltHigh = false →
    s.clk.opCurrent ≤ 5 → s.clk.fastestAllowed ≤ s.clk.opCurrent - 1 → s.clk.opCurrent + 1 ≤ s.clk.slowestAllowed →
    (clocksCfg s).maxOp ≤ s.clk.opCurrent →
    (s.power.floorHit = true → s.clk.opCurrent < 5 → Answers (.opDecision predicted pause) s fun u =>
      u.clk.opTarget = s.clk.opCurrent + 1 ∧ u.clk.opCurrent = s.clk.opCurrent + 1 ∧ u.clk.opPhase = .ramp false ∧
      u.power = { s.power with floorHit := false } ∧ u.mem = s.mem) ∧
    (s.power.floorHit = false → 52 * (macMean s).2 ≤ (macMean s).1 →
      (60 ≤ predicted → s.thermal.state = 0 → (clocksCfg s).maxOp < s.clk.opCurrent → Answers (.opDecision predicted pause) s fun u =>
        u = { s with clk := { s.clk with opTarget := s.clk.opCurrent - 1, opHeld := false, opPhase := .ramp true,
                                         opFrom := some s.clk.opCurrent } }) ∧
      (predicted < 60 → Answers (.opDecision predicted pause) s fun u => u = s))) ∧
  (∀ c mv cycles, c < 66 → s.power.droops.length = 66 →
    ((mv < 40 ∨ cycles < 32) → Answers (.droopDetect c mv cycles) s fun u => u = s) ∧
    (40 ≤ mv → 32 ≤ cycles → Answers (.droopDetect c mv cycles) s fun u =>
      u.power.droops = upd s.power.droops c (· + 1) ∧ u.power.shares = s.power.shares ∧ u.clk = s.clk ∧ u.mem = s.mem ∧ u.jobs = s.jobs)) ∧
  (∀ readings pause h, readings.length = 90 → h = hottest computeSensors readings →
    (h.1 < 380 → s.thermal.state = 0 → Answers (.thermalSensorUpdate readings pause) s fun u =>
      u.thermal.sensors = readings ∧ u.thermal.state = 0 ∧ u.thermal.throttles = s.thermal.throttles ∧ u.clk = s.clk ∧ u.mem = s.mem) ∧
    (420 ≤ h.1 → s.thermal.state < 3 → Answers (.thermalSensorUpdate readings pause) s fun u =>
      u.thermal.state = 3 ∧ u.thermal.throttles = min 0xFFFF (s.thermal.throttles + 1) ∧ (∀ x ∈ u.power.shares, x = 8) ∧ u.mem = s.mem)) ∧
  (∀ pause, (s.thermal.state ≠ 2 → Answers (.hotThrottleTimer pause) s fun u => u = s) ∧
    (s.thermal.state = 2 → s.clk.opCurrent < 5 → s.clk.opCurrent < s.clk.slowestAllowed → s.clk.opPhase = .idle → s.clk.gated = false →
      s.clk.source ≠ .clockLoss → (clocksCfg s).maxOp ≤ s.clk.opCurrent → s.clk.fastestAllowed ≤ s.clk.opCurrent →
      Answers (.hotThrottleTimer pause) s fun u =>
        u.clk.opTarget = s.clk.opCurrent + 1 ∧ u.clk.opCurrent = s.clk.opCurrent + 1 ∧ u.power = s.power ∧ u.mem = s.mem) ∧
    (s.thermal.state = 2 → s.clk.opCurrent = s.clk.slowestAllowed → Answers (.hotThrottleTimer pause) s fun u =>
      u = { s with power := u.power, thermal := u.thermal } ∧ u.power.shares = s.power.shares.map fun x => max 1 (x - 4))))


/-! ### Management, attestation, update (16) -/

/-- The answer of a management endpoint, and nothing else. -/
def OnlyReply (s u : State) (ep code : Nat) (ws : List W64) : Prop := u = { s with out := s.out ++ [.mgmtReply ep code ws] }

/-- R570 to R573: MCTP control and PLDM base requests on an endpoint that answers: identifiers are set and read, the null and broadcast EIDs refused, types
and readings given; without firmware a PLDM request answers ERROR_NOT_READY; the management port reports the status registers, BP_STATUS (R68) in
every state, under sensor numbers of the model's choice (log entry 205); an address for the management port makes it an I3C target. R575 to R577, R100: the receiver of events is set; its poll takes the first event, its acknowledgement ends the one under way and the next goes out, an
unacknowledged one is sent again; the telemetry mirror publishes the other half; new log entries go to the archive.
Where the spec leaves a point open, the statement follows the model's choices of log entries 186, 187, 188, 189, 205. -/
def Obligations.ManagementRequestsAndEvents : Prop :=
  (
  ∀ (s : State) (ep : Nat), ep < 5 → s.mgmt.eids.length = 5 → s.mgmt.tid.length = 5 →
  (∀ a, s.mgmt.events.queue = [] → Answers (.i3cDynamicAddress a) s fun u =>
    u = { s with mgmt := { s.mgmt with i3c := true, dynAddr := a % 128 } }) ∧
  (controlAnswered ep s = true →
    (∀ eid, 1 ≤ eid → eid < 0xFF → Answers (.setEndpointId ep eid) s fun u => u.mgmt.eids.getD ep 0 = eid ∧
      (∀ i, i ≠ ep → u.mgmt.eids.getD i 0 = s.mgmt.eids.getD i 0) ∧
      u = { s with mgmt := { s.mgmt with eids := u.mgmt.eids }, out := s.out ++ [.mgmtReply ep 0 [BitVec.ofNat 64 eid]] }) ∧
    (∀ eid, (eid = 0 ∨ 0xFF ≤ eid) → Answers (.setEndpointId ep eid) s fun u => OnlyReply s u ep 0x02 []) ∧
    (Answers (.getEndpointId ep) s fun u => OnlyReply s u ep 0 [BitVec.ofNat 64 (s.mgmt.eids.getD ep 0)]) ∧
    (Answers (.getEndpointUuid ep) s fun u => OnlyReply s u ep 0
      [Config.endpointUuid.setWidth 64, (Config.endpointUuid >>> 64).setWidth 64]) ∧
    (Answers (.getMessageTypeSupport ep) s fun u => OnlyReply s u ep 0 [0x00, 0x01, 0x05]) ∧
    (∀ t, t ∈ [0xFF, 0x00, 0x01, 0x05] → Answers (.getMctpVersionSupport ep t) s fun u =>
      ∃ v, u = { s with out := s.out ++ [.mgmtReply ep 0 [v]], free := s.free + 1 }) ∧
    (∀ t, t ∉ [0xFF, 0x00, 0x01, 0x05] → Answers (.getMctpVersionSupport ep t) s fun u => OnlyReply s u ep 0x80 [])) ∧
  (endpointUp ep s = true →
    (firmwareUp s = false → ∀ r, Answers (.pldmBaseDiscovery ep r) s fun u => OnlyReply s u ep ccNotReady []) ∧
    (firmwareUp s = true →
      (∀ t, 1 ≤ t → t < 0xFF → Answers (.pldmBaseDiscovery ep (.setTid t)) s fun u =>
        u.mgmt.tid.getD ep 0 = t ∧ u = { s with mgmt := { s.mgmt with tid := u.mgmt.tid }, out := s.out ++ [.mgmtReply ep 0 []] }) ∧
      (Answers (.pldmBaseDiscovery ep .getTid) s fun u => OnlyReply s u ep 0 [BitVec.ofNat 64 (s.mgmt.tid.getD ep 0)]) ∧
      (∀ id v, (id ∈ sensorIds → Answers (.getSensorReading ep id v) s fun u =>
          OnlyReply s u ep 0 [0, BitVec.ofInt 64 (sensorValue id v v s)]) ∧
        (id ∉ sensorIds → (ep ≠ 0 ∨ portRegister id = none) → Answers (.getSensorReading ep id v) s fun u => OnlyReply s u ep 0x80 []))) ∧
    (firmwareUp s = false → ∀ id v, (ep ≠ 0 ∨ (alwaysOnSensor id = false ∧ portRegister id = none)) →
      Answers (.getSensorReading ep id v) s fun u => OnlyReply s u ep ccNotReady [])) ∧
  (∀ o v, o ∈ portRegisters → (firmwareUp s = true ∨ o = 0x08) → Answers (.getSensorReading 0 (0x10000 + o) v) s fun u =>
    OnlyReply s u 0 0 [0, statusWord 0 o s])) ∧
  (
  ∀ (s : State) (ep : Nat), endpointUp ep s = true → firmwareUp s = true →
  (∀ rx, rx ≤ 4 → s.mgmt.events.queue = [] → Answers (.setEventReceiver ep rx) s fun u =>
    u = { s with mgmt := { s.mgmt with events := { s.mgmt.events with receiver := some rx, inFlight := false } },
                 out := s.out ++ [.mgmtReply ep 0 []] }) ∧
  (s.mgmt.events.receiver ≠ some ep → Answers (.pollForPlatformEventMessage ep) s fun u => OnlyReply s u ep ccError []) ∧
  (∀ e, s.mgmt.events.receiver = some ep → s.mgmt.events.queue = [e] → s.mgmt.events.overflowed = false →
    (Answers (.pollForPlatformEventMessage ep) s fun u => u.mgmt.events.queue = [] ∧ u.mgmt.events.inFlight = false ∧
      u.out = s.out ++ [.mgmtReply ep 0 (eventWords e false)] ∧ u = { s with mgmt := u.mgmt, out := u.out }) ∧
    (s.mgmt.events.inFlight = true →
      (Answers (.platformEventAck ep) s fun u => u.mgmt.events.queue = [] ∧ u.mgmt.events.inFlight = false ∧
        u = { s with mgmt := u.mgmt }) ∧
      (Answers .eventResendTimer s fun u => u = { s with out := s.out ++ [.mgmtEvent ep e] }))) ∧
  (∀ mv ma, Answers (.telemetryRefresh mv ma) s fun u => u.mirror.seq = s.mirror.seq + 1 ∧ u = { s with mirror := u.mirror } ∧
    (if (s.mirror.seq + 1).getLsbD 0 then u.mirror.half0 = s.mirror.half0 ∧ u.mirror.half1 = mirrorHalf mv ma (s.mirror.seq + 1) s
      else u.mirror.half1 = s.mirror.half1 ∧ u.mirror.half0 = mirrorHalf mv ma (s.mirror.seq + 1) s)) ∧
  (s.flash.archive.length + s.aon.logNew ≤ 1507328 → s.aon.logNew ≤ s.aon.log.length → Answers .eventLogArchive s fun u =>
    u = { s with flash := { s.flash with archive := s.flash.archive ++ s.aon.log.drop (s.aon.log.length - s.aon.logNew) },
                 aon := { s.aon with logNew := 0 } }))

/-- R578 to R581: the requests of an SPDM connection come in order; with the connection digests, certificates, measurements and challenges are
answered, signed by the device key; a session is on DOE only, and IDE_KM in it sets the port's IDE stream.
Where the spec leaves a point open, the statement follows the model's choices of log entries 9, 186, 190. -/
def Obligations.SpdmAnswers : Prop := ∀ (s : State) (ep : Nat) (q : Spdm), endpointUp ep s = true → firmwareUp s = true → q = spdmOf ep s →
  ep < s.mgmt.spdm.length → ep < 5 →
  (Answers (.spdmRequest ep false .getVersion) s fun u => spdmOf ep u = { q with version := 1 } ∧
    u = { s with mgmt := u.mgmt, out := s.out ++ [.spdm ep [0x04, 0x12, 0x13]] }) ∧
  (q.version < 2 → Answers (.spdmRequest ep false .negotiateAlgorithms) s fun u => u = { s with out := s.out ++ [.spdm ep [0x7F, 0x04]] }) ∧
  (q.version < 3 → ∀ slot nonce, Answers (.spdmRequest ep false (.challenge slot nonce)) s fun u =>
    u = { s with out := s.out ++ [.spdm ep [0x7F, 0x04]] }) ∧
  (q.version = 3 →
    (∀ nonce, Answers (.spdmRequest ep false (.challenge 0 nonce)) s fun u =>
      u = { s with out := s.out ++ [.spdm ep (0x03 :: nonce ++ Config.spdmSign (0x03 :: nonce))] }) ∧
    (Answers (.spdmRequest ep false (.getCertificate 0)) s fun u => u = { s with out := s.out ++ [.spdm ep (0x02 :: Config.certChain)] }) ∧
    (∀ i nonce, 1 ≤ i → i ≤ 6 → Answers (.spdmRequest ep false (.getMeasurements i true nonce)) s fun u =>
      u = { s with out := s.out ++ [.spdm ep (withSignature (0x60 :: measurement i s ++ nonce))] }) ∧
    (∀ slot x, Answers (.spdmRequest ep false (.keyExchange slot x)) s fun u => u = { s with out := s.out ++ [.spdm ep [0x7F, 0x07]] }) ∧
    (∀ on, ep ≠ 0 → q.session = true → ep - 1 < s.ports.length → Answers (.spdmRequest ep true (.ideKm on)) s fun u =>
      (portOf (ep - 1) u).ide = on ∧ spdmOf ep u = { q with ideActive := on } ∧
      u = { s with mgmt := u.mgmt, ports := u.ports, out := s.out ++ [.spdm ep [0x7E]] }))

/-- R572, R584, R588 to R590: an update session: opened by a master that holds UPDATE, its components compared with their floors, the target slot erased and
filled, also again after it has come; once it is there its SHA-384 is in the journal; a failed verification ends the session CANCELLED, a cancel too; requests outside a session are refused; identities, parameters and the update state
are read without change.
Where the spec leaves a point open, the statement follows the model's choices of log entries 186, 192. -/
def Obligations.UpdateSessions : Prop := ∀ (s : State) (ep : Nat), updateAnswered ep s = true →
  (∀ fw bp n, s.update.session = none → (selectHeader s.flash).1.trial = false → holdsUpdate ep s = true → 32 ≤ n → n ≤ 4096 →
    Answers (.requestUpdate ep fw bp n) s fun u =>
      (∃ x, u.update.session = some x ∧ x.agent = ep ∧ x.fw = fw ∧ x.bp = bp ∧ x.maxTransfer = n ∧ x.download = none) ∧
      stageOf u = 1 ∧ (∃ j, u.aon.jCur = some j ∧ j.fwTarget = (!s.boot.fwSlot) ∧ j.bpTarget = (!s.boot.bpSlot) ∧ j.updater = endpointMid ep) ∧
      u.flash.fwA = s.flash.fwA ∧ u.flash.fwB = s.flash.fwB ∧ u.flash.bpA = s.flash.bpA ∧ u.flash.bpB = s.flash.bpB ∧ u.mem = s.mem) ∧
  (∀ fw bp n, s.update.session.isSome = true → Answers (.requestUpdate ep fw bp n) s fun u => OnlyReply s u ep ccAlreadyInUpdate []) ∧
  (sessionOf ep s = none → ∀ c v z, ∀ cmd ∈ [Instr.passComponentTable ep c v, Instr.updateComponent ep c v z, Instr.activateFirmware ep,
      Instr.cancelUpdateComponent ep, Instr.cancelUpdate ep], Answers cmd s fun u => OnlyReply s u ep ccNotInUpdate []) ∧
  (∀ x, s.update.session = some x → x.agent = ep →
    (∀ c v, v < componentFloor c s → Answers (.passComponentTable ep c v) s fun u =>
      u = { s with update := { s.update with session := some { x with lower := c :: x.lower } }, out := s.out ++ [.mgmtReply ep 0 [1]] }) ∧
    (∀ c v z, x.has c = false ∨ c ∈ x.lower ∨ v < componentFloor c s → Answers (.updateComponent ep c v z) s fun u => OnlyReply s u ep 0 [1]) ∧
    (∀ v z j, x.fw = true → 1 ∉ x.lower → componentFloor 1 s ≤ v → z ≤ 33554432 → z % 8 = 0 → s.aon.jCur = some j →
      Answers (.updateComponent ep 1 v z) s fun u =>
        u.update.session = some { x with fwDone := false, fwVerified := false,
                                         download := some { bp := false, stamp := v, size := z, received := 0 } } ∧
        stageOf u = 1 ∧ u.flash.fwA = (if j.fwTarget then s.flash.fwA else []) ∧ u.flash.fwB = (if j.fwTarget then [] else s.flash.fwB) ∧
        u.flash.bpA = s.flash.bpA ∧ u.flash.bpB = s.flash.bpB ∧
        u = { s with update := u.update, flash := u.flash, aon := u.aon, out := s.out ++ [.mgmtReply ep 0 [0]] }) ∧
    (∀ v z j, x.bp = true → 2 ∉ x.lower → componentFloor 2 s ≤ v → z ≤ 1048576 → z % 8 = 0 → s.aon.jCur = some j →
      Answers (.updateComponent ep 2 v z) s fun u =>
        u.update.session = some { x with bpDone := false, bpVerified := false,
                                         download := some { bp := true, stamp := v, size := z, received := 0 } } ∧
        stageOf u = 1 ∧ u.flash.bpA = (if j.bpTarget then s.flash.bpA else []) ∧ u.flash.bpB = (if j.bpTarget then [] else s.flash.bpB) ∧
        u.flash.fwA = s.flash.fwA ∧ u.flash.fwB = s.flash.fwB ∧ u.mem = s.mem ∧ u.jobs = s.jobs) ∧
    (∀ d data j img, x.download = some d → d.bp = false → 8 * data.length ≤ x.maxTransfer → d.received + 8 * data.length = d.size →
      s.aon.jCur = some j → img = (if j.fwTarget then s.flash.fwB else s.flash.fwA) ++ data → Answers (.firmwareData ep data) s fun u =>
        u.update.session = some { x with download := none, fwDone := true } ∧
        (if j.fwTarget then u.flash.fwB = img ∧ u.flash.fwA = s.flash.fwA else u.flash.fwA = img ∧ u.flash.fwB = s.flash.fwB) ∧
        (∃ q, u.aon.jCur = some q ∧ q.fwDigest = Config.sha384 img ∧ q.stage = if x.bp ∧ x.bpDone = false then 1 else 2) ∧ u.mem = s.mem) ∧
    (∀ d data j, x.download = some d → d.bp = false → 8 * data.length ≤ x.maxTransfer → d.received + 8 * data.length < d.size →
      s.aon.jCur = some j → Answers (.firmwareData ep data) s fun u =>
        u.update.session = some { x with download := some { d with received := d.received + 8 * data.length } } ∧
        u.flash = (if j.fwTarget then { s.flash with fwB := s.flash.fwB ++ data } else { s.flash with fwA := s.flash.fwA ++ data }) ∧
        u = { s with update := u.update, flash := u.flash }) ∧
    (x.fw = true → x.bp = false → x.fwDone = true → (verifyStage false s = none → stageOf s = 2 → Answers (.imageVerify ep 1) s fun u =>
        u.update.session = some { x with fwVerified := true } ∧ stageOf u = 3 ∧ u.mem = s.mem) ∧
      (∀ v, verifyStage false s = some v → Answers (.imageVerify ep 1) s fun u => u.update.session = none ∧ stageOf u = 10 ∧
        u.flash.fwA = s.flash.fwA ∧ u.flash.fwB = s.flash.fwB ∧ u.mem = s.mem)) ∧
    (Answers (.cancelUpdateComponent ep) s fun u =>
      u = { s with update := { s.update with session := some { x with download := none } }, out := s.out ++ [.mgmtReply ep 0 []] }) ∧
    (∀ cmd ∈ [Instr.cancelUpdate ep, Instr.updateInactivityTimeout], Answers cmd s fun u =>
      u.update.session = none ∧ stageOf u = 10 ∧ u.mem = s.mem ∧ u.jobs = s.jobs)) ∧
  (Answers (.getStatus ep) s fun u => OnlyReply s u ep 0 [BitVec.ofNat 64 (stageOf s)]) ∧
  (Answers (.queryDeviceIdentifiers ep) s fun u => ∃ ws, ws.length = 3 ∧ ws[2]? = some Config.serialNumber ∧ OnlyReply s u ep 0 ws) ∧
  (Answers (.getFirmwareParameters ep) s fun u => ∃ ws, ws.length = 4 ∧ OnlyReply s u ep 0 ws) ∧
  (firmwareUp s = true → Answers (.getUpdateState ep) s fun u =>
    OnlyReply s u ep 0 (((s.aon.jCur.map JEntry.words).getD []) ++ s.flash.hdr0 ++ s.flash.hdr1))

/-- R584, R592 to R594: ACTIVATE puts a verified update on trial; CONFIRM of a trial that has booted without fallback within its time ends it, and is repeated
without effect; ROLLBACK and the end of the 30 minutes roll a trial back and order a module reset; a key slot is programmed once, by MID 0x01 only, and
the last one in use is not revoked.
Where the spec leaves a point open, the statement follows the model's choices of log entry 194. -/
def Obligations.TrialsAndKeys : Prop := ∀ (s : State) (ep : Nat) (h : Header), h = (selectHeader s.flash).1 → firmwareUp s = true →
  (∀ x, s.update.session = some x → x.agent = ep → stageOf s = 3 → Answers (.activateFirmware ep) s fun u =>
    stageOf u = 5 ∧ u.update.session = none ∧ u.update.rollbackWarned = false ∧ u.flash.fwA = s.flash.fwA ∧ u.flash.bpA = s.flash.bpA ∧
    u.mem = s.mem ∧ u.jobs = s.jobs) ∧
  (holdsUpdate ep s = true →
    (h.trial = false → stageOf s = 7 → Answers (.confirmUpdate ep) s fun u => OnlyReply s u ep 0 []) ∧
    (h.trial = false → stageOf s ≠ 7 → ∀ cmd ∈ [Instr.confirmUpdate ep, Instr.rollbackUpdate ep], Answers cmd s fun u =>
      OnlyReply s u ep ccRefused []) ∧
    (∀ j, h.trial = true → s.boot.stage = 3 → s.boot.fwFallback = false → s.boot.bpState = 1 → s.aon.jCur = some j → j.trialBoots ≠ 0 →
      trialAge s < trialTicks → Answers (.confirmUpdate ep) s fun u => stageOf u = 7 ∧ u.mem = s.mem ∧ u.jobs = s.jobs) ∧
    (h.trial = true → Answers (.rollbackUpdate ep) s fun u =>
      stageOf u = 9 ∧ u.orders.resetPending.isSome = true ∧ u.mem = s.mem ∧ u.jobs = s.jobs)) ∧
  (∀ j, h.trial = true → s.aon.jCur = some j → j.trialBoots ≠ 0 →
    (trialTicks ≤ trialAge s → Answers .trialDeadlineCheck s fun u => stageOf u = 9 ∧ u.orders.resetPending.isSome = true ∧ u.mem = s.mem) ∧
    (trialAge s < trialTicks - 60 * 32768 → Answers .trialDeadlineCheck s fun u => u = s)) ∧
  (h.trial = false → Answers .trialDeadlineCheck s fun u => u = s) ∧
  (∀ slot hash k, s.fuses.ownerKeys[slot]? = some k →
    (k.programmed = false → Answers (.programKeySlot 0 slot hash) s fun u =>
      u.fuses.ownerKeys[slot]? = some { k with programmed := true, hash } ∧ (∀ i, i ≠ slot → u.fuses.ownerKeys[i]? = s.fuses.ownerKeys[i]?) ∧
      u.mem = s.mem ∧ u.flash = s.flash) ∧
    ((ep ≠ 0 ∨ k.programmed = true) → Answers (.programKeySlot ep slot hash) s fun u => OnlyReply s u ep ccRefused [])) ∧
  (∀ slot, slot < 4 → holdsUpdate ep s = true → s.update.session = none → (∀ b, s.boot.shadow = some b → b.keySlot ≠ slot) →
    ((revokeAt s.fuses.ownerKeys slot).any (fun k => k.programmed && !k.revoked) = true → Answers (.revokeKeySlot ep slot) s fun u =>
      u.fuses = { s.fuses with ownerKeys := revokeAt s.fuses.ownerKeys slot } ∧ u.mem = s.mem ∧ u.flash = s.flash) ∧
    ((revokeAt s.fuses.ownerKeys slot).any (fun k => k.programmed && !k.revoked) = false → Answers (.revokeKeySlot ep slot) s fun u =>
      OnlyReply s u ep ccRefused []))

/-! ### The queue, the reset state, and what holds of every command -/

/-- The queue of the block: a step takes the command at the front and is its meaning with the queue's rest.
The queue is the model's own (log entry 6). -/
def Obligations.StepRunsTheFrontCommand : Prop := ∀ (s : State) (c : Instr) (rest : List Instr), s.pending = c :: rest →
  step s = exec c { s with pending := rest }

/-- Every command answers a next state in every state (no rule of the spec stops the module), and so does a step. The model's choice (log entry 4): on
an empty queue one cycle of 1 GHz passes, which moves the 32,768 Hz timekeeper and, while PGOOD is asserted, the Clockwork counter at its rate, and
nothing else.
That no command stops is the model's reading of log entry 1. -/
def Obligations.EveryStepAnswers : Prop :=
  (∀ (c : Instr) (s : State), ∃ t, exec c s = .next t) ∧
  (∀ s : State, s.pending = [] → ∃ t, step s = .next t ∧
    t = { s with aon := { s.aon with tkFrac := t.aon.tkFrac, timekeeper := t.aon.timekeeper },
                 cwk := { s.cwk with now := t.cwk.now, frac := t.cwk.frac } } ∧
    (∀ n, s.aon.timekeeper = BitVec.ofNat 64 n →
      t.aon.timekeeper = BitVec.ofNat 64 ((n * 1000000000 + s.aon.tkFrac + 32768) / 1000000000) ∧
      (n * 1000000000 + s.aon.tkFrac + 32768) % 1000000000 = t.aon.tkFrac) ∧
    (s.wake.pgood = false → t.cwk = s.cwk) ∧
    (s.wake.pgood = true → s.cwk.rate = 0 → t.cwk.now = s.cwk.now + BitVec.ofNat 64 ((s.cwk.frac + 2 ^ 32) / 2 ^ 32)))

/-- R72, R73, R81, R90, R106, R139, R140, R153, R154, R174, R183, R557: what the module holds at reset where the spec gives a value. -/
def Obligations.ResetState : Prop :=
  State.reset.boot.stage = 0 ∧ State.reset.boot.bpState = 0 ∧ State.reset.boot.bmr = 0 ∧ State.reset.boot.failed = 0 ∧
  State.reset.boot.ready = 0 ∧ State.reset.cwk.state = .unsynced ∧ State.reset.cwk.offset = 0 ∧ State.reset.cwk.coasts = 0 ∧
  State.reset.clk.opCurrent = 5 ∧ State.reset.clk.opTarget = 5 ∧ State.reset.clk.switches = 0 ∧
  State.reset.ports.length = 4 ∧ (∀ p ∈ State.reset.ports, p.inReset = true ∧ p.linkUp = false ∧ p.qps.all Option.isNone = true) ∧
  State.reset.parts.length = 4 ∧ (∀ p ∈ State.reset.parts, p.state = 1 ∧ p.resetCount = 0) ∧
  State.reset.mail.length = 64 ∧ (∀ c, c < 64 → ((State.reset.mail[c]?).map fun m => m.bind.isSome) = some (decide (60 ≤ c))) ∧
  State.reset.orders.slate = [] ∧ State.reset.aon.bootCount = 0 ∧ State.reset.aon.cwValid = false ∧ State.reset.jobs = [] ∧
  State.reset.tap.instr = .idcode ∧ State.reset.fuses.ownerKeys.length = 4 ∧ State.reset.fuses.vendorKeys.length = 2 ∧
  (∀ k ∈ State.reset.fuses.ownerKeys ++ State.reset.fuses.vendorKeys, k.programmed = false ∧ k.revoked = false) ∧
  State.reset.pending = [] ∧ Memory.wf State.reset.mem = true

/-- R9, R312: device memory keeps its one canonical form in every step from every state: addresses rise, and no entry is listed that reads as an
unlisted one, so equal memories are equal data whatever wrote them.
What an unlisted byte reads as is the model's choice of log entry 8. -/
def Obligations.MemoryKeepsItsForm : Prop := ∀ (s t : State), Memory.wf s.mem = true → step s = .next t → Memory.wf t.mem = true

/-- R583, R584, R593: the fuses (key slots and floors) change by four commands alone: PROGRAM_KEY_SLOT and REVOKE_KEY_SLOT change owner key
slots only, CONFIRM_UPDATE and the boot ROM, which completes a confirmation that was under way, leave the owner key slots as they are; no step of
any other command, and no reset, touches a fuse. -/
def Obligations.FusesChangeOnlyByKeysAndConfirmation : Prop := ∀ (c : Instr) (s t : State), exec c s = .next t →
  ((∀ e, c ≠ .confirmUpdate e) → c ≠ .bootRom → t.fuses = { s.fuses with ownerKeys := t.fuses.ownerKeys }) ∧
  ((∀ e n h, c ≠ .programKeySlot e n h) → (∀ e n, c ≠ .revokeKeySlot e n) → t.fuses.ownerKeys = s.fuses.ownerKeys)

/-- R36: an image below the fused blueprint floor fails validation; the floor rises only in the confirmation step of an update:
CONFIRM_UPDATE, or the boot ROM that finds the journal, once its source is chosen (step 1), at stage 6 CONFIRMING. -/
def Obligations.BlueprintFloor : Prop :=
  (∀ (img : List W64) (keys : List KeySlot) (floor : Nat) (g : Bool), fld ((imageOf img).getD 2 0) 31 0 < floor →
    ∃ e, validateBlueprint img keys floor g = .error e) ∧
  (∀ (c : Instr) (s t : State), exec c s = .next t → floorOf t.fuses.bpFloor ≠ floorOf s.fuses.bpFloor →
    (∃ e, c = .confirmUpdate e) ∨ (c = .bootRom ∧ stageOf (bootStep1 { s with boot := { s.boot with romDone := true } }) = 6))

/-- R256: the draw of an element is 16 bits of the dice block of its group of four. -/
def Obligations.DrawOfAnElement : Prop := ∀ (k : DiceKey) (g j : Nat), j < 4 → 4 * g + j < 2 ^ 32 →
  draw k (4 * g + j) = (dice k g >>> (16 * j)) &&& 0xFFFF

/-- R362 to R364: the update of one element with the step's scalars, g being the accumulator times the gradient scale; nothing else of the element changes. -/
def Obligations.OptimiserEquations : Prop := ∀ (f : SegFields) (k : Scalars) (acc : Nat) (x : Element), 
  let g := f32Mul acc k.gs
  (f.opt = 0 → ∃ m v mh vh u, m = f32Add (f32Mul f.b1 x.m) (f32Mul k.omb1 g) ∧ v = f32Add (f32Mul f.b2 x.v) (f32Mul k.omb2 (f32Mul g g)) ∧
    mh = f32Mul m k.ibc1 ∧ vh = f32Mul v k.ibc2 ∧ u = toF32 ((ofF32 mh).div (ofF32 (f32Add (toF32 (ofF32 vh).sqrt) f.eps))) ∧
    updateElement f k acc x = ⟨f32Sub (f32Mul x.w k.keep) (f32Mul k.lr u), m, v, x.a⟩) ∧
  (f.opt = 1 → ∃ m d, m = f32Add (f32Mul f.b1 x.m) (f32Mul k.omb2 g) ∧ d = (if f.nesterov then f32Add g (f32Mul f.b1 m) else m) ∧
    updateElement f k acc x = ⟨f32Sub (f32Mul x.w k.keep) (f32Mul k.lr d), m, x.v, x.a⟩) ∧
  (f.opt = 2 → ∃ c s, c = f32Add (f32Mul f.b1 x.m) (f32Mul k.omb1 g) ∧
    (((ofF32 c) = .nan → s = 0x7FC00000) ∧ ((ofF32 c).isZero = true → s = 0) ∧
      ((ofF32 c) ≠ .nan → (ofF32 c).isZero = false → s = if (ofF32 c).isNeg then 0xBF800000 else 0x3F800000)) ∧
    updateElement f k acc x = ⟨f32Sub (f32Mul x.w k.keep) (f32Mul k.lr s), f32Add (f32Mul f.b2 x.m) (f32Mul k.omb2 g), x.v, x.a⟩)
end

