-- ==== Sys2Proof/Laws/Memory.lean ====
section
/-! SUPPORT. Laws/Memory.lean: every operation on device memory keeps its canonical form; a byte read after a write is the byte
written, and a write leaves every other byte as it is. -/
namespace Sys2Proof.Machine

/-- `a` is above a lower bound, if there is one. -/
def aboveLo (lo : Option Nat) (a : Nat) : Bool := match lo with
  | some l => l < a
  | none => true

theorem wfFrom_cons (lo : Option Nat) (a : Nat) (v : Byte) (r : Mem) :
    Mem.wfFrom lo ((a, v) :: r) = (aboveLo lo a && v != emptyByte && Mem.wfFrom (some a) r) := rfl

/-- A lower bound may be lowered. -/
theorem wfFrom_lower (lo : Option Nat) (b : Nat) (m : Mem) (h : Mem.wfFrom (some b) m = true)
    (hb : ∀ l, lo = some l → l ≤ b) : Mem.wfFrom lo m = true := by
  cases m with
  | nil => cases lo <;> rfl
  | cons p r =>
    obtain ⟨a, v⟩ := p
    rw [wfFrom_cons] at *
    simp only [Bool.and_eq_true] at *
    refine ⟨⟨?_, h.1.2⟩, h.2⟩
    cases lo with
    | none => rfl
    | some l =>
      have h1 : b < a := by simpa [aboveLo] using h.1.1
      have h2 : l < a := Nat.lt_of_le_of_lt (hb l rfl) h1
      simpa [aboveLo] using h2

/-- A byte below the lower bound reads as an unlisted one. -/
theorem rdByte_below (lo a : Nat) (m : Mem) (h : Mem.wfFrom (some lo) m = true) (ha : a ≤ lo) : rdByte a m = emptyByte := by
  induction m generalizing lo with
  | nil => rfl
  | cons p r ih =>
    obtain ⟨b, v⟩ := p
    rw [wfFrom_cons] at h
    simp only [Bool.and_eq_true] at h
    have h1 : lo < b := by simpa [aboveLo] using h.1.1
    have h2 : (b == a) = false := by simp; omega
    simp only [rdByte, h2]
    exact ih b h.2 (by omega)

/-- Writing a byte keeps the form above any bound that the address is above. -/
theorem wfFrom_wrByte (lo : Option Nat) (a : Nat) (v : Byte) (m : Mem) (h : Mem.wfFrom lo m = true) (ha : aboveLo lo a = true) :
    Mem.wfFrom lo (wrByte a v m) = true := by
  induction m generalizing lo with
  | nil =>
    simp only [wrByte]
    split
    · exact h
    · rename_i hv
      rw [wfFrom_cons]
      simp only [Bool.and_eq_true]
      refine ⟨⟨ha, ?_⟩, rfl⟩
      simpa using hv
  | cons p r ih =>
    obtain ⟨b, w⟩ := p
    have h' := h
    rw [wfFrom_cons] at h'
    simp only [Bool.and_eq_true] at h'
    simp only [wrByte]
    split
    · rename_i hlt
      rw [wfFrom_cons]
      simp only [Bool.and_eq_true]
      exact ⟨h'.1, ih (some b) h'.2 (by simpa [aboveLo] using hlt)⟩
    · split
      · rename_i hnlt heq
        have hab : b = a := by simpa using heq
        subst hab
        split
        · exact wfFrom_lower lo b r h'.2 (fun l hl => by subst hl; simpa [aboveLo] using Nat.le_of_lt (by simpa [aboveLo] using ha))
        · rename_i hv
          rw [wfFrom_cons]
          simp only [Bool.and_eq_true]
          exact ⟨⟨ha, by simpa using hv⟩, h'.2⟩
      · rename_i hnlt hne
        split
        · exact h
        · rename_i hv
          rw [wfFrom_cons, wfFrom_cons]
          simp only [Bool.and_eq_true]
          refine ⟨⟨ha, by simpa using hv⟩, ⟨?_, h'.1.2⟩, h'.2⟩
          have hne' : b ≠ a := by simpa using hne
          have : a < b := by omega
          simpa [aboveLo] using this

/-- Writing a byte keeps the canonical form. -/
@[simp] theorem wf_wrByte (a : Nat) (v : Byte) (m : Mem) (h : Memory.wf m = true) : Memory.wf (wrByte a v m) = true :=
  wfFrom_wrByte none a v m h rfl

/-- Writing bytes keeps the canonical form. -/
@[simp] theorem wf_wrBytes (a : Nat) (bs : List Byte) (m : Mem) (h : Memory.wf m = true) : Memory.wf (wrBytes a bs m) = true := by
  induction bs generalizing a m with
  | nil => exact h
  | cons b r ih => exact ih (a + 1) (wrByte a b m) (wf_wrByte a b m h)

/-- Writing a number keeps the canonical form. -/
@[simp] theorem wf_wrNat (a n v : Nat) (m : Mem) (h : Memory.wf m = true) : Memory.wf (wrNat a n v m) = true :=
  wf_wrBytes _ _ _ h

/-- Writing words keeps the canonical form. -/
@[simp] theorem wf_wrWords (a : Nat) (ws : List W64) (m : Mem) (h : Memory.wf m = true) : Memory.wf (wrWords a ws m) = true :=
  wf_wrBytes _ _ _ h

/-- Writing a bit field keeps the canonical form. -/
@[simp] theorem wf_wrBits (a o n v : Nat) (m : Mem) (h : Memory.wf m = true) : Memory.wf (wrBits a o n v m) = true :=
  wf_wrNat _ _ _ _ h

/-- Dropping entries keeps the form. -/
theorem wfFrom_filter (p : Host.Cell → Bool) (lo : Option Nat) (m : Mem) (h : Mem.wfFrom lo m = true) :
    Mem.wfFrom lo (m.filter p) = true := by
  induction m generalizing lo with
  | nil => exact h
  | cons c r ih =>
    obtain ⟨a, v⟩ := c
    rw [wfFrom_cons] at h
    simp only [Bool.and_eq_true] at h
    rw [List.filter_cons]
    split
    · rw [wfFrom_cons]
      simp only [Bool.and_eq_true]
      exact ⟨h.1, ih (some a) h.2⟩
    · refine ih lo (wfFrom_lower lo a r h.2 ?_)
      intro l hl
      subst hl
      have : l < a := by simpa [aboveLo] using h.1.1
      omega

/-- Zeroing a range keeps the canonical form. -/
@[simp] theorem wf_zeroRange (a n : Nat) (m : Mem) (h : Memory.wf m = true) : Memory.wf (zeroRange a n m) = true :=
  wfFrom_filter _ none m h

/-- A fold of operations that keep the canonical form keeps it. -/
theorem wf_foldl {β : Type} (f : Mem → β → Mem) (l : List β) (m : Mem)
    (hf : ∀ m b, Memory.wf m = true → Memory.wf (f m b) = true) (h : Memory.wf m = true) : Memory.wf (l.foldl f m) = true := by
  induction l generalizing m with
  | nil => exact h
  | cons b r ih => exact ih (f m b) (hf m b h)

/-- Memory with nothing listed has the canonical form. -/
@[simp] theorem wf_nil : Memory.wf [] = true := rfl

/-! Reading after writing. -/

/-- A write leaves every other byte as it is. -/
theorem rdByte_wrByte_other (a b : Nat) (v : Byte) (m : Mem) (h : b ≠ a) : rdByte b (wrByte a v m) = rdByte b m := by
  induction m with
  | nil =>
    simp only [wrByte]
    split
    · rfl
    · have : (a == b) = false := by simpa using fun e => h e.symm
      simp [rdByte, this]
  | cons p r ih =>
    obtain ⟨c, w⟩ := p
    have hab : (a == b) = false := by simpa using fun e => h e.symm
    simp only [wrByte]
    split
    · simp only [rdByte, ih]
    · split
      · rename_i heq
        have hca : c = a := by simpa using heq
        subst hca
        split
        · simp [rdByte, hab]
        · simp [rdByte, hab]
      · split
        · rfl
        · simp [rdByte, hab]

/-- Above a bound, a byte read after it is written is the byte written. -/
theorem rdByte_wrByte_from (lo : Option Nat) (a : Nat) (v : Byte) (m : Mem) (h : Mem.wfFrom lo m = true) :
    rdByte a (wrByte a v m) = v := by
  induction m generalizing lo with
  | nil =>
    simp only [wrByte]
    split
    · rename_i hv
      have : v = emptyByte := by simpa using hv
      simp [rdByte, this]
    · simp [rdByte]
  | cons p r ih =>
    obtain ⟨b, w⟩ := p
    rw [wfFrom_cons] at h
    simp only [Bool.and_eq_true] at h
    simp only [wrByte]
    split
    · rename_i hlt
      have : (b == a) = false := by simp; omega
      simp only [rdByte, this]
      exact ih (some b) h.2
    · split
      · rename_i hnlt heq
        have hba : b = a := by simpa using heq
        subst hba
        split
        · rename_i hv
          have hv' : v = emptyByte := by simpa using hv
          rw [hv']
          exact rdByte_below b b r h.2 (Nat.le_refl b)
        · simp [rdByte]
      · rename_i hnlt hne
        have hne' : b ≠ a := by simpa using hne
        split
        · rename_i hv
          have hv' : v = emptyByte := by simpa using hv
          have : (b == a) = false := by simpa using hne'
          simp only [rdByte, this, hv']
          exact rdByte_below b a r h.2 (by omega)
        · simp [rdByte]

/-- A byte read after it is written is the byte written. -/
theorem rdByte_wrByte_same (a : Nat) (v : Byte) (m : Mem) (h : Memory.wf m = true) : rdByte a (wrByte a v m) = v :=
  rdByte_wrByte_from none a v m h

/-- Writing bytes leaves every byte outside them as it is. -/
theorem rdByte_wrBytes_other (a b : Nat) (bs : List Byte) (m : Mem) (h : b < a ∨ a + bs.length ≤ b) :
    rdByte b (wrBytes a bs m) = rdByte b m := by
  induction bs generalizing a m with
  | nil => rfl
  | cons x r ih =>
    simp only [List.length_cons] at h
    simp only [wrBytes]
    rw [ih (a + 1) (wrByte a x m) (by omega), rdByte_wrByte_other a b x m (by omega)]

/-- A byte read after a write of bytes that covers it is the one written there. -/
theorem rdByte_wrBytes_in (a i : Nat) (bs : List Byte) (m : Mem) (h : Memory.wf m = true) (hi : i < bs.length) :
    rdByte (a + i) (wrBytes a bs m) = bs[i] := by
  induction bs generalizing a i m with
  | nil => exact absurd hi (Nat.not_lt_zero i)
  | cons x r ih =>
    simp only [wrBytes]
    cases i with
    | zero =>
      rw [Nat.add_zero, rdByte_wrBytes_other (a + 1) a r _ (by omega)]
      simpa using rdByte_wrByte_same a x m h
    | succ k =>
      have := ih (a + 1) k (wrByte a x m) (wf_wrByte a x m h) (by simpa using hi)
      rw [show a + (k + 1) = a + 1 + k by omega]
      simpa using this

/-- Zeroing a range: bytes in it read zero. -/
theorem rdByte_zeroRange_in (a n b : Nat) (m : Mem) (h : a ≤ b ∧ b < a + n) : rdByte b (zeroRange a n m) = emptyByte := by
  induction m with
  | nil => rfl
  | cons p r ih =>
    obtain ⟨c, v⟩ := p
    simp only [zeroRange, List.filter_cons] at *
    split
    · rename_i hc
      have : (c == b) = false := by
        simp only [Bool.not_eq_true', Bool.and_eq_false_iff, decide_eq_false_iff_not] at hc
        simp; omega
      simp only [rdByte, this]
      exact ih
    · exact ih

/-- Zeroing a range: bytes outside it stay. -/
theorem rdByte_zeroRange_other (a n b : Nat) (m : Mem) (h : b < a ∨ a + n ≤ b) : rdByte b (zeroRange a n m) = rdByte b m := by
  induction m with
  | nil => rfl
  | cons p r ih =>
    obtain ⟨c, v⟩ := p
    simp only [zeroRange, List.filter_cons] at *
    split
    · simp only [rdByte, ih]
    · rename_i hc
      have : (c == b) = false := by
        simp only [Bool.not_eq_true', Bool.and_eq_false_iff, decide_eq_false_iff_not] at hc
        simp; omega
      simp only [rdByte, this]
      exact ih

end Sys2Proof.Machine
end

