-- ==== Sys2Proof/Laws/State.lean ====
section
/-! SUPPORT. Laws/State.lean: what each named update of one field of the state does to every field. -/
namespace Sys2Proof.Machine

variable (s : State)

/-! `send` changes `out` alone. -/
@[simp] theorem send_pending (o : Out) : (send o s).pending = s.pending := rfl
@[simp] theorem send_out (o : Out) : (send o s).out = s.out ++ [o] := rfl
@[simp] theorem send_free (o : Out) : (send o s).free = s.free := rfl
@[simp] theorem send_aon (o : Out) : (send o s).aon = s.aon := rfl
@[simp] theorem send_wake (o : Out) : (send o s).wake = s.wake := rfl
@[simp] theorem send_flash (o : Out) : (send o s).flash = s.flash := rfl
@[simp] theorem send_fuses (o : Out) : (send o s).fuses = s.fuses := rfl
@[simp] theorem send_boot (o : Out) : (send o s).boot = s.boot := rfl
@[simp] theorem send_clk (o : Out) : (send o s).clk = s.clk := rfl
@[simp] theorem send_cwk (o : Out) : (send o s).cwk = s.cwk := rfl
@[simp] theorem send_power (o : Out) : (send o s).power = s.power := rfl
@[simp] theorem send_thermal (o : Out) : (send o s).thermal = s.thermal := rfl
@[simp] theorem send_ports (o : Out) : (send o s).ports = s.ports := rfl
@[simp] theorem send_parts (o : Out) : (send o s).parts = s.parts := rfl
@[simp] theorem send_mail (o : Out) : (send o s).mail = s.mail := rfl
@[simp] theorem send_gated (o : Out) : (send o s).gated = s.gated := rfl
@[simp] theorem send_replies (o : Out) : (send o s).replies = s.replies := rfl
@[simp] theorem send_orders (o : Out) : (send o s).orders = s.orders := rfl
@[simp] theorem send_latches (o : Out) : (send o s).latches = s.latches := rfl
@[simp] theorem send_mgmt (o : Out) : (send o s).mgmt = s.mgmt := rfl
@[simp] theorem send_update (o : Out) : (send o s).update = s.update := rfl
@[simp] theorem send_mirror (o : Out) : (send o s).mirror = s.mirror := rfl
@[simp] theorem send_tap (o : Out) : (send o s).tap = s.tap := rfl
@[simp] theorem send_mem (o : Out) : (send o s).mem = s.mem := rfl
@[simp] theorem send_poison (o : Out) : (send o s).poison = s.poison := rfl
@[simp] theorem send_pools (o : Out) : (send o s).pools = s.pools := rfl
@[simp] theorem send_addq (o : Out) : (send o s).addq = s.addq := rfl
@[simp] theorem send_jobs (o : Out) : (send o s).jobs = s.jobs := rfl
@[simp] theorem send_dp (o : Out) : (send o s).dp = s.dp := rfl
@[simp] theorem send_faults (o : Out) : (send o s).faults = s.faults := rfl
@[simp] theorem send_fab (o : Out) : (send o s).fab = s.fab := rfl

/-! `sendAll` changes `out` alone. -/
@[simp] theorem sendAll_pending (os : List Out) : (sendAll os s).pending = s.pending := rfl
@[simp] theorem sendAll_out (os : List Out) : (sendAll os s).out = s.out ++ os := rfl
@[simp] theorem sendAll_free (os : List Out) : (sendAll os s).free = s.free := rfl
@[simp] theorem sendAll_aon (os : List Out) : (sendAll os s).aon = s.aon := rfl
@[simp] theorem sendAll_wake (os : List Out) : (sendAll os s).wake = s.wake := rfl
@[simp] theorem sendAll_flash (os : List Out) : (sendAll os s).flash = s.flash := rfl
@[simp] theorem sendAll_fuses (os : List Out) : (sendAll os s).fuses = s.fuses := rfl
@[simp] theorem sendAll_boot (os : List Out) : (sendAll os s).boot = s.boot := rfl
@[simp] theorem sendAll_clk (os : List Out) : (sendAll os s).clk = s.clk := rfl
@[simp] theorem sendAll_cwk (os : List Out) : (sendAll os s).cwk = s.cwk := rfl
@[simp] theorem sendAll_power (os : List Out) : (sendAll os s).power = s.power := rfl
@[simp] theorem sendAll_thermal (os : List Out) : (sendAll os s).thermal = s.thermal := rfl
@[simp] theorem sendAll_ports (os : List Out) : (sendAll os s).ports = s.ports := rfl
@[simp] theorem sendAll_parts (os : List Out) : (sendAll os s).parts = s.parts := rfl
@[simp] theorem sendAll_mail (os : List Out) : (sendAll os s).mail = s.mail := rfl
@[simp] theorem sendAll_gated (os : List Out) : (sendAll os s).gated = s.gated := rfl
@[simp] theorem sendAll_replies (os : List Out) : (sendAll os s).replies = s.replies := rfl
@[simp] theorem sendAll_orders (os : List Out) : (sendAll os s).orders = s.orders := rfl
@[simp] theorem sendAll_latches (os : List Out) : (sendAll os s).latches = s.latches := rfl
@[simp] theorem sendAll_mgmt (os : List Out) : (sendAll os s).mgmt = s.mgmt := rfl
@[simp] theorem sendAll_update (os : List Out) : (sendAll os s).update = s.update := rfl
@[simp] theorem sendAll_mirror (os : List Out) : (sendAll os s).mirror = s.mirror := rfl
@[simp] theorem sendAll_tap (os : List Out) : (sendAll os s).tap = s.tap := rfl
@[simp] theorem sendAll_mem (os : List Out) : (sendAll os s).mem = s.mem := rfl
@[simp] theorem sendAll_poison (os : List Out) : (sendAll os s).poison = s.poison := rfl
@[simp] theorem sendAll_pools (os : List Out) : (sendAll os s).pools = s.pools := rfl
@[simp] theorem sendAll_addq (os : List Out) : (sendAll os s).addq = s.addq := rfl
@[simp] theorem sendAll_jobs (os : List Out) : (sendAll os s).jobs = s.jobs := rfl
@[simp] theorem sendAll_dp (os : List Out) : (sendAll os s).dp = s.dp := rfl
@[simp] theorem sendAll_faults (os : List Out) : (sendAll os s).faults = s.faults := rfl
@[simp] theorem sendAll_fab (os : List Out) : (sendAll os s).fab = s.fab := rfl

/-! `onPort` changes `ports` alone. -/
@[simp] theorem onPort_pending (n : Nat) (f : Port → Port) : (onPort n f s).pending = s.pending := rfl
@[simp] theorem onPort_out (n : Nat) (f : Port → Port) : (onPort n f s).out = s.out := rfl
@[simp] theorem onPort_free (n : Nat) (f : Port → Port) : (onPort n f s).free = s.free := rfl
@[simp] theorem onPort_aon (n : Nat) (f : Port → Port) : (onPort n f s).aon = s.aon := rfl
@[simp] theorem onPort_wake (n : Nat) (f : Port → Port) : (onPort n f s).wake = s.wake := rfl
@[simp] theorem onPort_flash (n : Nat) (f : Port → Port) : (onPort n f s).flash = s.flash := rfl
@[simp] theorem onPort_fuses (n : Nat) (f : Port → Port) : (onPort n f s).fuses = s.fuses := rfl
@[simp] theorem onPort_boot (n : Nat) (f : Port → Port) : (onPort n f s).boot = s.boot := rfl
@[simp] theorem onPort_clk (n : Nat) (f : Port → Port) : (onPort n f s).clk = s.clk := rfl
@[simp] theorem onPort_cwk (n : Nat) (f : Port → Port) : (onPort n f s).cwk = s.cwk := rfl
@[simp] theorem onPort_power (n : Nat) (f : Port → Port) : (onPort n f s).power = s.power := rfl
@[simp] theorem onPort_thermal (n : Nat) (f : Port → Port) : (onPort n f s).thermal = s.thermal := rfl
@[simp] theorem onPort_ports (n : Nat) (f : Port → Port) : (onPort n f s).ports = upd s.ports n f := rfl
@[simp] theorem onPort_parts (n : Nat) (f : Port → Port) : (onPort n f s).parts = s.parts := rfl
@[simp] theorem onPort_mail (n : Nat) (f : Port → Port) : (onPort n f s).mail = s.mail := rfl
@[simp] theorem onPort_gated (n : Nat) (f : Port → Port) : (onPort n f s).gated = s.gated := rfl
@[simp] theorem onPort_replies (n : Nat) (f : Port → Port) : (onPort n f s).replies = s.replies := rfl
@[simp] theorem onPort_orders (n : Nat) (f : Port → Port) : (onPort n f s).orders = s.orders := rfl
@[simp] theorem onPort_latches (n : Nat) (f : Port → Port) : (onPort n f s).latches = s.latches := rfl
@[simp] theorem onPort_mgmt (n : Nat) (f : Port → Port) : (onPort n f s).mgmt = s.mgmt := rfl
@[simp] theorem onPort_update (n : Nat) (f : Port → Port) : (onPort n f s).update = s.update := rfl
@[simp] theorem onPort_mirror (n : Nat) (f : Port → Port) : (onPort n f s).mirror = s.mirror := rfl
@[simp] theorem onPort_tap (n : Nat) (f : Port → Port) : (onPort n f s).tap = s.tap := rfl
@[simp] theorem onPort_mem (n : Nat) (f : Port → Port) : (onPort n f s).mem = s.mem := rfl
@[simp] theorem onPort_poison (n : Nat) (f : Port → Port) : (onPort n f s).poison = s.poison := rfl
@[simp] theorem onPort_pools (n : Nat) (f : Port → Port) : (onPort n f s).pools = s.pools := rfl
@[simp] theorem onPort_addq (n : Nat) (f : Port → Port) : (onPort n f s).addq = s.addq := rfl
@[simp] theorem onPort_jobs (n : Nat) (f : Port → Port) : (onPort n f s).jobs = s.jobs := rfl
@[simp] theorem onPort_dp (n : Nat) (f : Port → Port) : (onPort n f s).dp = s.dp := rfl
@[simp] theorem onPort_faults (n : Nat) (f : Port → Port) : (onPort n f s).faults = s.faults := rfl
@[simp] theorem onPort_fab (n : Nat) (f : Port → Port) : (onPort n f s).fab = s.fab := rfl

/-! `onPart` changes `parts` alone. -/
@[simp] theorem onPart_pending (n : Nat) (f : Part → Part) : (onPart n f s).pending = s.pending := rfl
@[simp] theorem onPart_out (n : Nat) (f : Part → Part) : (onPart n f s).out = s.out := rfl
@[simp] theorem onPart_free (n : Nat) (f : Part → Part) : (onPart n f s).free = s.free := rfl
@[simp] theorem onPart_aon (n : Nat) (f : Part → Part) : (onPart n f s).aon = s.aon := rfl
@[simp] theorem onPart_wake (n : Nat) (f : Part → Part) : (onPart n f s).wake = s.wake := rfl
@[simp] theorem onPart_flash (n : Nat) (f : Part → Part) : (onPart n f s).flash = s.flash := rfl
@[simp] theorem onPart_fuses (n : Nat) (f : Part → Part) : (onPart n f s).fuses = s.fuses := rfl
@[simp] theorem onPart_boot (n : Nat) (f : Part → Part) : (onPart n f s).boot = s.boot := rfl
@[simp] theorem onPart_clk (n : Nat) (f : Part → Part) : (onPart n f s).clk = s.clk := rfl
@[simp] theorem onPart_cwk (n : Nat) (f : Part → Part) : (onPart n f s).cwk = s.cwk := rfl
@[simp] theorem onPart_power (n : Nat) (f : Part → Part) : (onPart n f s).power = s.power := rfl
@[simp] theorem onPart_thermal (n : Nat) (f : Part → Part) : (onPart n f s).thermal = s.thermal := rfl
@[simp] theorem onPart_ports (n : Nat) (f : Part → Part) : (onPart n f s).ports = s.ports := rfl
@[simp] theorem onPart_parts (n : Nat) (f : Part → Part) : (onPart n f s).parts = upd s.parts n f := rfl
@[simp] theorem onPart_mail (n : Nat) (f : Part → Part) : (onPart n f s).mail = s.mail := rfl
@[simp] theorem onPart_gated (n : Nat) (f : Part → Part) : (onPart n f s).gated = s.gated := rfl
@[simp] theorem onPart_replies (n : Nat) (f : Part → Part) : (onPart n f s).replies = s.replies := rfl
@[simp] theorem onPart_orders (n : Nat) (f : Part → Part) : (onPart n f s).orders = s.orders := rfl
@[simp] theorem onPart_latches (n : Nat) (f : Part → Part) : (onPart n f s).latches = s.latches := rfl
@[simp] theorem onPart_mgmt (n : Nat) (f : Part → Part) : (onPart n f s).mgmt = s.mgmt := rfl
@[simp] theorem onPart_update (n : Nat) (f : Part → Part) : (onPart n f s).update = s.update := rfl
@[simp] theorem onPart_mirror (n : Nat) (f : Part → Part) : (onPart n f s).mirror = s.mirror := rfl
@[simp] theorem onPart_tap (n : Nat) (f : Part → Part) : (onPart n f s).tap = s.tap := rfl
@[simp] theorem onPart_mem (n : Nat) (f : Part → Part) : (onPart n f s).mem = s.mem := rfl
@[simp] theorem onPart_poison (n : Nat) (f : Part → Part) : (onPart n f s).poison = s.poison := rfl
@[simp] theorem onPart_pools (n : Nat) (f : Part → Part) : (onPart n f s).pools = s.pools := rfl
@[simp] theorem onPart_addq (n : Nat) (f : Part → Part) : (onPart n f s).addq = s.addq := rfl
@[simp] theorem onPart_jobs (n : Nat) (f : Part → Part) : (onPart n f s).jobs = s.jobs := rfl
@[simp] theorem onPart_dp (n : Nat) (f : Part → Part) : (onPart n f s).dp = s.dp := rfl
@[simp] theorem onPart_faults (n : Nat) (f : Part → Part) : (onPart n f s).faults = s.faults := rfl
@[simp] theorem onPart_fab (n : Nat) (f : Part → Part) : (onPart n f s).fab = s.fab := rfl

/-! `onChan` changes `mail` alone. -/
@[simp] theorem onChan_pending (c : Nat) (f : Mailbox → Mailbox) : (onChan c f s).pending = s.pending := rfl
@[simp] theorem onChan_out (c : Nat) (f : Mailbox → Mailbox) : (onChan c f s).out = s.out := rfl
@[simp] theorem onChan_free (c : Nat) (f : Mailbox → Mailbox) : (onChan c f s).free = s.free := rfl
@[simp] theorem onChan_aon (c : Nat) (f : Mailbox → Mailbox) : (onChan c f s).aon = s.aon := rfl
@[simp] theorem onChan_wake (c : Nat) (f : Mailbox → Mailbox) : (onChan c f s).wake = s.wake := rfl
@[simp] theorem onChan_flash (c : Nat) (f : Mailbox → Mailbox) : (onChan c f s).flash = s.flash := rfl
@[simp] theorem onChan_fuses (c : Nat) (f : Mailbox → Mailbox) : (onChan c f s).fuses = s.fuses := rfl
@[simp] theorem onChan_boot (c : Nat) (f : Mailbox → Mailbox) : (onChan c f s).boot = s.boot := rfl
@[simp] theorem onChan_clk (c : Nat) (f : Mailbox → Mailbox) : (onChan c f s).clk = s.clk := rfl
@[simp] theorem onChan_cwk (c : Nat) (f : Mailbox → Mailbox) : (onChan c f s).cwk = s.cwk := rfl
@[simp] theorem onChan_power (c : Nat) (f : Mailbox → Mailbox) : (onChan c f s).power = s.power := rfl
@[simp] theorem onChan_thermal (c : Nat) (f : Mailbox → Mailbox) : (onChan c f s).thermal = s.thermal := rfl
@[simp] theorem onChan_ports (c : Nat) (f : Mailbox → Mailbox) : (onChan c f s).ports = s.ports := rfl
@[simp] theorem onChan_parts (c : Nat) (f : Mailbox → Mailbox) : (onChan c f s).parts = s.parts := rfl
@[simp] theorem onChan_mail (c : Nat) (f : Mailbox → Mailbox) : (onChan c f s).mail = upd s.mail c f := rfl
@[simp] theorem onChan_gated (c : Nat) (f : Mailbox → Mailbox) : (onChan c f s).gated = s.gated := rfl
@[simp] theorem onChan_replies (c : Nat) (f : Mailbox → Mailbox) : (onChan c f s).replies = s.replies := rfl
@[simp] theorem onChan_orders (c : Nat) (f : Mailbox → Mailbox) : (onChan c f s).orders = s.orders := rfl
@[simp] theorem onChan_latches (c : Nat) (f : Mailbox → Mailbox) : (onChan c f s).latches = s.latches := rfl
@[simp] theorem onChan_mgmt (c : Nat) (f : Mailbox → Mailbox) : (onChan c f s).mgmt = s.mgmt := rfl
@[simp] theorem onChan_update (c : Nat) (f : Mailbox → Mailbox) : (onChan c f s).update = s.update := rfl
@[simp] theorem onChan_mirror (c : Nat) (f : Mailbox → Mailbox) : (onChan c f s).mirror = s.mirror := rfl
@[simp] theorem onChan_tap (c : Nat) (f : Mailbox → Mailbox) : (onChan c f s).tap = s.tap := rfl
@[simp] theorem onChan_mem (c : Nat) (f : Mailbox → Mailbox) : (onChan c f s).mem = s.mem := rfl
@[simp] theorem onChan_poison (c : Nat) (f : Mailbox → Mailbox) : (onChan c f s).poison = s.poison := rfl
@[simp] theorem onChan_pools (c : Nat) (f : Mailbox → Mailbox) : (onChan c f s).pools = s.pools := rfl
@[simp] theorem onChan_addq (c : Nat) (f : Mailbox → Mailbox) : (onChan c f s).addq = s.addq := rfl
@[simp] theorem onChan_jobs (c : Nat) (f : Mailbox → Mailbox) : (onChan c f s).jobs = s.jobs := rfl
@[simp] theorem onChan_dp (c : Nat) (f : Mailbox → Mailbox) : (onChan c f s).dp = s.dp := rfl
@[simp] theorem onChan_faults (c : Nat) (f : Mailbox → Mailbox) : (onChan c f s).faults = s.faults := rfl
@[simp] theorem onChan_fab (c : Nat) (f : Mailbox → Mailbox) : (onChan c f s).fab = s.fab := rfl

/-! `onPool` changes `pools` alone. -/
@[simp] theorem onPool_pending (k : Nat) (f : Pool → Pool) : (onPool k f s).pending = s.pending := rfl
@[simp] theorem onPool_out (k : Nat) (f : Pool → Pool) : (onPool k f s).out = s.out := rfl
@[simp] theorem onPool_free (k : Nat) (f : Pool → Pool) : (onPool k f s).free = s.free := rfl
@[simp] theorem onPool_aon (k : Nat) (f : Pool → Pool) : (onPool k f s).aon = s.aon := rfl
@[simp] theorem onPool_wake (k : Nat) (f : Pool → Pool) : (onPool k f s).wake = s.wake := rfl
@[simp] theorem onPool_flash (k : Nat) (f : Pool → Pool) : (onPool k f s).flash = s.flash := rfl
@[simp] theorem onPool_fuses (k : Nat) (f : Pool → Pool) : (onPool k f s).fuses = s.fuses := rfl
@[simp] theorem onPool_boot (k : Nat) (f : Pool → Pool) : (onPool k f s).boot = s.boot := rfl
@[simp] theorem onPool_clk (k : Nat) (f : Pool → Pool) : (onPool k f s).clk = s.clk := rfl
@[simp] theorem onPool_cwk (k : Nat) (f : Pool → Pool) : (onPool k f s).cwk = s.cwk := rfl
@[simp] theorem onPool_power (k : Nat) (f : Pool → Pool) : (onPool k f s).power = s.power := rfl
@[simp] theorem onPool_thermal (k : Nat) (f : Pool → Pool) : (onPool k f s).thermal = s.thermal := rfl
@[simp] theorem onPool_ports (k : Nat) (f : Pool → Pool) : (onPool k f s).ports = s.ports := rfl
@[simp] theorem onPool_parts (k : Nat) (f : Pool → Pool) : (onPool k f s).parts = s.parts := rfl
@[simp] theorem onPool_mail (k : Nat) (f : Pool → Pool) : (onPool k f s).mail = s.mail := rfl
@[simp] theorem onPool_gated (k : Nat) (f : Pool → Pool) : (onPool k f s).gated = s.gated := rfl
@[simp] theorem onPool_replies (k : Nat) (f : Pool → Pool) : (onPool k f s).replies = s.replies := rfl
@[simp] theorem onPool_orders (k : Nat) (f : Pool → Pool) : (onPool k f s).orders = s.orders := rfl
@[simp] theorem onPool_latches (k : Nat) (f : Pool → Pool) : (onPool k f s).latches = s.latches := rfl
@[simp] theorem onPool_mgmt (k : Nat) (f : Pool → Pool) : (onPool k f s).mgmt = s.mgmt := rfl
@[simp] theorem onPool_update (k : Nat) (f : Pool → Pool) : (onPool k f s).update = s.update := rfl
@[simp] theorem onPool_mirror (k : Nat) (f : Pool → Pool) : (onPool k f s).mirror = s.mirror := rfl
@[simp] theorem onPool_tap (k : Nat) (f : Pool → Pool) : (onPool k f s).tap = s.tap := rfl
@[simp] theorem onPool_mem (k : Nat) (f : Pool → Pool) : (onPool k f s).mem = s.mem := rfl
@[simp] theorem onPool_poison (k : Nat) (f : Pool → Pool) : (onPool k f s).poison = s.poison := rfl
@[simp] theorem onPool_pools (k : Nat) (f : Pool → Pool) : (onPool k f s).pools = upd s.pools k f := rfl
@[simp] theorem onPool_addq (k : Nat) (f : Pool → Pool) : (onPool k f s).addq = s.addq := rfl
@[simp] theorem onPool_jobs (k : Nat) (f : Pool → Pool) : (onPool k f s).jobs = s.jobs := rfl
@[simp] theorem onPool_dp (k : Nat) (f : Pool → Pool) : (onPool k f s).dp = s.dp := rfl
@[simp] theorem onPool_faults (k : Nat) (f : Pool → Pool) : (onPool k f s).faults = s.faults := rfl
@[simp] theorem onPool_fab (k : Nat) (f : Pool → Pool) : (onPool k f s).fab = s.fab := rfl

/-! `onJob` changes `jobs` alone. -/
@[simp] theorem onJob_pending (p n : Nat) (f : Job → Job) : (onJob p n f s).pending = s.pending := rfl
@[simp] theorem onJob_out (p n : Nat) (f : Job → Job) : (onJob p n f s).out = s.out := rfl
@[simp] theorem onJob_free (p n : Nat) (f : Job → Job) : (onJob p n f s).free = s.free := rfl
@[simp] theorem onJob_aon (p n : Nat) (f : Job → Job) : (onJob p n f s).aon = s.aon := rfl
@[simp] theorem onJob_wake (p n : Nat) (f : Job → Job) : (onJob p n f s).wake = s.wake := rfl
@[simp] theorem onJob_flash (p n : Nat) (f : Job → Job) : (onJob p n f s).flash = s.flash := rfl
@[simp] theorem onJob_fuses (p n : Nat) (f : Job → Job) : (onJob p n f s).fuses = s.fuses := rfl
@[simp] theorem onJob_boot (p n : Nat) (f : Job → Job) : (onJob p n f s).boot = s.boot := rfl
@[simp] theorem onJob_clk (p n : Nat) (f : Job → Job) : (onJob p n f s).clk = s.clk := rfl
@[simp] theorem onJob_cwk (p n : Nat) (f : Job → Job) : (onJob p n f s).cwk = s.cwk := rfl
@[simp] theorem onJob_power (p n : Nat) (f : Job → Job) : (onJob p n f s).power = s.power := rfl
@[simp] theorem onJob_thermal (p n : Nat) (f : Job → Job) : (onJob p n f s).thermal = s.thermal := rfl
@[simp] theorem onJob_ports (p n : Nat) (f : Job → Job) : (onJob p n f s).ports = s.ports := rfl
@[simp] theorem onJob_parts (p n : Nat) (f : Job → Job) : (onJob p n f s).parts = s.parts := rfl
@[simp] theorem onJob_mail (p n : Nat) (f : Job → Job) : (onJob p n f s).mail = s.mail := rfl
@[simp] theorem onJob_gated (p n : Nat) (f : Job → Job) : (onJob p n f s).gated = s.gated := rfl
@[simp] theorem onJob_replies (p n : Nat) (f : Job → Job) : (onJob p n f s).replies = s.replies := rfl
@[simp] theorem onJob_orders (p n : Nat) (f : Job → Job) : (onJob p n f s).orders = s.orders := rfl
@[simp] theorem onJob_latches (p n : Nat) (f : Job → Job) : (onJob p n f s).latches = s.latches := rfl
@[simp] theorem onJob_mgmt (p n : Nat) (f : Job → Job) : (onJob p n f s).mgmt = s.mgmt := rfl
@[simp] theorem onJob_update (p n : Nat) (f : Job → Job) : (onJob p n f s).update = s.update := rfl
@[simp] theorem onJob_mirror (p n : Nat) (f : Job → Job) : (onJob p n f s).mirror = s.mirror := rfl
@[simp] theorem onJob_tap (p n : Nat) (f : Job → Job) : (onJob p n f s).tap = s.tap := rfl
@[simp] theorem onJob_mem (p n : Nat) (f : Job → Job) : (onJob p n f s).mem = s.mem := rfl
@[simp] theorem onJob_poison (p n : Nat) (f : Job → Job) : (onJob p n f s).poison = s.poison := rfl
@[simp] theorem onJob_pools (p n : Nat) (f : Job → Job) : (onJob p n f s).pools = s.pools := rfl
@[simp] theorem onJob_addq (p n : Nat) (f : Job → Job) : (onJob p n f s).addq = s.addq := rfl
@[simp] theorem onJob_jobs (p n : Nat) (f : Job → Job) : (onJob p n f s).jobs = s.jobs.map fun j => if j.part == p && j.num == n then f j else j := rfl
@[simp] theorem onJob_dp (p n : Nat) (f : Job → Job) : (onJob p n f s).dp = s.dp := rfl
@[simp] theorem onJob_faults (p n : Nat) (f : Job → Job) : (onJob p n f s).faults = s.faults := rfl
@[simp] theorem onJob_fab (p n : Nat) (f : Job → Job) : (onJob p n f s).fab = s.fab := rfl

/-! `onFab` changes `fab` alone. -/
@[simp] theorem onFab_pending (f : Fabric → Fabric) : (onFab f s).pending = s.pending := rfl
@[simp] theorem onFab_out (f : Fabric → Fabric) : (onFab f s).out = s.out := rfl
@[simp] theorem onFab_free (f : Fabric → Fabric) : (onFab f s).free = s.free := rfl
@[simp] theorem onFab_aon (f : Fabric → Fabric) : (onFab f s).aon = s.aon := rfl
@[simp] theorem onFab_wake (f : Fabric → Fabric) : (onFab f s).wake = s.wake := rfl
@[simp] theorem onFab_flash (f : Fabric → Fabric) : (onFab f s).flash = s.flash := rfl
@[simp] theorem onFab_fuses (f : Fabric → Fabric) : (onFab f s).fuses = s.fuses := rfl
@[simp] theorem onFab_boot (f : Fabric → Fabric) : (onFab f s).boot = s.boot := rfl
@[simp] theorem onFab_clk (f : Fabric → Fabric) : (onFab f s).clk = s.clk := rfl
@[simp] theorem onFab_cwk (f : Fabric → Fabric) : (onFab f s).cwk = s.cwk := rfl
@[simp] theorem onFab_power (f : Fabric → Fabric) : (onFab f s).power = s.power := rfl
@[simp] theorem onFab_thermal (f : Fabric → Fabric) : (onFab f s).thermal = s.thermal := rfl
@[simp] theorem onFab_ports (f : Fabric → Fabric) : (onFab f s).ports = s.ports := rfl
@[simp] theorem onFab_parts (f : Fabric → Fabric) : (onFab f s).parts = s.parts := rfl
@[simp] theorem onFab_mail (f : Fabric → Fabric) : (onFab f s).mail = s.mail := rfl
@[simp] theorem onFab_gated (f : Fabric → Fabric) : (onFab f s).gated = s.gated := rfl
@[simp] theorem onFab_replies (f : Fabric → Fabric) : (onFab f s).replies = s.replies := rfl
@[simp] theorem onFab_orders (f : Fabric → Fabric) : (onFab f s).orders = s.orders := rfl
@[simp] theorem onFab_latches (f : Fabric → Fabric) : (onFab f s).latches = s.latches := rfl
@[simp] theorem onFab_mgmt (f : Fabric → Fabric) : (onFab f s).mgmt = s.mgmt := rfl
@[simp] theorem onFab_update (f : Fabric → Fabric) : (onFab f s).update = s.update := rfl
@[simp] theorem onFab_mirror (f : Fabric → Fabric) : (onFab f s).mirror = s.mirror := rfl
@[simp] theorem onFab_tap (f : Fabric → Fabric) : (onFab f s).tap = s.tap := rfl
@[simp] theorem onFab_mem (f : Fabric → Fabric) : (onFab f s).mem = s.mem := rfl
@[simp] theorem onFab_poison (f : Fabric → Fabric) : (onFab f s).poison = s.poison := rfl
@[simp] theorem onFab_pools (f : Fabric → Fabric) : (onFab f s).pools = s.pools := rfl
@[simp] theorem onFab_addq (f : Fabric → Fabric) : (onFab f s).addq = s.addq := rfl
@[simp] theorem onFab_jobs (f : Fabric → Fabric) : (onFab f s).jobs = s.jobs := rfl
@[simp] theorem onFab_dp (f : Fabric → Fabric) : (onFab f s).dp = s.dp := rfl
@[simp] theorem onFab_faults (f : Fabric → Fabric) : (onFab f s).faults = s.faults := rfl
@[simp] theorem onFab_fab (f : Fabric → Fabric) : (onFab f s).fab = f s.fab := rfl

/-! `onFaults` changes `faults` alone. -/
@[simp] theorem onFaults_pending (f : Faults → Faults) : (onFaults f s).pending = s.pending := rfl
@[simp] theorem onFaults_out (f : Faults → Faults) : (onFaults f s).out = s.out := rfl
@[simp] theorem onFaults_free (f : Faults → Faults) : (onFaults f s).free = s.free := rfl
@[simp] theorem onFaults_aon (f : Faults → Faults) : (onFaults f s).aon = s.aon := rfl
@[simp] theorem onFaults_wake (f : Faults → Faults) : (onFaults f s).wake = s.wake := rfl
@[simp] theorem onFaults_flash (f : Faults → Faults) : (onFaults f s).flash = s.flash := rfl
@[simp] theorem onFaults_fuses (f : Faults → Faults) : (onFaults f s).fuses = s.fuses := rfl
@[simp] theorem onFaults_boot (f : Faults → Faults) : (onFaults f s).boot = s.boot := rfl
@[simp] theorem onFaults_clk (f : Faults → Faults) : (onFaults f s).clk = s.clk := rfl
@[simp] theorem onFaults_cwk (f : Faults → Faults) : (onFaults f s).cwk = s.cwk := rfl
@[simp] theorem onFaults_power (f : Faults → Faults) : (onFaults f s).power = s.power := rfl
@[simp] theorem onFaults_thermal (f : Faults → Faults) : (onFaults f s).thermal = s.thermal := rfl
@[simp] theorem onFaults_ports (f : Faults → Faults) : (onFaults f s).ports = s.ports := rfl
@[simp] theorem onFaults_parts (f : Faults → Faults) : (onFaults f s).parts = s.parts := rfl
@[simp] theorem onFaults_mail (f : Faults → Faults) : (onFaults f s).mail = s.mail := rfl
@[simp] theorem onFaults_gated (f : Faults → Faults) : (onFaults f s).gated = s.gated := rfl
@[simp] theorem onFaults_replies (f : Faults → Faults) : (onFaults f s).replies = s.replies := rfl
@[simp] theorem onFaults_orders (f : Faults → Faults) : (onFaults f s).orders = s.orders := rfl
@[simp] theorem onFaults_latches (f : Faults → Faults) : (onFaults f s).latches = s.latches := rfl
@[simp] theorem onFaults_mgmt (f : Faults → Faults) : (onFaults f s).mgmt = s.mgmt := rfl
@[simp] theorem onFaults_update (f : Faults → Faults) : (onFaults f s).update = s.update := rfl
@[simp] theorem onFaults_mirror (f : Faults → Faults) : (onFaults f s).mirror = s.mirror := rfl
@[simp] theorem onFaults_tap (f : Faults → Faults) : (onFaults f s).tap = s.tap := rfl
@[simp] theorem onFaults_mem (f : Faults → Faults) : (onFaults f s).mem = s.mem := rfl
@[simp] theorem onFaults_poison (f : Faults → Faults) : (onFaults f s).poison = s.poison := rfl
@[simp] theorem onFaults_pools (f : Faults → Faults) : (onFaults f s).pools = s.pools := rfl
@[simp] theorem onFaults_addq (f : Faults → Faults) : (onFaults f s).addq = s.addq := rfl
@[simp] theorem onFaults_jobs (f : Faults → Faults) : (onFaults f s).jobs = s.jobs := rfl
@[simp] theorem onFaults_dp (f : Faults → Faults) : (onFaults f s).dp = s.dp := rfl
@[simp] theorem onFaults_faults (f : Faults → Faults) : (onFaults f s).faults = f s.faults := rfl
@[simp] theorem onFaults_fab (f : Faults → Faults) : (onFaults f s).fab = s.fab := rfl

/-! `onSlot` changes `orders` alone. -/
@[simp] theorem onSlot_pending (m : Nat) (f : OrderSlot → OrderSlot) : (onSlot m f s).pending = s.pending := rfl
@[simp] theorem onSlot_out (m : Nat) (f : OrderSlot → OrderSlot) : (onSlot m f s).out = s.out := rfl
@[simp] theorem onSlot_free (m : Nat) (f : OrderSlot → OrderSlot) : (onSlot m f s).free = s.free := rfl
@[simp] theorem onSlot_aon (m : Nat) (f : OrderSlot → OrderSlot) : (onSlot m f s).aon = s.aon := rfl
@[simp] theorem onSlot_wake (m : Nat) (f : OrderSlot → OrderSlot) : (onSlot m f s).wake = s.wake := rfl
@[simp] theorem onSlot_flash (m : Nat) (f : OrderSlot → OrderSlot) : (onSlot m f s).flash = s.flash := rfl
@[simp] theorem onSlot_fuses (m : Nat) (f : OrderSlot → OrderSlot) : (onSlot m f s).fuses = s.fuses := rfl
@[simp] theorem onSlot_boot (m : Nat) (f : OrderSlot → OrderSlot) : (onSlot m f s).boot = s.boot := rfl
@[simp] theorem onSlot_clk (m : Nat) (f : OrderSlot → OrderSlot) : (onSlot m f s).clk = s.clk := rfl
@[simp] theorem onSlot_cwk (m : Nat) (f : OrderSlot → OrderSlot) : (onSlot m f s).cwk = s.cwk := rfl
@[simp] theorem onSlot_power (m : Nat) (f : OrderSlot → OrderSlot) : (onSlot m f s).power = s.power := rfl
@[simp] theorem onSlot_thermal (m : Nat) (f : OrderSlot → OrderSlot) : (onSlot m f s).thermal = s.thermal := rfl
@[simp] theorem onSlot_ports (m : Nat) (f : OrderSlot → OrderSlot) : (onSlot m f s).ports = s.ports := rfl
@[simp] theorem onSlot_parts (m : Nat) (f : OrderSlot → OrderSlot) : (onSlot m f s).parts = s.parts := rfl
@[simp] theorem onSlot_mail (m : Nat) (f : OrderSlot → OrderSlot) : (onSlot m f s).mail = s.mail := rfl
@[simp] theorem onSlot_gated (m : Nat) (f : OrderSlot → OrderSlot) : (onSlot m f s).gated = s.gated := rfl
@[simp] theorem onSlot_replies (m : Nat) (f : OrderSlot → OrderSlot) : (onSlot m f s).replies = s.replies := rfl
@[simp] theorem onSlot_orders (m : Nat) (f : OrderSlot → OrderSlot) : (onSlot m f s).orders = { s.orders with slots := s.orders.slots.map fun o => if o.mid == m then f o else o } := rfl
@[simp] theorem onSlot_latches (m : Nat) (f : OrderSlot → OrderSlot) : (onSlot m f s).latches = s.latches := rfl
@[simp] theorem onSlot_mgmt (m : Nat) (f : OrderSlot → OrderSlot) : (onSlot m f s).mgmt = s.mgmt := rfl
@[simp] theorem onSlot_update (m : Nat) (f : OrderSlot → OrderSlot) : (onSlot m f s).update = s.update := rfl
@[simp] theorem onSlot_mirror (m : Nat) (f : OrderSlot → OrderSlot) : (onSlot m f s).mirror = s.mirror := rfl
@[simp] theorem onSlot_tap (m : Nat) (f : OrderSlot → OrderSlot) : (onSlot m f s).tap = s.tap := rfl
@[simp] theorem onSlot_mem (m : Nat) (f : OrderSlot → OrderSlot) : (onSlot m f s).mem = s.mem := rfl
@[simp] theorem onSlot_poison (m : Nat) (f : OrderSlot → OrderSlot) : (onSlot m f s).poison = s.poison := rfl
@[simp] theorem onSlot_pools (m : Nat) (f : OrderSlot → OrderSlot) : (onSlot m f s).pools = s.pools := rfl
@[simp] theorem onSlot_addq (m : Nat) (f : OrderSlot → OrderSlot) : (onSlot m f s).addq = s.addq := rfl
@[simp] theorem onSlot_jobs (m : Nat) (f : OrderSlot → OrderSlot) : (onSlot m f s).jobs = s.jobs := rfl
@[simp] theorem onSlot_dp (m : Nat) (f : OrderSlot → OrderSlot) : (onSlot m f s).dp = s.dp := rfl
@[simp] theorem onSlot_faults (m : Nat) (f : OrderSlot → OrderSlot) : (onSlot m f s).faults = s.faults := rfl
@[simp] theorem onSlot_fab (m : Nat) (f : OrderSlot → OrderSlot) : (onSlot m f s).fab = s.fab := rfl

/-! `onSelector` changes `aon` alone. -/
@[simp] theorem onSelector_pending (f : Selector → Selector) : (onSelector f s).pending = s.pending := rfl
@[simp] theorem onSelector_out (f : Selector → Selector) : (onSelector f s).out = s.out := rfl
@[simp] theorem onSelector_free (f : Selector → Selector) : (onSelector f s).free = s.free := rfl
@[simp] theorem onSelector_aon (f : Selector → Selector) : (onSelector f s).aon = { s.aon with selector := f s.aon.selector } := rfl
@[simp] theorem onSelector_wake (f : Selector → Selector) : (onSelector f s).wake = s.wake := rfl
@[simp] theorem onSelector_flash (f : Selector → Selector) : (onSelector f s).flash = s.flash := rfl
@[simp] theorem onSelector_fuses (f : Selector → Selector) : (onSelector f s).fuses = s.fuses := rfl
@[simp] theorem onSelector_boot (f : Selector → Selector) : (onSelector f s).boot = s.boot := rfl
@[simp] theorem onSelector_clk (f : Selector → Selector) : (onSelector f s).clk = s.clk := rfl
@[simp] theorem onSelector_cwk (f : Selector → Selector) : (onSelector f s).cwk = s.cwk := rfl
@[simp] theorem onSelector_power (f : Selector → Selector) : (onSelector f s).power = s.power := rfl
@[simp] theorem onSelector_thermal (f : Selector → Selector) : (onSelector f s).thermal = s.thermal := rfl
@[simp] theorem onSelector_ports (f : Selector → Selector) : (onSelector f s).ports = s.ports := rfl
@[simp] theorem onSelector_parts (f : Selector → Selector) : (onSelector f s).parts = s.parts := rfl
@[simp] theorem onSelector_mail (f : Selector → Selector) : (onSelector f s).mail = s.mail := rfl
@[simp] theorem onSelector_gated (f : Selector → Selector) : (onSelector f s).gated = s.gated := rfl
@[simp] theorem onSelector_replies (f : Selector → Selector) : (onSelector f s).replies = s.replies := rfl
@[simp] theorem onSelector_orders (f : Selector → Selector) : (onSelector f s).orders = s.orders := rfl
@[simp] theorem onSelector_latches (f : Selector → Selector) : (onSelector f s).latches = s.latches := rfl
@[simp] theorem onSelector_mgmt (f : Selector → Selector) : (onSelector f s).mgmt = s.mgmt := rfl
@[simp] theorem onSelector_update (f : Selector → Selector) : (onSelector f s).update = s.update := rfl
@[simp] theorem onSelector_mirror (f : Selector → Selector) : (onSelector f s).mirror = s.mirror := rfl
@[simp] theorem onSelector_tap (f : Selector → Selector) : (onSelector f s).tap = s.tap := rfl
@[simp] theorem onSelector_mem (f : Selector → Selector) : (onSelector f s).mem = s.mem := rfl
@[simp] theorem onSelector_poison (f : Selector → Selector) : (onSelector f s).poison = s.poison := rfl
@[simp] theorem onSelector_pools (f : Selector → Selector) : (onSelector f s).pools = s.pools := rfl
@[simp] theorem onSelector_addq (f : Selector → Selector) : (onSelector f s).addq = s.addq := rfl
@[simp] theorem onSelector_jobs (f : Selector → Selector) : (onSelector f s).jobs = s.jobs := rfl
@[simp] theorem onSelector_dp (f : Selector → Selector) : (onSelector f s).dp = s.dp := rfl
@[simp] theorem onSelector_faults (f : Selector → Selector) : (onSelector f s).faults = s.faults := rfl
@[simp] theorem onSelector_fab (f : Selector → Selector) : (onSelector f s).fab = s.fab := rfl

/-! `onSession` changes `update` alone. -/
@[simp] theorem onSession_pending (f : UpdSession → UpdSession) : (onSession f s).pending = s.pending := rfl
@[simp] theorem onSession_out (f : UpdSession → UpdSession) : (onSession f s).out = s.out := rfl
@[simp] theorem onSession_free (f : UpdSession → UpdSession) : (onSession f s).free = s.free := rfl
@[simp] theorem onSession_aon (f : UpdSession → UpdSession) : (onSession f s).aon = s.aon := rfl
@[simp] theorem onSession_wake (f : UpdSession → UpdSession) : (onSession f s).wake = s.wake := rfl
@[simp] theorem onSession_flash (f : UpdSession → UpdSession) : (onSession f s).flash = s.flash := rfl
@[simp] theorem onSession_fuses (f : UpdSession → UpdSession) : (onSession f s).fuses = s.fuses := rfl
@[simp] theorem onSession_boot (f : UpdSession → UpdSession) : (onSession f s).boot = s.boot := rfl
@[simp] theorem onSession_clk (f : UpdSession → UpdSession) : (onSession f s).clk = s.clk := rfl
@[simp] theorem onSession_cwk (f : UpdSession → UpdSession) : (onSession f s).cwk = s.cwk := rfl
@[simp] theorem onSession_power (f : UpdSession → UpdSession) : (onSession f s).power = s.power := rfl
@[simp] theorem onSession_thermal (f : UpdSession → UpdSession) : (onSession f s).thermal = s.thermal := rfl
@[simp] theorem onSession_ports (f : UpdSession → UpdSession) : (onSession f s).ports = s.ports := rfl
@[simp] theorem onSession_parts (f : UpdSession → UpdSession) : (onSession f s).parts = s.parts := rfl
@[simp] theorem onSession_mail (f : UpdSession → UpdSession) : (onSession f s).mail = s.mail := rfl
@[simp] theorem onSession_gated (f : UpdSession → UpdSession) : (onSession f s).gated = s.gated := rfl
@[simp] theorem onSession_replies (f : UpdSession → UpdSession) : (onSession f s).replies = s.replies := rfl
@[simp] theorem onSession_orders (f : UpdSession → UpdSession) : (onSession f s).orders = s.orders := rfl
@[simp] theorem onSession_latches (f : UpdSession → UpdSession) : (onSession f s).latches = s.latches := rfl
@[simp] theorem onSession_mgmt (f : UpdSession → UpdSession) : (onSession f s).mgmt = s.mgmt := rfl
@[simp] theorem onSession_update (f : UpdSession → UpdSession) : (onSession f s).update = { s.update with session := s.update.session.map f } := rfl
@[simp] theorem onSession_mirror (f : UpdSession → UpdSession) : (onSession f s).mirror = s.mirror := rfl
@[simp] theorem onSession_tap (f : UpdSession → UpdSession) : (onSession f s).tap = s.tap := rfl
@[simp] theorem onSession_mem (f : UpdSession → UpdSession) : (onSession f s).mem = s.mem := rfl
@[simp] theorem onSession_poison (f : UpdSession → UpdSession) : (onSession f s).poison = s.poison := rfl
@[simp] theorem onSession_pools (f : UpdSession → UpdSession) : (onSession f s).pools = s.pools := rfl
@[simp] theorem onSession_addq (f : UpdSession → UpdSession) : (onSession f s).addq = s.addq := rfl
@[simp] theorem onSession_jobs (f : UpdSession → UpdSession) : (onSession f s).jobs = s.jobs := rfl
@[simp] theorem onSession_dp (f : UpdSession → UpdSession) : (onSession f s).dp = s.dp := rfl
@[simp] theorem onSession_faults (f : UpdSession → UpdSession) : (onSession f s).faults = s.faults := rfl
@[simp] theorem onSession_fab (f : UpdSession → UpdSession) : (onSession f s).fab = s.fab := rfl

/-! `onEvents` changes `mgmt` alone. -/
@[simp] theorem onEvents_pending (f : MgmtQueue → MgmtQueue) : (onEvents f s).pending = s.pending := rfl
@[simp] theorem onEvents_out (f : MgmtQueue → MgmtQueue) : (onEvents f s).out = s.out := rfl
@[simp] theorem onEvents_free (f : MgmtQueue → MgmtQueue) : (onEvents f s).free = s.free := rfl
@[simp] theorem onEvents_aon (f : MgmtQueue → MgmtQueue) : (onEvents f s).aon = s.aon := rfl
@[simp] theorem onEvents_wake (f : MgmtQueue → MgmtQueue) : (onEvents f s).wake = s.wake := rfl
@[simp] theorem onEvents_flash (f : MgmtQueue → MgmtQueue) : (onEvents f s).flash = s.flash := rfl
@[simp] theorem onEvents_fuses (f : MgmtQueue → MgmtQueue) : (onEvents f s).fuses = s.fuses := rfl
@[simp] theorem onEvents_boot (f : MgmtQueue → MgmtQueue) : (onEvents f s).boot = s.boot := rfl
@[simp] theorem onEvents_clk (f : MgmtQueue → MgmtQueue) : (onEvents f s).clk = s.clk := rfl
@[simp] theorem onEvents_cwk (f : MgmtQueue → MgmtQueue) : (onEvents f s).cwk = s.cwk := rfl
@[simp] theorem onEvents_power (f : MgmtQueue → MgmtQueue) : (onEvents f s).power = s.power := rfl
@[simp] theorem onEvents_thermal (f : MgmtQueue → MgmtQueue) : (onEvents f s).thermal = s.thermal := rfl
@[simp] theorem onEvents_ports (f : MgmtQueue → MgmtQueue) : (onEvents f s).ports = s.ports := rfl
@[simp] theorem onEvents_parts (f : MgmtQueue → MgmtQueue) : (onEvents f s).parts = s.parts := rfl
@[simp] theorem onEvents_mail (f : MgmtQueue → MgmtQueue) : (onEvents f s).mail = s.mail := rfl
@[simp] theorem onEvents_gated (f : MgmtQueue → MgmtQueue) : (onEvents f s).gated = s.gated := rfl
@[simp] theorem onEvents_replies (f : MgmtQueue → MgmtQueue) : (onEvents f s).replies = s.replies := rfl
@[simp] theorem onEvents_orders (f : MgmtQueue → MgmtQueue) : (onEvents f s).orders = s.orders := rfl
@[simp] theorem onEvents_latches (f : MgmtQueue → MgmtQueue) : (onEvents f s).latches = s.latches := rfl
@[simp] theorem onEvents_mgmt (f : MgmtQueue → MgmtQueue) : (onEvents f s).mgmt = { s.mgmt with events := f s.mgmt.events } := rfl
@[simp] theorem onEvents_update (f : MgmtQueue → MgmtQueue) : (onEvents f s).update = s.update := rfl
@[simp] theorem onEvents_mirror (f : MgmtQueue → MgmtQueue) : (onEvents f s).mirror = s.mirror := rfl
@[simp] theorem onEvents_tap (f : MgmtQueue → MgmtQueue) : (onEvents f s).tap = s.tap := rfl
@[simp] theorem onEvents_mem (f : MgmtQueue → MgmtQueue) : (onEvents f s).mem = s.mem := rfl
@[simp] theorem onEvents_poison (f : MgmtQueue → MgmtQueue) : (onEvents f s).poison = s.poison := rfl
@[simp] theorem onEvents_pools (f : MgmtQueue → MgmtQueue) : (onEvents f s).pools = s.pools := rfl
@[simp] theorem onEvents_addq (f : MgmtQueue → MgmtQueue) : (onEvents f s).addq = s.addq := rfl
@[simp] theorem onEvents_jobs (f : MgmtQueue → MgmtQueue) : (onEvents f s).jobs = s.jobs := rfl
@[simp] theorem onEvents_dp (f : MgmtQueue → MgmtQueue) : (onEvents f s).dp = s.dp := rfl
@[simp] theorem onEvents_faults (f : MgmtQueue → MgmtQueue) : (onEvents f s).faults = s.faults := rfl
@[simp] theorem onEvents_fab (f : MgmtQueue → MgmtQueue) : (onEvents f s).fab = s.fab := rfl

/-! `onSpdm` changes `mgmt` alone. -/
@[simp] theorem onSpdm_pending (ep : Nat) (f : Spdm → Spdm) : (onSpdm ep f s).pending = s.pending := rfl
@[simp] theorem onSpdm_out (ep : Nat) (f : Spdm → Spdm) : (onSpdm ep f s).out = s.out := rfl
@[simp] theorem onSpdm_free (ep : Nat) (f : Spdm → Spdm) : (onSpdm ep f s).free = s.free := rfl
@[simp] theorem onSpdm_aon (ep : Nat) (f : Spdm → Spdm) : (onSpdm ep f s).aon = s.aon := rfl
@[simp] theorem onSpdm_wake (ep : Nat) (f : Spdm → Spdm) : (onSpdm ep f s).wake = s.wake := rfl
@[simp] theorem onSpdm_flash (ep : Nat) (f : Spdm → Spdm) : (onSpdm ep f s).flash = s.flash := rfl
@[simp] theorem onSpdm_fuses (ep : Nat) (f : Spdm → Spdm) : (onSpdm ep f s).fuses = s.fuses := rfl
@[simp] theorem onSpdm_boot (ep : Nat) (f : Spdm → Spdm) : (onSpdm ep f s).boot = s.boot := rfl
@[simp] theorem onSpdm_clk (ep : Nat) (f : Spdm → Spdm) : (onSpdm ep f s).clk = s.clk := rfl
@[simp] theorem onSpdm_cwk (ep : Nat) (f : Spdm → Spdm) : (onSpdm ep f s).cwk = s.cwk := rfl
@[simp] theorem onSpdm_power (ep : Nat) (f : Spdm → Spdm) : (onSpdm ep f s).power = s.power := rfl
@[simp] theorem onSpdm_thermal (ep : Nat) (f : Spdm → Spdm) : (onSpdm ep f s).thermal = s.thermal := rfl
@[simp] theorem onSpdm_ports (ep : Nat) (f : Spdm → Spdm) : (onSpdm ep f s).ports = s.ports := rfl
@[simp] theorem onSpdm_parts (ep : Nat) (f : Spdm → Spdm) : (onSpdm ep f s).parts = s.parts := rfl
@[simp] theorem onSpdm_mail (ep : Nat) (f : Spdm → Spdm) : (onSpdm ep f s).mail = s.mail := rfl
@[simp] theorem onSpdm_gated (ep : Nat) (f : Spdm → Spdm) : (onSpdm ep f s).gated = s.gated := rfl
@[simp] theorem onSpdm_replies (ep : Nat) (f : Spdm → Spdm) : (onSpdm ep f s).replies = s.replies := rfl
@[simp] theorem onSpdm_orders (ep : Nat) (f : Spdm → Spdm) : (onSpdm ep f s).orders = s.orders := rfl
@[simp] theorem onSpdm_latches (ep : Nat) (f : Spdm → Spdm) : (onSpdm ep f s).latches = s.latches := rfl
@[simp] theorem onSpdm_mgmt (ep : Nat) (f : Spdm → Spdm) : (onSpdm ep f s).mgmt = { s.mgmt with spdm := upd s.mgmt.spdm ep f } := rfl
@[simp] theorem onSpdm_update (ep : Nat) (f : Spdm → Spdm) : (onSpdm ep f s).update = s.update := rfl
@[simp] theorem onSpdm_mirror (ep : Nat) (f : Spdm → Spdm) : (onSpdm ep f s).mirror = s.mirror := rfl
@[simp] theorem onSpdm_tap (ep : Nat) (f : Spdm → Spdm) : (onSpdm ep f s).tap = s.tap := rfl
@[simp] theorem onSpdm_mem (ep : Nat) (f : Spdm → Spdm) : (onSpdm ep f s).mem = s.mem := rfl
@[simp] theorem onSpdm_poison (ep : Nat) (f : Spdm → Spdm) : (onSpdm ep f s).poison = s.poison := rfl
@[simp] theorem onSpdm_pools (ep : Nat) (f : Spdm → Spdm) : (onSpdm ep f s).pools = s.pools := rfl
@[simp] theorem onSpdm_addq (ep : Nat) (f : Spdm → Spdm) : (onSpdm ep f s).addq = s.addq := rfl
@[simp] theorem onSpdm_jobs (ep : Nat) (f : Spdm → Spdm) : (onSpdm ep f s).jobs = s.jobs := rfl
@[simp] theorem onSpdm_dp (ep : Nat) (f : Spdm → Spdm) : (onSpdm ep f s).dp = s.dp := rfl
@[simp] theorem onSpdm_faults (ep : Nat) (f : Spdm → Spdm) : (onSpdm ep f s).faults = s.faults := rfl
@[simp] theorem onSpdm_fab (ep : Nat) (f : Spdm → Spdm) : (onSpdm ep f s).fab = s.fab := rfl

/-! `tapSelect` changes `tap` alone. -/
@[simp] theorem tapSelect_pending (i : TapInstr) : (tapSelect i s).pending = s.pending := rfl
@[simp] theorem tapSelect_out (i : TapInstr) : (tapSelect i s).out = s.out := rfl
@[simp] theorem tapSelect_free (i : TapInstr) : (tapSelect i s).free = s.free := rfl
@[simp] theorem tapSelect_aon (i : TapInstr) : (tapSelect i s).aon = s.aon := rfl
@[simp] theorem tapSelect_wake (i : TapInstr) : (tapSelect i s).wake = s.wake := rfl
@[simp] theorem tapSelect_flash (i : TapInstr) : (tapSelect i s).flash = s.flash := rfl
@[simp] theorem tapSelect_fuses (i : TapInstr) : (tapSelect i s).fuses = s.fuses := rfl
@[simp] theorem tapSelect_boot (i : TapInstr) : (tapSelect i s).boot = s.boot := rfl
@[simp] theorem tapSelect_clk (i : TapInstr) : (tapSelect i s).clk = s.clk := rfl
@[simp] theorem tapSelect_cwk (i : TapInstr) : (tapSelect i s).cwk = s.cwk := rfl
@[simp] theorem tapSelect_power (i : TapInstr) : (tapSelect i s).power = s.power := rfl
@[simp] theorem tapSelect_thermal (i : TapInstr) : (tapSelect i s).thermal = s.thermal := rfl
@[simp] theorem tapSelect_ports (i : TapInstr) : (tapSelect i s).ports = s.ports := rfl
@[simp] theorem tapSelect_parts (i : TapInstr) : (tapSelect i s).parts = s.parts := rfl
@[simp] theorem tapSelect_mail (i : TapInstr) : (tapSelect i s).mail = s.mail := rfl
@[simp] theorem tapSelect_gated (i : TapInstr) : (tapSelect i s).gated = s.gated := rfl
@[simp] theorem tapSelect_replies (i : TapInstr) : (tapSelect i s).replies = s.replies := rfl
@[simp] theorem tapSelect_orders (i : TapInstr) : (tapSelect i s).orders = s.orders := rfl
@[simp] theorem tapSelect_latches (i : TapInstr) : (tapSelect i s).latches = s.latches := rfl
@[simp] theorem tapSelect_mgmt (i : TapInstr) : (tapSelect i s).mgmt = s.mgmt := rfl
@[simp] theorem tapSelect_update (i : TapInstr) : (tapSelect i s).update = s.update := rfl
@[simp] theorem tapSelect_mirror (i : TapInstr) : (tapSelect i s).mirror = s.mirror := rfl
@[simp] theorem tapSelect_tap (i : TapInstr) : (tapSelect i s).tap = { s.tap with instr := i } := rfl
@[simp] theorem tapSelect_mem (i : TapInstr) : (tapSelect i s).mem = s.mem := rfl
@[simp] theorem tapSelect_poison (i : TapInstr) : (tapSelect i s).poison = s.poison := rfl
@[simp] theorem tapSelect_pools (i : TapInstr) : (tapSelect i s).pools = s.pools := rfl
@[simp] theorem tapSelect_addq (i : TapInstr) : (tapSelect i s).addq = s.addq := rfl
@[simp] theorem tapSelect_jobs (i : TapInstr) : (tapSelect i s).jobs = s.jobs := rfl
@[simp] theorem tapSelect_dp (i : TapInstr) : (tapSelect i s).dp = s.dp := rfl
@[simp] theorem tapSelect_faults (i : TapInstr) : (tapSelect i s).faults = s.faults := rfl
@[simp] theorem tapSelect_fab (i : TapInstr) : (tapSelect i s).fab = s.fab := rfl

end Sys2Proof.Machine
end

