-- ==== Sys2Proof/Laws/Ops.lean ====
section
/-! SUPPORT. Laws/Ops.lean: what the shared operations (messages, events, journal) leave as it is, field by field. -/
namespace Sys2Proof.Machine

/-- A fold of changes of the state that all leave a view of it as it is leaves it as it is. -/
theorem foldl_view {α β : Type} (v : State → α) (f : State → β → State) (hf : ∀ s b, v (f s b) = v s) (l : List β) (s : State) :
    v (l.foldl f s) = v s := by
  induction l generalizing s with
  | nil => rfl
  | cons b r ih => rw [List.foldl_cons, ih, hf]

/-! `msix` leaves every field but out, ports. -/
@[simp] theorem msix_pending (port : Nat) (vector : Nat) (s : State) : (msix port vector s).pending = s.pending := by
  unfold msix; try dsimp only
  (repeat' split) <;> simp
@[simp] theorem msix_free (port : Nat) (vector : Nat) (s : State) : (msix port vector s).free = s.free := by
  unfold msix; try dsimp only
  (repeat' split) <;> simp
@[simp] theorem msix_aon (port : Nat) (vector : Nat) (s : State) : (msix port vector s).aon = s.aon := by
  unfold msix; try dsimp only
  (repeat' split) <;> simp
@[simp] theorem msix_wake (port : Nat) (vector : Nat) (s : State) : (msix port vector s).wake = s.wake := by
  unfold msix; try dsimp only
  (repeat' split) <;> simp
@[simp] theorem msix_flash (port : Nat) (vector : Nat) (s : State) : (msix port vector s).flash = s.flash := by
  unfold msix; try dsimp only
  (repeat' split) <;> simp
@[simp] theorem msix_fuses (port : Nat) (vector : Nat) (s : State) : (msix port vector s).fuses = s.fuses := by
  unfold msix; try dsimp only
  (repeat' split) <;> simp
@[simp] theorem msix_boot (port : Nat) (vector : Nat) (s : State) : (msix port vector s).boot = s.boot := by
  unfold msix; try dsimp only
  (repeat' split) <;> simp
@[simp] theorem msix_clk (port : Nat) (vector : Nat) (s : State) : (msix port vector s).clk = s.clk := by
  unfold msix; try dsimp only
  (repeat' split) <;> simp
@[simp] theorem msix_cwk (port : Nat) (vector : Nat) (s : State) : (msix port vector s).cwk = s.cwk := by
  unfold msix; try dsimp only
  (repeat' split) <;> simp
@[simp] theorem msix_power (port : Nat) (vector : Nat) (s : State) : (msix port vector s).power = s.power := by
  unfold msix; try dsimp only
  (repeat' split) <;> simp
@[simp] theorem msix_thermal (port : Nat) (vector : Nat) (s : State) : (msix port vector s).thermal = s.thermal := by
  unfold msix; try dsimp only
  (repeat' split) <;> simp
@[simp] theorem msix_parts (port : Nat) (vector : Nat) (s : State) : (msix port vector s).parts = s.parts := by
  unfold msix; try dsimp only
  (repeat' split) <;> simp
@[simp] theorem msix_mail (port : Nat) (vector : Nat) (s : State) : (msix port vector s).mail = s.mail := by
  unfold msix; try dsimp only
  (repeat' split) <;> simp
@[simp] theorem msix_gated (port : Nat) (vector : Nat) (s : State) : (msix port vector s).gated = s.gated := by
  unfold msix; try dsimp only
  (repeat' split) <;> simp
@[simp] theorem msix_replies (port : Nat) (vector : Nat) (s : State) : (msix port vector s).replies = s.replies := by
  unfold msix; try dsimp only
  (repeat' split) <;> simp
@[simp] theorem msix_orders (port : Nat) (vector : Nat) (s : State) : (msix port vector s).orders = s.orders := by
  unfold msix; try dsimp only
  (repeat' split) <;> simp
@[simp] theorem msix_latches (port : Nat) (vector : Nat) (s : State) : (msix port vector s).latches = s.latches := by
  unfold msix; try dsimp only
  (repeat' split) <;> simp
@[simp] theorem msix_mgmt (port : Nat) (vector : Nat) (s : State) : (msix port vector s).mgmt = s.mgmt := by
  unfold msix; try dsimp only
  (repeat' split) <;> simp
@[simp] theorem msix_update (port : Nat) (vector : Nat) (s : State) : (msix port vector s).update = s.update := by
  unfold msix; try dsimp only
  (repeat' split) <;> simp
@[simp] theorem msix_mirror (port : Nat) (vector : Nat) (s : State) : (msix port vector s).mirror = s.mirror := by
  unfold msix; try dsimp only
  (repeat' split) <;> simp
@[simp] theorem msix_tap (port : Nat) (vector : Nat) (s : State) : (msix port vector s).tap = s.tap := by
  unfold msix; try dsimp only
  (repeat' split) <;> simp
@[simp] theorem msix_mem (port : Nat) (vector : Nat) (s : State) : (msix port vector s).mem = s.mem := by
  unfold msix; try dsimp only
  (repeat' split) <;> simp
@[simp] theorem msix_poison (port : Nat) (vector : Nat) (s : State) : (msix port vector s).poison = s.poison := by
  unfold msix; try dsimp only
  (repeat' split) <;> simp
@[simp] theorem msix_pools (port : Nat) (vector : Nat) (s : State) : (msix port vector s).pools = s.pools := by
  unfold msix; try dsimp only
  (repeat' split) <;> simp
@[simp] theorem msix_addq (port : Nat) (vector : Nat) (s : State) : (msix port vector s).addq = s.addq := by
  unfold msix; try dsimp only
  (repeat' split) <;> simp
@[simp] theorem msix_jobs (port : Nat) (vector : Nat) (s : State) : (msix port vector s).jobs = s.jobs := by
  unfold msix; try dsimp only
  (repeat' split) <;> simp
@[simp] theorem msix_dp (port : Nat) (vector : Nat) (s : State) : (msix port vector s).dp = s.dp := by
  unfold msix; try dsimp only
  (repeat' split) <;> simp
@[simp] theorem msix_faults (port : Nat) (vector : Nat) (s : State) : (msix port vector s).faults = s.faults := by
  unfold msix; try dsimp only
  (repeat' split) <;> simp
@[simp] theorem msix_fab (port : Nat) (vector : Nat) (s : State) : (msix port vector s).fab = s.fab := by
  unfold msix; try dsimp only
  (repeat' split) <;> simp

/-! `writeRing` leaves every field but out, ports, parts. -/
@[simp] theorem writeRing_pending (n : Nat) (e : Event) (s : State) : (writeRing n e s).pending = s.pending := by simp [writeRing]
@[simp] theorem writeRing_free (n : Nat) (e : Event) (s : State) : (writeRing n e s).free = s.free := by simp [writeRing]
@[simp] theorem writeRing_aon (n : Nat) (e : Event) (s : State) : (writeRing n e s).aon = s.aon := by simp [writeRing]
@[simp] theorem writeRing_wake (n : Nat) (e : Event) (s : State) : (writeRing n e s).wake = s.wake := by simp [writeRing]
@[simp] theorem writeRing_flash (n : Nat) (e : Event) (s : State) : (writeRing n e s).flash = s.flash := by simp [writeRing]
@[simp] theorem writeRing_fuses (n : Nat) (e : Event) (s : State) : (writeRing n e s).fuses = s.fuses := by simp [writeRing]
@[simp] theorem writeRing_boot (n : Nat) (e : Event) (s : State) : (writeRing n e s).boot = s.boot := by simp [writeRing]
@[simp] theorem writeRing_clk (n : Nat) (e : Event) (s : State) : (writeRing n e s).clk = s.clk := by simp [writeRing]
@[simp] theorem writeRing_cwk (n : Nat) (e : Event) (s : State) : (writeRing n e s).cwk = s.cwk := by simp [writeRing]
@[simp] theorem writeRing_power (n : Nat) (e : Event) (s : State) : (writeRing n e s).power = s.power := by simp [writeRing]
@[simp] theorem writeRing_thermal (n : Nat) (e : Event) (s : State) : (writeRing n e s).thermal = s.thermal := by simp [writeRing]
@[simp] theorem writeRing_mail (n : Nat) (e : Event) (s : State) : (writeRing n e s).mail = s.mail := by simp [writeRing]
@[simp] theorem writeRing_gated (n : Nat) (e : Event) (s : State) : (writeRing n e s).gated = s.gated := by simp [writeRing]
@[simp] theorem writeRing_replies (n : Nat) (e : Event) (s : State) : (writeRing n e s).replies = s.replies := by simp [writeRing]
@[simp] theorem writeRing_orders (n : Nat) (e : Event) (s : State) : (writeRing n e s).orders = s.orders := by simp [writeRing]
@[simp] theorem writeRing_latches (n : Nat) (e : Event) (s : State) : (writeRing n e s).latches = s.latches := by simp [writeRing]
@[simp] theorem writeRing_mgmt (n : Nat) (e : Event) (s : State) : (writeRing n e s).mgmt = s.mgmt := by simp [writeRing]
@[simp] theorem writeRing_update (n : Nat) (e : Event) (s : State) : (writeRing n e s).update = s.update := by simp [writeRing]
@[simp] theorem writeRing_mirror (n : Nat) (e : Event) (s : State) : (writeRing n e s).mirror = s.mirror := by simp [writeRing]
@[simp] theorem writeRing_tap (n : Nat) (e : Event) (s : State) : (writeRing n e s).tap = s.tap := by simp [writeRing]
@[simp] theorem writeRing_mem (n : Nat) (e : Event) (s : State) : (writeRing n e s).mem = s.mem := by simp [writeRing]
@[simp] theorem writeRing_poison (n : Nat) (e : Event) (s : State) : (writeRing n e s).poison = s.poison := by simp [writeRing]
@[simp] theorem writeRing_pools (n : Nat) (e : Event) (s : State) : (writeRing n e s).pools = s.pools := by simp [writeRing]
@[simp] theorem writeRing_addq (n : Nat) (e : Event) (s : State) : (writeRing n e s).addq = s.addq := by simp [writeRing]
@[simp] theorem writeRing_jobs (n : Nat) (e : Event) (s : State) : (writeRing n e s).jobs = s.jobs := by simp [writeRing]
@[simp] theorem writeRing_dp (n : Nat) (e : Event) (s : State) : (writeRing n e s).dp = s.dp := by simp [writeRing]
@[simp] theorem writeRing_faults (n : Nat) (e : Event) (s : State) : (writeRing n e s).faults = s.faults := by simp [writeRing]
@[simp] theorem writeRing_fab (n : Nat) (e : Event) (s : State) : (writeRing n e s).fab = s.fab := by simp [writeRing]

/-! `backlogEvent` leaves every field but parts. -/
@[simp] theorem backlogEvent_pending (n : Nat) (e : Event) (s : State) : (backlogEvent n e s).pending = s.pending := by simp [backlogEvent]
@[simp] theorem backlogEvent_out (n : Nat) (e : Event) (s : State) : (backlogEvent n e s).out = s.out := by simp [backlogEvent]
@[simp] theorem backlogEvent_free (n : Nat) (e : Event) (s : State) : (backlogEvent n e s).free = s.free := by simp [backlogEvent]
@[simp] theorem backlogEvent_aon (n : Nat) (e : Event) (s : State) : (backlogEvent n e s).aon = s.aon := by simp [backlogEvent]
@[simp] theorem backlogEvent_wake (n : Nat) (e : Event) (s : State) : (backlogEvent n e s).wake = s.wake := by simp [backlogEvent]
@[simp] theorem backlogEvent_flash (n : Nat) (e : Event) (s : State) : (backlogEvent n e s).flash = s.flash := by simp [backlogEvent]
@[simp] theorem backlogEvent_fuses (n : Nat) (e : Event) (s : State) : (backlogEvent n e s).fuses = s.fuses := by simp [backlogEvent]
@[simp] theorem backlogEvent_boot (n : Nat) (e : Event) (s : State) : (backlogEvent n e s).boot = s.boot := by simp [backlogEvent]
@[simp] theorem backlogEvent_clk (n : Nat) (e : Event) (s : State) : (backlogEvent n e s).clk = s.clk := by simp [backlogEvent]
@[simp] theorem backlogEvent_cwk (n : Nat) (e : Event) (s : State) : (backlogEvent n e s).cwk = s.cwk := by simp [backlogEvent]
@[simp] theorem backlogEvent_power (n : Nat) (e : Event) (s : State) : (backlogEvent n e s).power = s.power := by simp [backlogEvent]
@[simp] theorem backlogEvent_thermal (n : Nat) (e : Event) (s : State) : (backlogEvent n e s).thermal = s.thermal := by simp [backlogEvent]
@[simp] theorem backlogEvent_ports (n : Nat) (e : Event) (s : State) : (backlogEvent n e s).ports = s.ports := by simp [backlogEvent]
@[simp] theorem backlogEvent_mail (n : Nat) (e : Event) (s : State) : (backlogEvent n e s).mail = s.mail := by simp [backlogEvent]
@[simp] theorem backlogEvent_gated (n : Nat) (e : Event) (s : State) : (backlogEvent n e s).gated = s.gated := by simp [backlogEvent]
@[simp] theorem backlogEvent_replies (n : Nat) (e : Event) (s : State) : (backlogEvent n e s).replies = s.replies := by simp [backlogEvent]
@[simp] theorem backlogEvent_orders (n : Nat) (e : Event) (s : State) : (backlogEvent n e s).orders = s.orders := by simp [backlogEvent]
@[simp] theorem backlogEvent_latches (n : Nat) (e : Event) (s : State) : (backlogEvent n e s).latches = s.latches := by simp [backlogEvent]
@[simp] theorem backlogEvent_mgmt (n : Nat) (e : Event) (s : State) : (backlogEvent n e s).mgmt = s.mgmt := by simp [backlogEvent]
@[simp] theorem backlogEvent_update (n : Nat) (e : Event) (s : State) : (backlogEvent n e s).update = s.update := by simp [backlogEvent]
@[simp] theorem backlogEvent_mirror (n : Nat) (e : Event) (s : State) : (backlogEvent n e s).mirror = s.mirror := by simp [backlogEvent]
@[simp] theorem backlogEvent_tap (n : Nat) (e : Event) (s : State) : (backlogEvent n e s).tap = s.tap := by simp [backlogEvent]
@[simp] theorem backlogEvent_mem (n : Nat) (e : Event) (s : State) : (backlogEvent n e s).mem = s.mem := by simp [backlogEvent]
@[simp] theorem backlogEvent_poison (n : Nat) (e : Event) (s : State) : (backlogEvent n e s).poison = s.poison := by simp [backlogEvent]
@[simp] theorem backlogEvent_pools (n : Nat) (e : Event) (s : State) : (backlogEvent n e s).pools = s.pools := by simp [backlogEvent]
@[simp] theorem backlogEvent_addq (n : Nat) (e : Event) (s : State) : (backlogEvent n e s).addq = s.addq := by simp [backlogEvent]
@[simp] theorem backlogEvent_jobs (n : Nat) (e : Event) (s : State) : (backlogEvent n e s).jobs = s.jobs := by simp [backlogEvent]
@[simp] theorem backlogEvent_dp (n : Nat) (e : Event) (s : State) : (backlogEvent n e s).dp = s.dp := by simp [backlogEvent]
@[simp] theorem backlogEvent_faults (n : Nat) (e : Event) (s : State) : (backlogEvent n e s).faults = s.faults := by simp [backlogEvent]
@[simp] theorem backlogEvent_fab (n : Nat) (e : Event) (s : State) : (backlogEvent n e s).fab = s.fab := by simp [backlogEvent]

/-! `partEvent` leaves every field but out, ports, parts. -/
@[simp] theorem partEvent_pending (n : Nat) (e : Event) (s : State) : (partEvent n e s).pending = s.pending := by
  unfold partEvent; try dsimp only
  (repeat' split) <;> simp
@[simp] theorem partEvent_free (n : Nat) (e : Event) (s : State) : (partEvent n e s).free = s.free := by
  unfold partEvent; try dsimp only
  (repeat' split) <;> simp
@[simp] theorem partEvent_aon (n : Nat) (e : Event) (s : State) : (partEvent n e s).aon = s.aon := by
  unfold partEvent; try dsimp only
  (repeat' split) <;> simp
@[simp] theorem partEvent_wake (n : Nat) (e : Event) (s : State) : (partEvent n e s).wake = s.wake := by
  unfold partEvent; try dsimp only
  (repeat' split) <;> simp
@[simp] theorem partEvent_flash (n : Nat) (e : Event) (s : State) : (partEvent n e s).flash = s.flash := by
  unfold partEvent; try dsimp only
  (repeat' split) <;> simp
@[simp] theorem partEvent_fuses (n : Nat) (e : Event) (s : State) : (partEvent n e s).fuses = s.fuses := by
  unfold partEvent; try dsimp only
  (repeat' split) <;> simp
@[simp] theorem partEvent_boot (n : Nat) (e : Event) (s : State) : (partEvent n e s).boot = s.boot := by
  unfold partEvent; try dsimp only
  (repeat' split) <;> simp
@[simp] theorem partEvent_clk (n : Nat) (e : Event) (s : State) : (partEvent n e s).clk = s.clk := by
  unfold partEvent; try dsimp only
  (repeat' split) <;> simp
@[simp] theorem partEvent_cwk (n : Nat) (e : Event) (s : State) : (partEvent n e s).cwk = s.cwk := by
  unfold partEvent; try dsimp only
  (repeat' split) <;> simp
@[simp] theorem partEvent_power (n : Nat) (e : Event) (s : State) : (partEvent n e s).power = s.power := by
  unfold partEvent; try dsimp only
  (repeat' split) <;> simp
@[simp] theorem partEvent_thermal (n : Nat) (e : Event) (s : State) : (partEvent n e s).thermal = s.thermal := by
  unfold partEvent; try dsimp only
  (repeat' split) <;> simp
@[simp] theorem partEvent_mail (n : Nat) (e : Event) (s : State) : (partEvent n e s).mail = s.mail := by
  unfold partEvent; try dsimp only
  (repeat' split) <;> simp
@[simp] theorem partEvent_gated (n : Nat) (e : Event) (s : State) : (partEvent n e s).gated = s.gated := by
  unfold partEvent; try dsimp only
  (repeat' split) <;> simp
@[simp] theorem partEvent_replies (n : Nat) (e : Event) (s : State) : (partEvent n e s).replies = s.replies := by
  unfold partEvent; try dsimp only
  (repeat' split) <;> simp
@[simp] theorem partEvent_orders (n : Nat) (e : Event) (s : State) : (partEvent n e s).orders = s.orders := by
  unfold partEvent; try dsimp only
  (repeat' split) <;> simp
@[simp] theorem partEvent_latches (n : Nat) (e : Event) (s : State) : (partEvent n e s).latches = s.latches := by
  unfold partEvent; try dsimp only
  (repeat' split) <;> simp
@[simp] theorem partEvent_mgmt (n : Nat) (e : Event) (s : State) : (partEvent n e s).mgmt = s.mgmt := by
  unfold partEvent; try dsimp only
  (repeat' split) <;> simp
@[simp] theorem partEvent_update (n : Nat) (e : Event) (s : State) : (partEvent n e s).update = s.update := by
  unfold partEvent; try dsimp only
  (repeat' split) <;> simp
@[simp] theorem partEvent_mirror (n : Nat) (e : Event) (s : State) : (partEvent n e s).mirror = s.mirror := by
  unfold partEvent; try dsimp only
  (repeat' split) <;> simp
@[simp] theorem partEvent_tap (n : Nat) (e : Event) (s : State) : (partEvent n e s).tap = s.tap := by
  unfold partEvent; try dsimp only
  (repeat' split) <;> simp
@[simp] theorem partEvent_mem (n : Nat) (e : Event) (s : State) : (partEvent n e s).mem = s.mem := by
  unfold partEvent; try dsimp only
  (repeat' split) <;> simp
@[simp] theorem partEvent_poison (n : Nat) (e : Event) (s : State) : (partEvent n e s).poison = s.poison := by
  unfold partEvent; try dsimp only
  (repeat' split) <;> simp
@[simp] theorem partEvent_pools (n : Nat) (e : Event) (s : State) : (partEvent n e s).pools = s.pools := by
  unfold partEvent; try dsimp only
  (repeat' split) <;> simp
@[simp] theorem partEvent_addq (n : Nat) (e : Event) (s : State) : (partEvent n e s).addq = s.addq := by
  unfold partEvent; try dsimp only
  (repeat' split) <;> simp
@[simp] theorem partEvent_jobs (n : Nat) (e : Event) (s : State) : (partEvent n e s).jobs = s.jobs := by
  unfold partEvent; try dsimp only
  (repeat' split) <;> simp
@[simp] theorem partEvent_dp (n : Nat) (e : Event) (s : State) : (partEvent n e s).dp = s.dp := by
  unfold partEvent; try dsimp only
  (repeat' split) <;> simp
@[simp] theorem partEvent_faults (n : Nat) (e : Event) (s : State) : (partEvent n e s).faults = s.faults := by
  unfold partEvent; try dsimp only
  (repeat' split) <;> simp
@[simp] theorem partEvent_fab (n : Nat) (e : Event) (s : State) : (partEvent n e s).fab = s.fab := by
  unfold partEvent; try dsimp only
  (repeat' split) <;> simp

/-! `logEvent` leaves every field but aon. -/
@[simp] theorem logEvent_pending (e : Event) (s : State) : (logEvent e s).pending = s.pending := by simp only [logEvent]
@[simp] theorem logEvent_out (e : Event) (s : State) : (logEvent e s).out = s.out := by simp only [logEvent]
@[simp] theorem logEvent_free (e : Event) (s : State) : (logEvent e s).free = s.free := by simp only [logEvent]
@[simp] theorem logEvent_wake (e : Event) (s : State) : (logEvent e s).wake = s.wake := by simp only [logEvent]
@[simp] theorem logEvent_flash (e : Event) (s : State) : (logEvent e s).flash = s.flash := by simp only [logEvent]
@[simp] theorem logEvent_fuses (e : Event) (s : State) : (logEvent e s).fuses = s.fuses := by simp only [logEvent]
@[simp] theorem logEvent_boot (e : Event) (s : State) : (logEvent e s).boot = s.boot := by simp only [logEvent]
@[simp] theorem logEvent_clk (e : Event) (s : State) : (logEvent e s).clk = s.clk := by simp only [logEvent]
@[simp] theorem logEvent_cwk (e : Event) (s : State) : (logEvent e s).cwk = s.cwk := by simp only [logEvent]
@[simp] theorem logEvent_power (e : Event) (s : State) : (logEvent e s).power = s.power := by simp only [logEvent]
@[simp] theorem logEvent_thermal (e : Event) (s : State) : (logEvent e s).thermal = s.thermal := by simp only [logEvent]
@[simp] theorem logEvent_ports (e : Event) (s : State) : (logEvent e s).ports = s.ports := by simp only [logEvent]
@[simp] theorem logEvent_parts (e : Event) (s : State) : (logEvent e s).parts = s.parts := by simp only [logEvent]
@[simp] theorem logEvent_mail (e : Event) (s : State) : (logEvent e s).mail = s.mail := by simp only [logEvent]
@[simp] theorem logEvent_gated (e : Event) (s : State) : (logEvent e s).gated = s.gated := by simp only [logEvent]
@[simp] theorem logEvent_replies (e : Event) (s : State) : (logEvent e s).replies = s.replies := by simp only [logEvent]
@[simp] theorem logEvent_orders (e : Event) (s : State) : (logEvent e s).orders = s.orders := by simp only [logEvent]
@[simp] theorem logEvent_latches (e : Event) (s : State) : (logEvent e s).latches = s.latches := by simp only [logEvent]
@[simp] theorem logEvent_mgmt (e : Event) (s : State) : (logEvent e s).mgmt = s.mgmt := by simp only [logEvent]
@[simp] theorem logEvent_update (e : Event) (s : State) : (logEvent e s).update = s.update := by simp only [logEvent]
@[simp] theorem logEvent_mirror (e : Event) (s : State) : (logEvent e s).mirror = s.mirror := by simp only [logEvent]
@[simp] theorem logEvent_tap (e : Event) (s : State) : (logEvent e s).tap = s.tap := by simp only [logEvent]
@[simp] theorem logEvent_mem (e : Event) (s : State) : (logEvent e s).mem = s.mem := by simp only [logEvent]
@[simp] theorem logEvent_poison (e : Event) (s : State) : (logEvent e s).poison = s.poison := by simp only [logEvent]
@[simp] theorem logEvent_pools (e : Event) (s : State) : (logEvent e s).pools = s.pools := by simp only [logEvent]
@[simp] theorem logEvent_addq (e : Event) (s : State) : (logEvent e s).addq = s.addq := by simp only [logEvent]
@[simp] theorem logEvent_jobs (e : Event) (s : State) : (logEvent e s).jobs = s.jobs := by simp only [logEvent]
@[simp] theorem logEvent_dp (e : Event) (s : State) : (logEvent e s).dp = s.dp := by simp only [logEvent]
@[simp] theorem logEvent_faults (e : Event) (s : State) : (logEvent e s).faults = s.faults := by simp only [logEvent]
@[simp] theorem logEvent_fab (e : Event) (s : State) : (logEvent e s).fab = s.fab := by simp only [logEvent]

/-! `pumpMgmt` leaves every field but out, mgmt. -/
@[simp] theorem pumpMgmt_pending (s : State) : (pumpMgmt s).pending = s.pending := by
  unfold pumpMgmt; try dsimp only
  (repeat' split) <;> simp
@[simp] theorem pumpMgmt_free (s : State) : (pumpMgmt s).free = s.free := by
  unfold pumpMgmt; try dsimp only
  (repeat' split) <;> simp
@[simp] theorem pumpMgmt_aon (s : State) : (pumpMgmt s).aon = s.aon := by
  unfold pumpMgmt; try dsimp only
  (repeat' split) <;> simp
@[simp] theorem pumpMgmt_wake (s : State) : (pumpMgmt s).wake = s.wake := by
  unfold pumpMgmt; try dsimp only
  (repeat' split) <;> simp
@[simp] theorem pumpMgmt_flash (s : State) : (pumpMgmt s).flash = s.flash := by
  unfold pumpMgmt; try dsimp only
  (repeat' split) <;> simp
@[simp] theorem pumpMgmt_fuses (s : State) : (pumpMgmt s).fuses = s.fuses := by
  unfold pumpMgmt; try dsimp only
  (repeat' split) <;> simp
@[simp] theorem pumpMgmt_boot (s : State) : (pumpMgmt s).boot = s.boot := by
  unfold pumpMgmt; try dsimp only
  (repeat' split) <;> simp
@[simp] theorem pumpMgmt_clk (s : State) : (pumpMgmt s).clk = s.clk := by
  unfold pumpMgmt; try dsimp only
  (repeat' split) <;> simp
@[simp] theorem pumpMgmt_cwk (s : State) : (pumpMgmt s).cwk = s.cwk := by
  unfold pumpMgmt; try dsimp only
  (repeat' split) <;> simp
@[simp] theorem pumpMgmt_power (s : State) : (pumpMgmt s).power = s.power := by
  unfold pumpMgmt; try dsimp only
  (repeat' split) <;> simp
@[simp] theorem pumpMgmt_thermal (s : State) : (pumpMgmt s).thermal = s.thermal := by
  unfold pumpMgmt; try dsimp only
  (repeat' split) <;> simp
@[simp] theorem pumpMgmt_ports (s : State) : (pumpMgmt s).ports = s.ports := by
  unfold pumpMgmt; try dsimp only
  (repeat' split) <;> simp
@[simp] theorem pumpMgmt_parts (s : State) : (pumpMgmt s).parts = s.parts := by
  unfold pumpMgmt; try dsimp only
  (repeat' split) <;> simp
@[simp] theorem pumpMgmt_mail (s : State) : (pumpMgmt s).mail = s.mail := by
  unfold pumpMgmt; try dsimp only
  (repeat' split) <;> simp
@[simp] theorem pumpMgmt_gated (s : State) : (pumpMgmt s).gated = s.gated := by
  unfold pumpMgmt; try dsimp only
  (repeat' split) <;> simp
@[simp] theorem pumpMgmt_replies (s : State) : (pumpMgmt s).replies = s.replies := by
  unfold pumpMgmt; try dsimp only
  (repeat' split) <;> simp
@[simp] theorem pumpMgmt_orders (s : State) : (pumpMgmt s).orders = s.orders := by
  unfold pumpMgmt; try dsimp only
  (repeat' split) <;> simp
@[simp] theorem pumpMgmt_latches (s : State) : (pumpMgmt s).latches = s.latches := by
  unfold pumpMgmt; try dsimp only
  (repeat' split) <;> simp
@[simp] theorem pumpMgmt_update (s : State) : (pumpMgmt s).update = s.update := by
  unfold pumpMgmt; try dsimp only
  (repeat' split) <;> simp
@[simp] theorem pumpMgmt_mirror (s : State) : (pumpMgmt s).mirror = s.mirror := by
  unfold pumpMgmt; try dsimp only
  (repeat' split) <;> simp
@[simp] theorem pumpMgmt_tap (s : State) : (pumpMgmt s).tap = s.tap := by
  unfold pumpMgmt; try dsimp only
  (repeat' split) <;> simp
@[simp] theorem pumpMgmt_mem (s : State) : (pumpMgmt s).mem = s.mem := by
  unfold pumpMgmt; try dsimp only
  (repeat' split) <;> simp
@[simp] theorem pumpMgmt_poison (s : State) : (pumpMgmt s).poison = s.poison := by
  unfold pumpMgmt; try dsimp only
  (repeat' split) <;> simp
@[simp] theorem pumpMgmt_pools (s : State) : (pumpMgmt s).pools = s.pools := by
  unfold pumpMgmt; try dsimp only
  (repeat' split) <;> simp
@[simp] theorem pumpMgmt_addq (s : State) : (pumpMgmt s).addq = s.addq := by
  unfold pumpMgmt; try dsimp only
  (repeat' split) <;> simp
@[simp] theorem pumpMgmt_jobs (s : State) : (pumpMgmt s).jobs = s.jobs := by
  unfold pumpMgmt; try dsimp only
  (repeat' split) <;> simp
@[simp] theorem pumpMgmt_dp (s : State) : (pumpMgmt s).dp = s.dp := by
  unfold pumpMgmt; try dsimp only
  (repeat' split) <;> simp
@[simp] theorem pumpMgmt_faults (s : State) : (pumpMgmt s).faults = s.faults := by
  unfold pumpMgmt; try dsimp only
  (repeat' split) <;> simp
@[simp] theorem pumpMgmt_fab (s : State) : (pumpMgmt s).fab = s.fab := by
  unfold pumpMgmt; try dsimp only
  (repeat' split) <;> simp

/-! `mgmtEvent` leaves every field but out, mgmt. -/
@[simp] theorem mgmtEvent_pending (e : Event) (s : State) : (mgmtEvent e s).pending = s.pending := by simp [mgmtEvent]
@[simp] theorem mgmtEvent_free (e : Event) (s : State) : (mgmtEvent e s).free = s.free := by simp [mgmtEvent]
@[simp] theorem mgmtEvent_aon (e : Event) (s : State) : (mgmtEvent e s).aon = s.aon := by simp [mgmtEvent]
@[simp] theorem mgmtEvent_wake (e : Event) (s : State) : (mgmtEvent e s).wake = s.wake := by simp [mgmtEvent]
@[simp] theorem mgmtEvent_flash (e : Event) (s : State) : (mgmtEvent e s).flash = s.flash := by simp [mgmtEvent]
@[simp] theorem mgmtEvent_fuses (e : Event) (s : State) : (mgmtEvent e s).fuses = s.fuses := by simp [mgmtEvent]
@[simp] theorem mgmtEvent_boot (e : Event) (s : State) : (mgmtEvent e s).boot = s.boot := by simp [mgmtEvent]
@[simp] theorem mgmtEvent_clk (e : Event) (s : State) : (mgmtEvent e s).clk = s.clk := by simp [mgmtEvent]
@[simp] theorem mgmtEvent_cwk (e : Event) (s : State) : (mgmtEvent e s).cwk = s.cwk := by simp [mgmtEvent]
@[simp] theorem mgmtEvent_power (e : Event) (s : State) : (mgmtEvent e s).power = s.power := by simp [mgmtEvent]
@[simp] theorem mgmtEvent_thermal (e : Event) (s : State) : (mgmtEvent e s).thermal = s.thermal := by simp [mgmtEvent]
@[simp] theorem mgmtEvent_ports (e : Event) (s : State) : (mgmtEvent e s).ports = s.ports := by simp [mgmtEvent]
@[simp] theorem mgmtEvent_parts (e : Event) (s : State) : (mgmtEvent e s).parts = s.parts := by simp [mgmtEvent]
@[simp] theorem mgmtEvent_mail (e : Event) (s : State) : (mgmtEvent e s).mail = s.mail := by simp [mgmtEvent]
@[simp] theorem mgmtEvent_gated (e : Event) (s : State) : (mgmtEvent e s).gated = s.gated := by simp [mgmtEvent]
@[simp] theorem mgmtEvent_replies (e : Event) (s : State) : (mgmtEvent e s).replies = s.replies := by simp [mgmtEvent]
@[simp] theorem mgmtEvent_orders (e : Event) (s : State) : (mgmtEvent e s).orders = s.orders := by simp [mgmtEvent]
@[simp] theorem mgmtEvent_latches (e : Event) (s : State) : (mgmtEvent e s).latches = s.latches := by simp [mgmtEvent]
@[simp] theorem mgmtEvent_update (e : Event) (s : State) : (mgmtEvent e s).update = s.update := by simp [mgmtEvent]
@[simp] theorem mgmtEvent_mirror (e : Event) (s : State) : (mgmtEvent e s).mirror = s.mirror := by simp [mgmtEvent]
@[simp] theorem mgmtEvent_tap (e : Event) (s : State) : (mgmtEvent e s).tap = s.tap := by simp [mgmtEvent]
@[simp] theorem mgmtEvent_mem (e : Event) (s : State) : (mgmtEvent e s).mem = s.mem := by simp [mgmtEvent]
@[simp] theorem mgmtEvent_poison (e : Event) (s : State) : (mgmtEvent e s).poison = s.poison := by simp [mgmtEvent]
@[simp] theorem mgmtEvent_pools (e : Event) (s : State) : (mgmtEvent e s).pools = s.pools := by simp [mgmtEvent]
@[simp] theorem mgmtEvent_addq (e : Event) (s : State) : (mgmtEvent e s).addq = s.addq := by simp [mgmtEvent]
@[simp] theorem mgmtEvent_jobs (e : Event) (s : State) : (mgmtEvent e s).jobs = s.jobs := by simp [mgmtEvent]
@[simp] theorem mgmtEvent_dp (e : Event) (s : State) : (mgmtEvent e s).dp = s.dp := by simp [mgmtEvent]
@[simp] theorem mgmtEvent_faults (e : Event) (s : State) : (mgmtEvent e s).faults = s.faults := by simp [mgmtEvent]
@[simp] theorem mgmtEvent_fab (e : Event) (s : State) : (mgmtEvent e s).fab = s.fab := by simp [mgmtEvent]

/-! `raiseP` leaves every field but out, ports, parts. -/
@[simp] theorem raiseP_pending (n : Nat) (code : Nat) (unit : Nat) (w3 : W64) (s : State) (w2 : W64) : (raiseP n code unit w3 s w2).pending = s.pending := by simp [raiseP]
@[simp] theorem raiseP_free (n : Nat) (code : Nat) (unit : Nat) (w3 : W64) (s : State) (w2 : W64) : (raiseP n code unit w3 s w2).free = s.free := by simp [raiseP]
@[simp] theorem raiseP_aon (n : Nat) (code : Nat) (unit : Nat) (w3 : W64) (s : State) (w2 : W64) : (raiseP n code unit w3 s w2).aon = s.aon := by simp [raiseP]
@[simp] theorem raiseP_wake (n : Nat) (code : Nat) (unit : Nat) (w3 : W64) (s : State) (w2 : W64) : (raiseP n code unit w3 s w2).wake = s.wake := by simp [raiseP]
@[simp] theorem raiseP_flash (n : Nat) (code : Nat) (unit : Nat) (w3 : W64) (s : State) (w2 : W64) : (raiseP n code unit w3 s w2).flash = s.flash := by simp [raiseP]
@[simp] theorem raiseP_fuses (n : Nat) (code : Nat) (unit : Nat) (w3 : W64) (s : State) (w2 : W64) : (raiseP n code unit w3 s w2).fuses = s.fuses := by simp [raiseP]
@[simp] theorem raiseP_boot (n : Nat) (code : Nat) (unit : Nat) (w3 : W64) (s : State) (w2 : W64) : (raiseP n code unit w3 s w2).boot = s.boot := by simp [raiseP]
@[simp] theorem raiseP_clk (n : Nat) (code : Nat) (unit : Nat) (w3 : W64) (s : State) (w2 : W64) : (raiseP n code unit w3 s w2).clk = s.clk := by simp [raiseP]
@[simp] theorem raiseP_cwk (n : Nat) (code : Nat) (unit : Nat) (w3 : W64) (s : State) (w2 : W64) : (raiseP n code unit w3 s w2).cwk = s.cwk := by simp [raiseP]
@[simp] theorem raiseP_power (n : Nat) (code : Nat) (unit : Nat) (w3 : W64) (s : State) (w2 : W64) : (raiseP n code unit w3 s w2).power = s.power := by simp [raiseP]
@[simp] theorem raiseP_thermal (n : Nat) (code : Nat) (unit : Nat) (w3 : W64) (s : State) (w2 : W64) : (raiseP n code unit w3 s w2).thermal = s.thermal := by simp [raiseP]
@[simp] theorem raiseP_mail (n : Nat) (code : Nat) (unit : Nat) (w3 : W64) (s : State) (w2 : W64) : (raiseP n code unit w3 s w2).mail = s.mail := by simp [raiseP]
@[simp] theorem raiseP_gated (n : Nat) (code : Nat) (unit : Nat) (w3 : W64) (s : State) (w2 : W64) : (raiseP n code unit w3 s w2).gated = s.gated := by simp [raiseP]
@[simp] theorem raiseP_replies (n : Nat) (code : Nat) (unit : Nat) (w3 : W64) (s : State) (w2 : W64) : (raiseP n code unit w3 s w2).replies = s.replies := by simp [raiseP]
@[simp] theorem raiseP_orders (n : Nat) (code : Nat) (unit : Nat) (w3 : W64) (s : State) (w2 : W64) : (raiseP n code unit w3 s w2).orders = s.orders := by simp [raiseP]
@[simp] theorem raiseP_latches (n : Nat) (code : Nat) (unit : Nat) (w3 : W64) (s : State) (w2 : W64) : (raiseP n code unit w3 s w2).latches = s.latches := by simp [raiseP]
@[simp] theorem raiseP_mgmt (n : Nat) (code : Nat) (unit : Nat) (w3 : W64) (s : State) (w2 : W64) : (raiseP n code unit w3 s w2).mgmt = s.mgmt := by simp [raiseP]
@[simp] theorem raiseP_update (n : Nat) (code : Nat) (unit : Nat) (w3 : W64) (s : State) (w2 : W64) : (raiseP n code unit w3 s w2).update = s.update := by simp [raiseP]
@[simp] theorem raiseP_mirror (n : Nat) (code : Nat) (unit : Nat) (w3 : W64) (s : State) (w2 : W64) : (raiseP n code unit w3 s w2).mirror = s.mirror := by simp [raiseP]
@[simp] theorem raiseP_tap (n : Nat) (code : Nat) (unit : Nat) (w3 : W64) (s : State) (w2 : W64) : (raiseP n code unit w3 s w2).tap = s.tap := by simp [raiseP]
@[simp] theorem raiseP_mem (n : Nat) (code : Nat) (unit : Nat) (w3 : W64) (s : State) (w2 : W64) : (raiseP n code unit w3 s w2).mem = s.mem := by simp [raiseP]
@[simp] theorem raiseP_poison (n : Nat) (code : Nat) (unit : Nat) (w3 : W64) (s : State) (w2 : W64) : (raiseP n code unit w3 s w2).poison = s.poison := by simp [raiseP]
@[simp] theorem raiseP_pools (n : Nat) (code : Nat) (unit : Nat) (w3 : W64) (s : State) (w2 : W64) : (raiseP n code unit w3 s w2).pools = s.pools := by simp [raiseP]
@[simp] theorem raiseP_addq (n : Nat) (code : Nat) (unit : Nat) (w3 : W64) (s : State) (w2 : W64) : (raiseP n code unit w3 s w2).addq = s.addq := by simp [raiseP]
@[simp] theorem raiseP_jobs (n : Nat) (code : Nat) (unit : Nat) (w3 : W64) (s : State) (w2 : W64) : (raiseP n code unit w3 s w2).jobs = s.jobs := by simp [raiseP]
@[simp] theorem raiseP_dp (n : Nat) (code : Nat) (unit : Nat) (w3 : W64) (s : State) (w2 : W64) : (raiseP n code unit w3 s w2).dp = s.dp := by simp [raiseP]
@[simp] theorem raiseP_faults (n : Nat) (code : Nat) (unit : Nat) (w3 : W64) (s : State) (w2 : W64) : (raiseP n code unit w3 s w2).faults = s.faults := by simp [raiseP]
@[simp] theorem raiseP_fab (n : Nat) (code : Nat) (unit : Nat) (w3 : W64) (s : State) (w2 : W64) : (raiseP n code unit w3 s w2).fab = s.fab := by simp [raiseP]

/-! `raiseM` leaves every field but out, aon, ports, parts, mgmt. -/
@[simp] theorem raiseM_pending (part : Option Nat) (code : Nat) (unit : Nat) (w3 : W64) (s : State) (w2 : W64) : (raiseM part code unit w3 s w2).pending = s.pending := by
  unfold raiseM; try dsimp only
  (repeat' split) <;> simp
@[simp] theorem raiseM_free (part : Option Nat) (code : Nat) (unit : Nat) (w3 : W64) (s : State) (w2 : W64) : (raiseM part code unit w3 s w2).free = s.free := by
  unfold raiseM; try dsimp only
  (repeat' split) <;> simp
@[simp] theorem raiseM_wake (part : Option Nat) (code : Nat) (unit : Nat) (w3 : W64) (s : State) (w2 : W64) : (raiseM part code unit w3 s w2).wake = s.wake := by
  unfold raiseM; try dsimp only
  (repeat' split) <;> simp
@[simp] theorem raiseM_flash (part : Option Nat) (code : Nat) (unit : Nat) (w3 : W64) (s : State) (w2 : W64) : (raiseM part code unit w3 s w2).flash = s.flash := by
  unfold raiseM; try dsimp only
  (repeat' split) <;> simp
@[simp] theorem raiseM_fuses (part : Option Nat) (code : Nat) (unit : Nat) (w3 : W64) (s : State) (w2 : W64) : (raiseM part code unit w3 s w2).fuses = s.fuses := by
  unfold raiseM; try dsimp only
  (repeat' split) <;> simp
@[simp] theorem raiseM_boot (part : Option Nat) (code : Nat) (unit : Nat) (w3 : W64) (s : State) (w2 : W64) : (raiseM part code unit w3 s w2).boot = s.boot := by
  unfold raiseM; try dsimp only
  (repeat' split) <;> simp
@[simp] theorem raiseM_clk (part : Option Nat) (code : Nat) (unit : Nat) (w3 : W64) (s : State) (w2 : W64) : (raiseM part code unit w3 s w2).clk = s.clk := by
  unfold raiseM; try dsimp only
  (repeat' split) <;> simp
@[simp] theorem raiseM_cwk (part : Option Nat) (code : Nat) (unit : Nat) (w3 : W64) (s : State) (w2 : W64) : (raiseM part code unit w3 s w2).cwk = s.cwk := by
  unfold raiseM; try dsimp only
  (repeat' split) <;> simp
@[simp] theorem raiseM_power (part : Option Nat) (code : Nat) (unit : Nat) (w3 : W64) (s : State) (w2 : W64) : (raiseM part code unit w3 s w2).power = s.power := by
  unfold raiseM; try dsimp only
  (repeat' split) <;> simp
@[simp] theorem raiseM_thermal (part : Option Nat) (code : Nat) (unit : Nat) (w3 : W64) (s : State) (w2 : W64) : (raiseM part code unit w3 s w2).thermal = s.thermal := by
  unfold raiseM; try dsimp only
  (repeat' split) <;> simp
@[simp] theorem raiseM_mail (part : Option Nat) (code : Nat) (unit : Nat) (w3 : W64) (s : State) (w2 : W64) : (raiseM part code unit w3 s w2).mail = s.mail := by
  unfold raiseM; try dsimp only
  (repeat' split) <;> simp
@[simp] theorem raiseM_gated (part : Option Nat) (code : Nat) (unit : Nat) (w3 : W64) (s : State) (w2 : W64) : (raiseM part code unit w3 s w2).gated = s.gated := by
  unfold raiseM; try dsimp only
  (repeat' split) <;> simp
@[simp] theorem raiseM_replies (part : Option Nat) (code : Nat) (unit : Nat) (w3 : W64) (s : State) (w2 : W64) : (raiseM part code unit w3 s w2).replies = s.replies := by
  unfold raiseM; try dsimp only
  (repeat' split) <;> simp
@[simp] theorem raiseM_orders (part : Option Nat) (code : Nat) (unit : Nat) (w3 : W64) (s : State) (w2 : W64) : (raiseM part code unit w3 s w2).orders = s.orders := by
  unfold raiseM; try dsimp only
  (repeat' split) <;> simp
@[simp] theorem raiseM_latches (part : Option Nat) (code : Nat) (unit : Nat) (w3 : W64) (s : State) (w2 : W64) : (raiseM part code unit w3 s w2).latches = s.latches := by
  unfold raiseM; try dsimp only
  (repeat' split) <;> simp
@[simp] theorem raiseM_update (part : Option Nat) (code : Nat) (unit : Nat) (w3 : W64) (s : State) (w2 : W64) : (raiseM part code unit w3 s w2).update = s.update := by
  unfold raiseM; try dsimp only
  (repeat' split) <;> simp
@[simp] theorem raiseM_mirror (part : Option Nat) (code : Nat) (unit : Nat) (w3 : W64) (s : State) (w2 : W64) : (raiseM part code unit w3 s w2).mirror = s.mirror := by
  unfold raiseM; try dsimp only
  (repeat' split) <;> simp
@[simp] theorem raiseM_tap (part : Option Nat) (code : Nat) (unit : Nat) (w3 : W64) (s : State) (w2 : W64) : (raiseM part code unit w3 s w2).tap = s.tap := by
  unfold raiseM; try dsimp only
  (repeat' split) <;> simp
@[simp] theorem raiseM_mem (part : Option Nat) (code : Nat) (unit : Nat) (w3 : W64) (s : State) (w2 : W64) : (raiseM part code unit w3 s w2).mem = s.mem := by
  unfold raiseM; try dsimp only
  (repeat' split) <;> simp
@[simp] theorem raiseM_poison (part : Option Nat) (code : Nat) (unit : Nat) (w3 : W64) (s : State) (w2 : W64) : (raiseM part code unit w3 s w2).poison = s.poison := by
  unfold raiseM; try dsimp only
  (repeat' split) <;> simp
@[simp] theorem raiseM_pools (part : Option Nat) (code : Nat) (unit : Nat) (w3 : W64) (s : State) (w2 : W64) : (raiseM part code unit w3 s w2).pools = s.pools := by
  unfold raiseM; try dsimp only
  (repeat' split) <;> simp
@[simp] theorem raiseM_addq (part : Option Nat) (code : Nat) (unit : Nat) (w3 : W64) (s : State) (w2 : W64) : (raiseM part code unit w3 s w2).addq = s.addq := by
  unfold raiseM; try dsimp only
  (repeat' split) <;> simp
@[simp] theorem raiseM_jobs (part : Option Nat) (code : Nat) (unit : Nat) (w3 : W64) (s : State) (w2 : W64) : (raiseM part code unit w3 s w2).jobs = s.jobs := by
  unfold raiseM; try dsimp only
  (repeat' split) <;> simp
@[simp] theorem raiseM_dp (part : Option Nat) (code : Nat) (unit : Nat) (w3 : W64) (s : State) (w2 : W64) : (raiseM part code unit w3 s w2).dp = s.dp := by
  unfold raiseM; try dsimp only
  (repeat' split) <;> simp
@[simp] theorem raiseM_faults (part : Option Nat) (code : Nat) (unit : Nat) (w3 : W64) (s : State) (w2 : W64) : (raiseM part code unit w3 s w2).faults = s.faults := by
  unfold raiseM; try dsimp only
  (repeat' split) <;> simp
@[simp] theorem raiseM_fab (part : Option Nat) (code : Nat) (unit : Nat) (w3 : W64) (s : State) (w2 : W64) : (raiseM part code unit w3 s w2).fab = s.fab := by
  unfold raiseM; try dsimp only
  (repeat' split) <;> simp

/-! `raiseAll` leaves every field but out, aon, ports, parts, mgmt. -/
@[simp] theorem raiseAll_pending (ps : List Nat) (code : Nat) (unit : Nat) (w3 : W64) (s : State) (w2 : W64) : (raiseAll ps code unit w3 s w2).pending = s.pending := by
  simp only [raiseAll]; rw [foldl_view (fun t => t.pending) _ (fun _ _ => partEvent_pending _ _ _)]; simp
@[simp] theorem raiseAll_free (ps : List Nat) (code : Nat) (unit : Nat) (w3 : W64) (s : State) (w2 : W64) : (raiseAll ps code unit w3 s w2).free = s.free := by
  simp only [raiseAll]; rw [foldl_view (fun t => t.free) _ (fun _ _ => partEvent_free _ _ _)]; simp
@[simp] theorem raiseAll_wake (ps : List Nat) (code : Nat) (unit : Nat) (w3 : W64) (s : State) (w2 : W64) : (raiseAll ps code unit w3 s w2).wake = s.wake := by
  simp only [raiseAll]; rw [foldl_view (fun t => t.wake) _ (fun _ _ => partEvent_wake _ _ _)]; simp
@[simp] theorem raiseAll_flash (ps : List Nat) (code : Nat) (unit : Nat) (w3 : W64) (s : State) (w2 : W64) : (raiseAll ps code unit w3 s w2).flash = s.flash := by
  simp only [raiseAll]; rw [foldl_view (fun t => t.flash) _ (fun _ _ => partEvent_flash _ _ _)]; simp
@[simp] theorem raiseAll_fuses (ps : List Nat) (code : Nat) (unit : Nat) (w3 : W64) (s : State) (w2 : W64) : (raiseAll ps code unit w3 s w2).fuses = s.fuses := by
  simp only [raiseAll]; rw [foldl_view (fun t => t.fuses) _ (fun _ _ => partEvent_fuses _ _ _)]; simp
@[simp] theorem raiseAll_boot (ps : List Nat) (code : Nat) (unit : Nat) (w3 : W64) (s : State) (w2 : W64) : (raiseAll ps code unit w3 s w2).boot = s.boot := by
  simp only [raiseAll]; rw [foldl_view (fun t => t.boot) _ (fun _ _ => partEvent_boot _ _ _)]; simp
@[simp] theorem raiseAll_clk (ps : List Nat) (code : Nat) (unit : Nat) (w3 : W64) (s : State) (w2 : W64) : (raiseAll ps code unit w3 s w2).clk = s.clk := by
  simp only [raiseAll]; rw [foldl_view (fun t => t.clk) _ (fun _ _ => partEvent_clk _ _ _)]; simp
@[simp] theorem raiseAll_cwk (ps : List Nat) (code : Nat) (unit : Nat) (w3 : W64) (s : State) (w2 : W64) : (raiseAll ps code unit w3 s w2).cwk = s.cwk := by
  simp only [raiseAll]; rw [foldl_view (fun t => t.cwk) _ (fun _ _ => partEvent_cwk _ _ _)]; simp
@[simp] theorem raiseAll_power (ps : List Nat) (code : Nat) (unit : Nat) (w3 : W64) (s : State) (w2 : W64) : (raiseAll ps code unit w3 s w2).power = s.power := by
  simp only [raiseAll]; rw [foldl_view (fun t => t.power) _ (fun _ _ => partEvent_power _ _ _)]; simp
@[simp] theorem raiseAll_thermal (ps : List Nat) (code : Nat) (unit : Nat) (w3 : W64) (s : State) (w2 : W64) : (raiseAll ps code unit w3 s w2).thermal = s.thermal := by
  simp only [raiseAll]; rw [foldl_view (fun t => t.thermal) _ (fun _ _ => partEvent_thermal _ _ _)]; simp
@[simp] theorem raiseAll_mail (ps : List Nat) (code : Nat) (unit : Nat) (w3 : W64) (s : State) (w2 : W64) : (raiseAll ps code unit w3 s w2).mail = s.mail := by
  simp only [raiseAll]; rw [foldl_view (fun t => t.mail) _ (fun _ _ => partEvent_mail _ _ _)]; simp
@[simp] theorem raiseAll_gated (ps : List Nat) (code : Nat) (unit : Nat) (w3 : W64) (s : State) (w2 : W64) : (raiseAll ps code unit w3 s w2).gated = s.gated := by
  simp only [raiseAll]; rw [foldl_view (fun t => t.gated) _ (fun _ _ => partEvent_gated _ _ _)]; simp
@[simp] theorem raiseAll_replies (ps : List Nat) (code : Nat) (unit : Nat) (w3 : W64) (s : State) (w2 : W64) : (raiseAll ps code unit w3 s w2).replies = s.replies := by
  simp only [raiseAll]; rw [foldl_view (fun t => t.replies) _ (fun _ _ => partEvent_replies _ _ _)]; simp
@[simp] theorem raiseAll_orders (ps : List Nat) (code : Nat) (unit : Nat) (w3 : W64) (s : State) (w2 : W64) : (raiseAll ps code unit w3 s w2).orders = s.orders := by
  simp only [raiseAll]; rw [foldl_view (fun t => t.orders) _ (fun _ _ => partEvent_orders _ _ _)]; simp
@[simp] theorem raiseAll_latches (ps : List Nat) (code : Nat) (unit : Nat) (w3 : W64) (s : State) (w2 : W64) : (raiseAll ps code unit w3 s w2).latches = s.latches := by
  simp only [raiseAll]; rw [foldl_view (fun t => t.latches) _ (fun _ _ => partEvent_latches _ _ _)]; simp
@[simp] theorem raiseAll_update (ps : List Nat) (code : Nat) (unit : Nat) (w3 : W64) (s : State) (w2 : W64) : (raiseAll ps code unit w3 s w2).update = s.update := by
  simp only [raiseAll]; rw [foldl_view (fun t => t.update) _ (fun _ _ => partEvent_update _ _ _)]; simp
@[simp] theorem raiseAll_mirror (ps : List Nat) (code : Nat) (unit : Nat) (w3 : W64) (s : State) (w2 : W64) : (raiseAll ps code unit w3 s w2).mirror = s.mirror := by
  simp only [raiseAll]; rw [foldl_view (fun t => t.mirror) _ (fun _ _ => partEvent_mirror _ _ _)]; simp
@[simp] theorem raiseAll_tap (ps : List Nat) (code : Nat) (unit : Nat) (w3 : W64) (s : State) (w2 : W64) : (raiseAll ps code unit w3 s w2).tap = s.tap := by
  simp only [raiseAll]; rw [foldl_view (fun t => t.tap) _ (fun _ _ => partEvent_tap _ _ _)]; simp
@[simp] theorem raiseAll_mem (ps : List Nat) (code : Nat) (unit : Nat) (w3 : W64) (s : State) (w2 : W64) : (raiseAll ps code unit w3 s w2).mem = s.mem := by
  simp only [raiseAll]; rw [foldl_view (fun t => t.mem) _ (fun _ _ => partEvent_mem _ _ _)]; simp
@[simp] theorem raiseAll_poison (ps : List Nat) (code : Nat) (unit : Nat) (w3 : W64) (s : State) (w2 : W64) : (raiseAll ps code unit w3 s w2).poison = s.poison := by
  simp only [raiseAll]; rw [foldl_view (fun t => t.poison) _ (fun _ _ => partEvent_poison _ _ _)]; simp
@[simp] theorem raiseAll_pools (ps : List Nat) (code : Nat) (unit : Nat) (w3 : W64) (s : State) (w2 : W64) : (raiseAll ps code unit w3 s w2).pools = s.pools := by
  simp only [raiseAll]; rw [foldl_view (fun t => t.pools) _ (fun _ _ => partEvent_pools _ _ _)]; simp
@[simp] theorem raiseAll_addq (ps : List Nat) (code : Nat) (unit : Nat) (w3 : W64) (s : State) (w2 : W64) : (raiseAll ps code unit w3 s w2).addq = s.addq := by
  simp only [raiseAll]; rw [foldl_view (fun t => t.addq) _ (fun _ _ => partEvent_addq _ _ _)]; simp
@[simp] theorem raiseAll_jobs (ps : List Nat) (code : Nat) (unit : Nat) (w3 : W64) (s : State) (w2 : W64) : (raiseAll ps code unit w3 s w2).jobs = s.jobs := by
  simp only [raiseAll]; rw [foldl_view (fun t => t.jobs) _ (fun _ _ => partEvent_jobs _ _ _)]; simp
@[simp] theorem raiseAll_dp (ps : List Nat) (code : Nat) (unit : Nat) (w3 : W64) (s : State) (w2 : W64) : (raiseAll ps code unit w3 s w2).dp = s.dp := by
  simp only [raiseAll]; rw [foldl_view (fun t => t.dp) _ (fun _ _ => partEvent_dp _ _ _)]; simp
@[simp] theorem raiseAll_faults (ps : List Nat) (code : Nat) (unit : Nat) (w3 : W64) (s : State) (w2 : W64) : (raiseAll ps code unit w3 s w2).faults = s.faults := by
  simp only [raiseAll]; rw [foldl_view (fun t => t.faults) _ (fun _ _ => partEvent_faults _ _ _)]; simp
@[simp] theorem raiseAll_fab (ps : List Nat) (code : Nat) (unit : Nat) (w3 : W64) (s : State) (w2 : W64) : (raiseAll ps code unit w3 s w2).fab = s.fab := by
  simp only [raiseAll]; rw [foldl_view (fun t => t.fab) _ (fun _ _ => partEvent_fab _ _ _)]; simp

/-! `hostAccessError` leaves every field but out, ports, parts. -/
@[simp] theorem hostAccessError_pending (port : Nat) (offset : Nat) (s : State) : (hostAccessError port offset s).pending = s.pending := by
  unfold hostAccessError; try dsimp only
  (repeat' split) <;> simp
@[simp] theorem hostAccessError_free (port : Nat) (offset : Nat) (s : State) : (hostAccessError port offset s).free = s.free := by
  unfold hostAccessError; try dsimp only
  (repeat' split) <;> simp
@[simp] theorem hostAccessError_aon (port : Nat) (offset : Nat) (s : State) : (hostAccessError port offset s).aon = s.aon := by
  unfold hostAccessError; try dsimp only
  (repeat' split) <;> simp
@[simp] theorem hostAccessError_wake (port : Nat) (offset : Nat) (s : State) : (hostAccessError port offset s).wake = s.wake := by
  unfold hostAccessError; try dsimp only
  (repeat' split) <;> simp
@[simp] theorem hostAccessError_flash (port : Nat) (offset : Nat) (s : State) : (hostAccessError port offset s).flash = s.flash := by
  unfold hostAccessError; try dsimp only
  (repeat' split) <;> simp
@[simp] theorem hostAccessError_fuses (port : Nat) (offset : Nat) (s : State) : (hostAccessError port offset s).fuses = s.fuses := by
  unfold hostAccessError; try dsimp only
  (repeat' split) <;> simp
@[simp] theorem hostAccessError_boot (port : Nat) (offset : Nat) (s : State) : (hostAccessError port offset s).boot = s.boot := by
  unfold hostAccessError; try dsimp only
  (repeat' split) <;> simp
@[simp] theorem hostAccessError_clk (port : Nat) (offset : Nat) (s : State) : (hostAccessError port offset s).clk = s.clk := by
  unfold hostAccessError; try dsimp only
  (repeat' split) <;> simp
@[simp] theorem hostAccessError_cwk (port : Nat) (offset : Nat) (s : State) : (hostAccessError port offset s).cwk = s.cwk := by
  unfold hostAccessError; try dsimp only
  (repeat' split) <;> simp
@[simp] theorem hostAccessError_power (port : Nat) (offset : Nat) (s : State) : (hostAccessError port offset s).power = s.power := by
  unfold hostAccessError; try dsimp only
  (repeat' split) <;> simp
@[simp] theorem hostAccessError_thermal (port : Nat) (offset : Nat) (s : State) : (hostAccessError port offset s).thermal = s.thermal := by
  unfold hostAccessError; try dsimp only
  (repeat' split) <;> simp
@[simp] theorem hostAccessError_mail (port : Nat) (offset : Nat) (s : State) : (hostAccessError port offset s).mail = s.mail := by
  unfold hostAccessError; try dsimp only
  (repeat' split) <;> simp
@[simp] theorem hostAccessError_gated (port : Nat) (offset : Nat) (s : State) : (hostAccessError port offset s).gated = s.gated := by
  unfold hostAccessError; try dsimp only
  (repeat' split) <;> simp
@[simp] theorem hostAccessError_replies (port : Nat) (offset : Nat) (s : State) : (hostAccessError port offset s).replies = s.replies := by
  unfold hostAccessError; try dsimp only
  (repeat' split) <;> simp
@[simp] theorem hostAccessError_orders (port : Nat) (offset : Nat) (s : State) : (hostAccessError port offset s).orders = s.orders := by
  unfold hostAccessError; try dsimp only
  (repeat' split) <;> simp
@[simp] theorem hostAccessError_latches (port : Nat) (offset : Nat) (s : State) : (hostAccessError port offset s).latches = s.latches := by
  unfold hostAccessError; try dsimp only
  (repeat' split) <;> simp
@[simp] theorem hostAccessError_mgmt (port : Nat) (offset : Nat) (s : State) : (hostAccessError port offset s).mgmt = s.mgmt := by
  unfold hostAccessError; try dsimp only
  (repeat' split) <;> simp
@[simp] theorem hostAccessError_update (port : Nat) (offset : Nat) (s : State) : (hostAccessError port offset s).update = s.update := by
  unfold hostAccessError; try dsimp only
  (repeat' split) <;> simp
@[simp] theorem hostAccessError_mirror (port : Nat) (offset : Nat) (s : State) : (hostAccessError port offset s).mirror = s.mirror := by
  unfold hostAccessError; try dsimp only
  (repeat' split) <;> simp
@[simp] theorem hostAccessError_tap (port : Nat) (offset : Nat) (s : State) : (hostAccessError port offset s).tap = s.tap := by
  unfold hostAccessError; try dsimp only
  (repeat' split) <;> simp
@[simp] theorem hostAccessError_mem (port : Nat) (offset : Nat) (s : State) : (hostAccessError port offset s).mem = s.mem := by
  unfold hostAccessError; try dsimp only
  (repeat' split) <;> simp
@[simp] theorem hostAccessError_poison (port : Nat) (offset : Nat) (s : State) : (hostAccessError port offset s).poison = s.poison := by
  unfold hostAccessError; try dsimp only
  (repeat' split) <;> simp
@[simp] theorem hostAccessError_pools (port : Nat) (offset : Nat) (s : State) : (hostAccessError port offset s).pools = s.pools := by
  unfold hostAccessError; try dsimp only
  (repeat' split) <;> simp
@[simp] theorem hostAccessError_addq (port : Nat) (offset : Nat) (s : State) : (hostAccessError port offset s).addq = s.addq := by
  unfold hostAccessError; try dsimp only
  (repeat' split) <;> simp
@[simp] theorem hostAccessError_jobs (port : Nat) (offset : Nat) (s : State) : (hostAccessError port offset s).jobs = s.jobs := by
  unfold hostAccessError; try dsimp only
  (repeat' split) <;> simp
@[simp] theorem hostAccessError_dp (port : Nat) (offset : Nat) (s : State) : (hostAccessError port offset s).dp = s.dp := by
  unfold hostAccessError; try dsimp only
  (repeat' split) <;> simp
@[simp] theorem hostAccessError_faults (port : Nat) (offset : Nat) (s : State) : (hostAccessError port offset s).faults = s.faults := by
  unfold hostAccessError; try dsimp only
  (repeat' split) <;> simp
@[simp] theorem hostAccessError_fab (port : Nat) (offset : Nat) (s : State) : (hostAccessError port offset s).fab = s.fab := by
  unfold hostAccessError; try dsimp only
  (repeat' split) <;> simp

/-! `postMessage` leaves every field but out, ports, mail, gated. -/
@[simp] theorem postMessage_pending (c : Nat) (len : Nat) (s : State) : (postMessage c len s).pending = s.pending := by
  unfold postMessage; try dsimp only
  (repeat' split) <;> simp
@[simp] theorem postMessage_free (c : Nat) (len : Nat) (s : State) : (postMessage c len s).free = s.free := by
  unfold postMessage; try dsimp only
  (repeat' split) <;> simp
@[simp] theorem postMessage_aon (c : Nat) (len : Nat) (s : State) : (postMessage c len s).aon = s.aon := by
  unfold postMessage; try dsimp only
  (repeat' split) <;> simp
@[simp] theorem postMessage_wake (c : Nat) (len : Nat) (s : State) : (postMessage c len s).wake = s.wake := by
  unfold postMessage; try dsimp only
  (repeat' split) <;> simp
@[simp] theorem postMessage_flash (c : Nat) (len : Nat) (s : State) : (postMessage c len s).flash = s.flash := by
  unfold postMessage; try dsimp only
  (repeat' split) <;> simp
@[simp] theorem postMessage_fuses (c : Nat) (len : Nat) (s : State) : (postMessage c len s).fuses = s.fuses := by
  unfold postMessage; try dsimp only
  (repeat' split) <;> simp
@[simp] theorem postMessage_boot (c : Nat) (len : Nat) (s : State) : (postMessage c len s).boot = s.boot := by
  unfold postMessage; try dsimp only
  (repeat' split) <;> simp
@[simp] theorem postMessage_clk (c : Nat) (len : Nat) (s : State) : (postMessage c len s).clk = s.clk := by
  unfold postMessage; try dsimp only
  (repeat' split) <;> simp
@[simp] theorem postMessage_cwk (c : Nat) (len : Nat) (s : State) : (postMessage c len s).cwk = s.cwk := by
  unfold postMessage; try dsimp only
  (repeat' split) <;> simp
@[simp] theorem postMessage_power (c : Nat) (len : Nat) (s : State) : (postMessage c len s).power = s.power := by
  unfold postMessage; try dsimp only
  (repeat' split) <;> simp
@[simp] theorem postMessage_thermal (c : Nat) (len : Nat) (s : State) : (postMessage c len s).thermal = s.thermal := by
  unfold postMessage; try dsimp only
  (repeat' split) <;> simp
@[simp] theorem postMessage_parts (c : Nat) (len : Nat) (s : State) : (postMessage c len s).parts = s.parts := by
  unfold postMessage; try dsimp only
  (repeat' split) <;> simp
@[simp] theorem postMessage_replies (c : Nat) (len : Nat) (s : State) : (postMessage c len s).replies = s.replies := by
  unfold postMessage; try dsimp only
  (repeat' split) <;> simp
@[simp] theorem postMessage_orders (c : Nat) (len : Nat) (s : State) : (postMessage c len s).orders = s.orders := by
  unfold postMessage; try dsimp only
  (repeat' split) <;> simp
@[simp] theorem postMessage_latches (c : Nat) (len : Nat) (s : State) : (postMessage c len s).latches = s.latches := by
  unfold postMessage; try dsimp only
  (repeat' split) <;> simp
@[simp] theorem postMessage_mgmt (c : Nat) (len : Nat) (s : State) : (postMessage c len s).mgmt = s.mgmt := by
  unfold postMessage; try dsimp only
  (repeat' split) <;> simp
@[simp] theorem postMessage_update (c : Nat) (len : Nat) (s : State) : (postMessage c len s).update = s.update := by
  unfold postMessage; try dsimp only
  (repeat' split) <;> simp
@[simp] theorem postMessage_mirror (c : Nat) (len : Nat) (s : State) : (postMessage c len s).mirror = s.mirror := by
  unfold postMessage; try dsimp only
  (repeat' split) <;> simp
@[simp] theorem postMessage_tap (c : Nat) (len : Nat) (s : State) : (postMessage c len s).tap = s.tap := by
  unfold postMessage; try dsimp only
  (repeat' split) <;> simp
@[simp] theorem postMessage_mem (c : Nat) (len : Nat) (s : State) : (postMessage c len s).mem = s.mem := by
  unfold postMessage; try dsimp only
  (repeat' split) <;> simp
@[simp] theorem postMessage_poison (c : Nat) (len : Nat) (s : State) : (postMessage c len s).poison = s.poison := by
  unfold postMessage; try dsimp only
  (repeat' split) <;> simp
@[simp] theorem postMessage_pools (c : Nat) (len : Nat) (s : State) : (postMessage c len s).pools = s.pools := by
  unfold postMessage; try dsimp only
  (repeat' split) <;> simp
@[simp] theorem postMessage_addq (c : Nat) (len : Nat) (s : State) : (postMessage c len s).addq = s.addq := by
  unfold postMessage; try dsimp only
  (repeat' split) <;> simp
@[simp] theorem postMessage_jobs (c : Nat) (len : Nat) (s : State) : (postMessage c len s).jobs = s.jobs := by
  unfold postMessage; try dsimp only
  (repeat' split) <;> simp
@[simp] theorem postMessage_dp (c : Nat) (len : Nat) (s : State) : (postMessage c len s).dp = s.dp := by
  unfold postMessage; try dsimp only
  (repeat' split) <;> simp
@[simp] theorem postMessage_faults (c : Nat) (len : Nat) (s : State) : (postMessage c len s).faults = s.faults := by
  unfold postMessage; try dsimp only
  (repeat' split) <;> simp
@[simp] theorem postMessage_fab (c : Nat) (len : Nat) (s : State) : (postMessage c len s).fab = s.fab := by
  unfold postMessage; try dsimp only
  (repeat' split) <;> simp

/-! `reply` leaves every field but out, ports, mail, gated, replies. -/
@[simp] theorem reply_pending (c : Nat) (bs : List Byte) (s : State) : (reply c bs s).pending = s.pending := by
  unfold reply; try dsimp only
  (repeat' split) <;> simp
@[simp] theorem reply_free (c : Nat) (bs : List Byte) (s : State) : (reply c bs s).free = s.free := by
  unfold reply; try dsimp only
  (repeat' split) <;> simp
@[simp] theorem reply_aon (c : Nat) (bs : List Byte) (s : State) : (reply c bs s).aon = s.aon := by
  unfold reply; try dsimp only
  (repeat' split) <;> simp
@[simp] theorem reply_wake (c : Nat) (bs : List Byte) (s : State) : (reply c bs s).wake = s.wake := by
  unfold reply; try dsimp only
  (repeat' split) <;> simp
@[simp] theorem reply_flash (c : Nat) (bs : List Byte) (s : State) : (reply c bs s).flash = s.flash := by
  unfold reply; try dsimp only
  (repeat' split) <;> simp
@[simp] theorem reply_fuses (c : Nat) (bs : List Byte) (s : State) : (reply c bs s).fuses = s.fuses := by
  unfold reply; try dsimp only
  (repeat' split) <;> simp
@[simp] theorem reply_boot (c : Nat) (bs : List Byte) (s : State) : (reply c bs s).boot = s.boot := by
  unfold reply; try dsimp only
  (repeat' split) <;> simp
@[simp] theorem reply_clk (c : Nat) (bs : List Byte) (s : State) : (reply c bs s).clk = s.clk := by
  unfold reply; try dsimp only
  (repeat' split) <;> simp
@[simp] theorem reply_cwk (c : Nat) (bs : List Byte) (s : State) : (reply c bs s).cwk = s.cwk := by
  unfold reply; try dsimp only
  (repeat' split) <;> simp
@[simp] theorem reply_power (c : Nat) (bs : List Byte) (s : State) : (reply c bs s).power = s.power := by
  unfold reply; try dsimp only
  (repeat' split) <;> simp
@[simp] theorem reply_thermal (c : Nat) (bs : List Byte) (s : State) : (reply c bs s).thermal = s.thermal := by
  unfold reply; try dsimp only
  (repeat' split) <;> simp
@[simp] theorem reply_parts (c : Nat) (bs : List Byte) (s : State) : (reply c bs s).parts = s.parts := by
  unfold reply; try dsimp only
  (repeat' split) <;> simp
@[simp] theorem reply_orders (c : Nat) (bs : List Byte) (s : State) : (reply c bs s).orders = s.orders := by
  unfold reply; try dsimp only
  (repeat' split) <;> simp
@[simp] theorem reply_latches (c : Nat) (bs : List Byte) (s : State) : (reply c bs s).latches = s.latches := by
  unfold reply; try dsimp only
  (repeat' split) <;> simp
@[simp] theorem reply_mgmt (c : Nat) (bs : List Byte) (s : State) : (reply c bs s).mgmt = s.mgmt := by
  unfold reply; try dsimp only
  (repeat' split) <;> simp
@[simp] theorem reply_update (c : Nat) (bs : List Byte) (s : State) : (reply c bs s).update = s.update := by
  unfold reply; try dsimp only
  (repeat' split) <;> simp
@[simp] theorem reply_mirror (c : Nat) (bs : List Byte) (s : State) : (reply c bs s).mirror = s.mirror := by
  unfold reply; try dsimp only
  (repeat' split) <;> simp
@[simp] theorem reply_tap (c : Nat) (bs : List Byte) (s : State) : (reply c bs s).tap = s.tap := by
  unfold reply; try dsimp only
  (repeat' split) <;> simp
@[simp] theorem reply_mem (c : Nat) (bs : List Byte) (s : State) : (reply c bs s).mem = s.mem := by
  unfold reply; try dsimp only
  (repeat' split) <;> simp
@[simp] theorem reply_poison (c : Nat) (bs : List Byte) (s : State) : (reply c bs s).poison = s.poison := by
  unfold reply; try dsimp only
  (repeat' split) <;> simp
@[simp] theorem reply_pools (c : Nat) (bs : List Byte) (s : State) : (reply c bs s).pools = s.pools := by
  unfold reply; try dsimp only
  (repeat' split) <;> simp
@[simp] theorem reply_addq (c : Nat) (bs : List Byte) (s : State) : (reply c bs s).addq = s.addq := by
  unfold reply; try dsimp only
  (repeat' split) <;> simp
@[simp] theorem reply_jobs (c : Nat) (bs : List Byte) (s : State) : (reply c bs s).jobs = s.jobs := by
  unfold reply; try dsimp only
  (repeat' split) <;> simp
@[simp] theorem reply_dp (c : Nat) (bs : List Byte) (s : State) : (reply c bs s).dp = s.dp := by
  unfold reply; try dsimp only
  (repeat' split) <;> simp
@[simp] theorem reply_faults (c : Nat) (bs : List Byte) (s : State) : (reply c bs s).faults = s.faults := by
  unfold reply; try dsimp only
  (repeat' split) <;> simp
@[simp] theorem reply_fab (c : Nat) (bs : List Byte) (s : State) : (reply c bs s).fab = s.fab := by
  unfold reply; try dsimp only
  (repeat' split) <;> simp

/-! `writeBackup` leaves every field but aon. -/
@[simp] theorem writeBackup_pending (s : State) : (writeBackup s).pending = s.pending := by simp only [writeBackup]
@[simp] theorem writeBackup_out (s : State) : (writeBackup s).out = s.out := by simp only [writeBackup]
@[simp] theorem writeBackup_free (s : State) : (writeBackup s).free = s.free := by simp only [writeBackup]
@[simp] theorem writeBackup_wake (s : State) : (writeBackup s).wake = s.wake := by simp only [writeBackup]
@[simp] theorem writeBackup_flash (s : State) : (writeBackup s).flash = s.flash := by simp only [writeBackup]
@[simp] theorem writeBackup_fuses (s : State) : (writeBackup s).fuses = s.fuses := by simp only [writeBackup]
@[simp] theorem writeBackup_boot (s : State) : (writeBackup s).boot = s.boot := by simp only [writeBackup]
@[simp] theorem writeBackup_clk (s : State) : (writeBackup s).clk = s.clk := by simp only [writeBackup]
@[simp] theorem writeBackup_cwk (s : State) : (writeBackup s).cwk = s.cwk := by simp only [writeBackup]
@[simp] theorem writeBackup_power (s : State) : (writeBackup s).power = s.power := by simp only [writeBackup]
@[simp] theorem writeBackup_thermal (s : State) : (writeBackup s).thermal = s.thermal := by simp only [writeBackup]
@[simp] theorem writeBackup_ports (s : State) : (writeBackup s).ports = s.ports := by simp only [writeBackup]
@[simp] theorem writeBackup_parts (s : State) : (writeBackup s).parts = s.parts := by simp only [writeBackup]
@[simp] theorem writeBackup_mail (s : State) : (writeBackup s).mail = s.mail := by simp only [writeBackup]
@[simp] theorem writeBackup_gated (s : State) : (writeBackup s).gated = s.gated := by simp only [writeBackup]
@[simp] theorem writeBackup_replies (s : State) : (writeBackup s).replies = s.replies := by simp only [writeBackup]
@[simp] theorem writeBackup_orders (s : State) : (writeBackup s).orders = s.orders := by simp only [writeBackup]
@[simp] theorem writeBackup_latches (s : State) : (writeBackup s).latches = s.latches := by simp only [writeBackup]
@[simp] theorem writeBackup_mgmt (s : State) : (writeBackup s).mgmt = s.mgmt := by simp only [writeBackup]
@[simp] theorem writeBackup_update (s : State) : (writeBackup s).update = s.update := by simp only [writeBackup]
@[simp] theorem writeBackup_mirror (s : State) : (writeBackup s).mirror = s.mirror := by simp only [writeBackup]
@[simp] theorem writeBackup_tap (s : State) : (writeBackup s).tap = s.tap := by simp only [writeBackup]
@[simp] theorem writeBackup_mem (s : State) : (writeBackup s).mem = s.mem := by simp only [writeBackup]
@[simp] theorem writeBackup_poison (s : State) : (writeBackup s).poison = s.poison := by simp only [writeBackup]
@[simp] theorem writeBackup_pools (s : State) : (writeBackup s).pools = s.pools := by simp only [writeBackup]
@[simp] theorem writeBackup_addq (s : State) : (writeBackup s).addq = s.addq := by simp only [writeBackup]
@[simp] theorem writeBackup_jobs (s : State) : (writeBackup s).jobs = s.jobs := by simp only [writeBackup]
@[simp] theorem writeBackup_dp (s : State) : (writeBackup s).dp = s.dp := by simp only [writeBackup]
@[simp] theorem writeBackup_faults (s : State) : (writeBackup s).faults = s.faults := by simp only [writeBackup]
@[simp] theorem writeBackup_fab (s : State) : (writeBackup s).fab = s.fab := by simp only [writeBackup]

/-! `writeJournal` leaves every field but aon, flash. -/
@[simp] theorem writeJournal_pending (j : JEntry) (s : State) : (writeJournal j s).pending = s.pending := by simp only [writeJournal]
@[simp] theorem writeJournal_out (j : JEntry) (s : State) : (writeJournal j s).out = s.out := by simp only [writeJournal]
@[simp] theorem writeJournal_free (j : JEntry) (s : State) : (writeJournal j s).free = s.free := by simp only [writeJournal]
@[simp] theorem writeJournal_wake (j : JEntry) (s : State) : (writeJournal j s).wake = s.wake := by simp only [writeJournal]
@[simp] theorem writeJournal_fuses (j : JEntry) (s : State) : (writeJournal j s).fuses = s.fuses := by simp only [writeJournal]
@[simp] theorem writeJournal_boot (j : JEntry) (s : State) : (writeJournal j s).boot = s.boot := by simp only [writeJournal]
@[simp] theorem writeJournal_clk (j : JEntry) (s : State) : (writeJournal j s).clk = s.clk := by simp only [writeJournal]
@[simp] theorem writeJournal_cwk (j : JEntry) (s : State) : (writeJournal j s).cwk = s.cwk := by simp only [writeJournal]
@[simp] theorem writeJournal_power (j : JEntry) (s : State) : (writeJournal j s).power = s.power := by simp only [writeJournal]
@[simp] theorem writeJournal_thermal (j : JEntry) (s : State) : (writeJournal j s).thermal = s.thermal := by simp only [writeJournal]
@[simp] theorem writeJournal_ports (j : JEntry) (s : State) : (writeJournal j s).ports = s.ports := by simp only [writeJournal]
@[simp] theorem writeJournal_parts (j : JEntry) (s : State) : (writeJournal j s).parts = s.parts := by simp only [writeJournal]
@[simp] theorem writeJournal_mail (j : JEntry) (s : State) : (writeJournal j s).mail = s.mail := by simp only [writeJournal]
@[simp] theorem writeJournal_gated (j : JEntry) (s : State) : (writeJournal j s).gated = s.gated := by simp only [writeJournal]
@[simp] theorem writeJournal_replies (j : JEntry) (s : State) : (writeJournal j s).replies = s.replies := by simp only [writeJournal]
@[simp] theorem writeJournal_orders (j : JEntry) (s : State) : (writeJournal j s).orders = s.orders := by simp only [writeJournal]
@[simp] theorem writeJournal_latches (j : JEntry) (s : State) : (writeJournal j s).latches = s.latches := by simp only [writeJournal]
@[simp] theorem writeJournal_mgmt (j : JEntry) (s : State) : (writeJournal j s).mgmt = s.mgmt := by simp only [writeJournal]
@[simp] theorem writeJournal_update (j : JEntry) (s : State) : (writeJournal j s).update = s.update := by simp only [writeJournal]
@[simp] theorem writeJournal_mirror (j : JEntry) (s : State) : (writeJournal j s).mirror = s.mirror := by simp only [writeJournal]
@[simp] theorem writeJournal_tap (j : JEntry) (s : State) : (writeJournal j s).tap = s.tap := by simp only [writeJournal]
@[simp] theorem writeJournal_mem (j : JEntry) (s : State) : (writeJournal j s).mem = s.mem := by simp only [writeJournal]
@[simp] theorem writeJournal_poison (j : JEntry) (s : State) : (writeJournal j s).poison = s.poison := by simp only [writeJournal]
@[simp] theorem writeJournal_pools (j : JEntry) (s : State) : (writeJournal j s).pools = s.pools := by simp only [writeJournal]
@[simp] theorem writeJournal_addq (j : JEntry) (s : State) : (writeJournal j s).addq = s.addq := by simp only [writeJournal]
@[simp] theorem writeJournal_jobs (j : JEntry) (s : State) : (writeJournal j s).jobs = s.jobs := by simp only [writeJournal]
@[simp] theorem writeJournal_dp (j : JEntry) (s : State) : (writeJournal j s).dp = s.dp := by simp only [writeJournal]
@[simp] theorem writeJournal_faults (j : JEntry) (s : State) : (writeJournal j s).faults = s.faults := by simp only [writeJournal]
@[simp] theorem writeJournal_fab (j : JEntry) (s : State) : (writeJournal j s).fab = s.fab := by simp only [writeJournal]

/-! `writeHeader` leaves every field but flash. -/
@[simp] theorem writeHeader_pending (h : Header) (s : State) : (writeHeader h s).pending = s.pending := by simp only [writeHeader]
@[simp] theorem writeHeader_out (h : Header) (s : State) : (writeHeader h s).out = s.out := by simp only [writeHeader]
@[simp] theorem writeHeader_free (h : Header) (s : State) : (writeHeader h s).free = s.free := by simp only [writeHeader]
@[simp] theorem writeHeader_aon (h : Header) (s : State) : (writeHeader h s).aon = s.aon := by simp only [writeHeader]
@[simp] theorem writeHeader_wake (h : Header) (s : State) : (writeHeader h s).wake = s.wake := by simp only [writeHeader]
@[simp] theorem writeHeader_fuses (h : Header) (s : State) : (writeHeader h s).fuses = s.fuses := by simp only [writeHeader]
@[simp] theorem writeHeader_boot (h : Header) (s : State) : (writeHeader h s).boot = s.boot := by simp only [writeHeader]
@[simp] theorem writeHeader_clk (h : Header) (s : State) : (writeHeader h s).clk = s.clk := by simp only [writeHeader]
@[simp] theorem writeHeader_cwk (h : Header) (s : State) : (writeHeader h s).cwk = s.cwk := by simp only [writeHeader]
@[simp] theorem writeHeader_power (h : Header) (s : State) : (writeHeader h s).power = s.power := by simp only [writeHeader]
@[simp] theorem writeHeader_thermal (h : Header) (s : State) : (writeHeader h s).thermal = s.thermal := by simp only [writeHeader]
@[simp] theorem writeHeader_ports (h : Header) (s : State) : (writeHeader h s).ports = s.ports := by simp only [writeHeader]
@[simp] theorem writeHeader_parts (h : Header) (s : State) : (writeHeader h s).parts = s.parts := by simp only [writeHeader]
@[simp] theorem writeHeader_mail (h : Header) (s : State) : (writeHeader h s).mail = s.mail := by simp only [writeHeader]
@[simp] theorem writeHeader_gated (h : Header) (s : State) : (writeHeader h s).gated = s.gated := by simp only [writeHeader]
@[simp] theorem writeHeader_replies (h : Header) (s : State) : (writeHeader h s).replies = s.replies := by simp only [writeHeader]
@[simp] theorem writeHeader_orders (h : Header) (s : State) : (writeHeader h s).orders = s.orders := by simp only [writeHeader]
@[simp] theorem writeHeader_latches (h : Header) (s : State) : (writeHeader h s).latches = s.latches := by simp only [writeHeader]
@[simp] theorem writeHeader_mgmt (h : Header) (s : State) : (writeHeader h s).mgmt = s.mgmt := by simp only [writeHeader]
@[simp] theorem writeHeader_update (h : Header) (s : State) : (writeHeader h s).update = s.update := by simp only [writeHeader]
@[simp] theorem writeHeader_mirror (h : Header) (s : State) : (writeHeader h s).mirror = s.mirror := by simp only [writeHeader]
@[simp] theorem writeHeader_tap (h : Header) (s : State) : (writeHeader h s).tap = s.tap := by simp only [writeHeader]
@[simp] theorem writeHeader_mem (h : Header) (s : State) : (writeHeader h s).mem = s.mem := by simp only [writeHeader]
@[simp] theorem writeHeader_poison (h : Header) (s : State) : (writeHeader h s).poison = s.poison := by simp only [writeHeader]
@[simp] theorem writeHeader_pools (h : Header) (s : State) : (writeHeader h s).pools = s.pools := by simp only [writeHeader]
@[simp] theorem writeHeader_addq (h : Header) (s : State) : (writeHeader h s).addq = s.addq := by simp only [writeHeader]
@[simp] theorem writeHeader_jobs (h : Header) (s : State) : (writeHeader h s).jobs = s.jobs := by simp only [writeHeader]
@[simp] theorem writeHeader_dp (h : Header) (s : State) : (writeHeader h s).dp = s.dp := by simp only [writeHeader]
@[simp] theorem writeHeader_faults (h : Header) (s : State) : (writeHeader h s).faults = s.faults := by simp only [writeHeader]
@[simp] theorem writeHeader_fab (h : Header) (s : State) : (writeHeader h s).fab = s.fab := by simp only [writeHeader]

/-! `setStage` leaves every field but aon, flash. -/
@[simp] theorem setStage_pending (stage : Nat) (s : State) : (setStage stage s).pending = s.pending := by simp [setStage]
@[simp] theorem setStage_out (stage : Nat) (s : State) : (setStage stage s).out = s.out := by simp [setStage]
@[simp] theorem setStage_free (stage : Nat) (s : State) : (setStage stage s).free = s.free := by simp [setStage]
@[simp] theorem setStage_wake (stage : Nat) (s : State) : (setStage stage s).wake = s.wake := by simp [setStage]
@[simp] theorem setStage_fuses (stage : Nat) (s : State) : (setStage stage s).fuses = s.fuses := by simp [setStage]
@[simp] theorem setStage_boot (stage : Nat) (s : State) : (setStage stage s).boot = s.boot := by simp [setStage]
@[simp] theorem setStage_clk (stage : Nat) (s : State) : (setStage stage s).clk = s.clk := by simp [setStage]
@[simp] theorem setStage_cwk (stage : Nat) (s : State) : (setStage stage s).cwk = s.cwk := by simp [setStage]
@[simp] theorem setStage_power (stage : Nat) (s : State) : (setStage stage s).power = s.power := by simp [setStage]
@[simp] theorem setStage_thermal (stage : Nat) (s : State) : (setStage stage s).thermal = s.thermal := by simp [setStage]
@[simp] theorem setStage_ports (stage : Nat) (s : State) : (setStage stage s).ports = s.ports := by simp [setStage]
@[simp] theorem setStage_parts (stage : Nat) (s : State) : (setStage stage s).parts = s.parts := by simp [setStage]
@[simp] theorem setStage_mail (stage : Nat) (s : State) : (setStage stage s).mail = s.mail := by simp [setStage]
@[simp] theorem setStage_gated (stage : Nat) (s : State) : (setStage stage s).gated = s.gated := by simp [setStage]
@[simp] theorem setStage_replies (stage : Nat) (s : State) : (setStage stage s).replies = s.replies := by simp [setStage]
@[simp] theorem setStage_orders (stage : Nat) (s : State) : (setStage stage s).orders = s.orders := by simp [setStage]
@[simp] theorem setStage_latches (stage : Nat) (s : State) : (setStage stage s).latches = s.latches := by simp [setStage]
@[simp] theorem setStage_mgmt (stage : Nat) (s : State) : (setStage stage s).mgmt = s.mgmt := by simp [setStage]
@[simp] theorem setStage_update (stage : Nat) (s : State) : (setStage stage s).update = s.update := by simp [setStage]
@[simp] theorem setStage_mirror (stage : Nat) (s : State) : (setStage stage s).mirror = s.mirror := by simp [setStage]
@[simp] theorem setStage_tap (stage : Nat) (s : State) : (setStage stage s).tap = s.tap := by simp [setStage]
@[simp] theorem setStage_mem (stage : Nat) (s : State) : (setStage stage s).mem = s.mem := by simp [setStage]
@[simp] theorem setStage_poison (stage : Nat) (s : State) : (setStage stage s).poison = s.poison := by simp [setStage]
@[simp] theorem setStage_pools (stage : Nat) (s : State) : (setStage stage s).pools = s.pools := by simp [setStage]
@[simp] theorem setStage_addq (stage : Nat) (s : State) : (setStage stage s).addq = s.addq := by simp [setStage]
@[simp] theorem setStage_jobs (stage : Nat) (s : State) : (setStage stage s).jobs = s.jobs := by simp [setStage]
@[simp] theorem setStage_dp (stage : Nat) (s : State) : (setStage stage s).dp = s.dp := by simp [setStage]
@[simp] theorem setStage_faults (stage : Nat) (s : State) : (setStage stage s).faults = s.faults := by simp [setStage]
@[simp] theorem setStage_fab (stage : Nat) (s : State) : (setStage stage s).fab = s.fab := by simp [setStage]

end Sys2Proof.Machine
end

