-- ==== Sys2Proof/Laws/Jobs.lean ====
section
/-! SUPPORT. Laws/Jobs.lean: the stores to device memory and the end of a run: the form of memory they keep, and where the bytes go. -/
namespace Sys2Proof.Machine

@[simp] theorem memoryError_mem (a : Nat) (s : State) : (memoryError a s).mem = s.mem := by
  unfold memoryError
  split <;> simp

@[simp] theorem discardWrite_mem (a : Nat) (s : State) : (discardWrite a s).mem = s.mem := by
  simp only [discardWrite]
  split <;> simp

@[simp] theorem liftPoison_mem (rs : List (Nat × Nat)) (s : State) : (liftPoison rs s).mem = s.mem := rfl

@[simp] theorem sendSpill_mem (n : Nat) (rs : List (Nat × Nat)) (s : State) : (sendSpill n rs s).mem = s.mem := by
  unfold sendSpill
  split <;> simp

@[simp] theorem raiseJ_mem (j : Job) (code unit : Nat) (w3 : W64) (s : State) : (raiseJ j code unit w3 s).mem = s.mem := by
  simp [raiseJ]

/-- A fold of changes of the state that keep the form of memory keeps it. -/
theorem wf_foldl_state {β : Type} (f : State → β → State) (hf : ∀ s b, Memory.wf s.mem = true → Memory.wf (f s b).mem = true) (l : List β)
    (s : State) (h : Memory.wf s.mem = true) : Memory.wf (l.foldl f s).mem = true := by
  induction l generalizing s with
  | nil => exact h
  | cons b r ih => exact ih (f s b) (hf s b h)

/-- Discarding writes to channels out of service keeps the form (R543). -/
@[simp] theorem wf_keepDead (rs : List (Nat × Nat)) (old : Mem) (s : State) (h : Memory.wf s.mem = true) :
    Memory.wf (keepDead rs old s).mem = true := by
  unfold keepDead
  split
  · exact h
  · exact wf_foldl_state _ (fun s p hs => by simpa using wf_wrBytes _ _ _ hs) _ s h

/-- With no unit out of service nothing is discarded. -/
theorem keepDead_none (rs : List (Nat × Nat)) (old : Mem) (s : State) (h : s.faults.out = []) : keepDead rs old s = s := by
  simp [keepDead, h]

/-- A store keeps the form. -/
@[simp] theorem wf_store (a : Nat) (bs : List Byte) (s : State) (h : Memory.wf s.mem = true) : Memory.wf (store a bs s).mem = true :=
  wf_keepDead _ _ _ (wf_wrBytes a bs s.mem h)

/-- A store of words keeps the form. -/
@[simp] theorem wf_storeWords (a : Nat) (ws : List W64) (s : State) (h : Memory.wf s.mem = true) :
    Memory.wf (storeWords a ws s).mem = true := wf_store _ _ _ h

/-- What follows the writes of a tile keeps the form. -/
@[simp] theorem wf_finishWrites (n : Nat) (rs : List (Nat × Nat)) (old : Mem) (s : State) (h : Memory.wf s.mem = true) :
    Memory.wf (finishWrites n rs old s).mem = true := by
  unfold finishWrites
  rw [sendSpill_mem]
  exact wf_keepDead _ _ _ h

/-- With every unit in service, what follows the writes of a tile changes no byte. -/
theorem finishWrites_mem (n : Nat) (rs : List (Nat × Nat)) (old : Mem) (s : State) (h : s.faults.out = []) :
    (finishWrites n rs old s).mem = s.mem := by
  unfold finishWrites
  rw [sendSpill_mem, keepDead_none _ _ (liftPoison rs s) h, liftPoison_mem]

/-- With every unit in service a store writes its bytes and no other (R326, R543). -/
theorem store_mem (a : Nat) (bs : List Byte) (s : State) (h : s.faults.out = []) : (store a bs s).mem = wrBytes a bs s.mem := by
  exact congrArg State.mem (keepDead_none [(a, bs.length)] s.mem (liftPoison [(a, bs.length)] { s with mem := wrBytes a bs s.mem }) h)

/-- Zeroing the stores of a partition keeps the form (R189). -/
@[simp] theorem wf_zeroStores (n : Nat) (s : State) (h : Memory.wf s.mem = true) : Memory.wf (zeroStores n s).mem = true := by
  unfold zeroStores
  split
  · exact h
  · exact wf_foldl _ _ _ (fun m b hm => wf_zeroRange _ _ _ (wf_zeroRange _ _ _ hm)) h

/-- The stage of the update after it has been set (R587). -/
@[simp] theorem stageOf_setStage (n : Nat) (s : State) : stageOf (setStage n s) = n := by
  simp [stageOf, setStage, writeJournal]

/-- The event that is logged stands in the always-on log (R99). -/
theorem mem_log_logEvent (e : Event) (s : State) : e ∈ (logEvent e s).aon.log := by
  have h : (s.aon.log ++ [e]).length - 1024 ≤ s.aon.log.length := by simp
  simp only [logEvent]
  rw [List.drop_append_of_le_length h]
  simp

/-- An event of scope M stands in the always-on log (R547). -/
theorem raiseM_log (p : Option Nat) (code unit : Nat) (w3 : W64) (s : State) (w2 : W64) :
    event code unit w2 w3 s ∈ (raiseM p code unit w3 s w2).aon.log := by
  have h : (raiseM p code unit w3 s w2).aon = (logEvent (event code unit w2 w3 s) s).aon := by
    unfold raiseM
    dsimp only
    (repeat' split) <;> simp
  rw [h]
  exact mem_log_logEvent _ s

end Sys2Proof.Machine
end

