-- ==== Sys2Proof/Laws/Views.lean ====
section
/-! SUPPORT. Laws/Views.lean: what the accessors of numbered things read after one of them has changed. -/
namespace Sys2Proof.Machine

@[simp] theorem upd_length {α : Type} (l : List α) (i : Nat) (f : α → α) : (upd l i f).length = l.length := by simp [upd]

@[simp] theorem setAt_length {α : Type} (l : List α) (i : Nat) (a : α) : (setAt l i a).length = l.length := by simp [setAt]

theorem upd_getElem?_same {α : Type} (l : List α) (i : Nat) (f : α → α) : (upd l i f)[i]? = l[i]?.map f := by
  simp [upd]

theorem upd_getElem?_other {α : Type} (l : List α) (i k : Nat) (f : α → α) (h : k ≠ i) : (upd l i f)[k]? = l[k]? := by
  have h' : ¬ i = k := fun e => h e.symm
  simp [upd, h']

/-- The changed entry. -/
theorem upd_getD_same {α : Type} (l : List α) (i : Nat) (f : α → α) (d : α) (h : i < l.length) : (upd l i f).getD i d = f (l.getD i d) := by
  simp only [List.getD_eq_getElem?_getD]
  rw [upd_getElem?_same, List.getElem?_eq_getElem h]
  rfl

/-- Every other entry. -/
theorem upd_getD_other {α : Type} (l : List α) (i k : Nat) (f : α → α) (d : α) (h : k ≠ i) : (upd l i f).getD k d = l.getD k d := by
  simp only [List.getD_eq_getElem?_getD]
  rw [upd_getElem?_other l i k f h]

theorem chan_onChan_same (c : Nat) (f : Mailbox → Mailbox) (s : State) (h : c < s.mail.length) : chan c (onChan c f s) = f (chan c s) :=
  upd_getD_same _ _ _ _ h
theorem chan_onChan_other (c d : Nat) (f : Mailbox → Mailbox) (s : State) (h : d ≠ c) : chan d (onChan c f s) = chan d s :=
  upd_getD_other _ _ _ _ _ h
theorem portOf_onPort_same (n : Nat) (f : Port → Port) (s : State) (h : n < s.ports.length) : portOf n (onPort n f s) = f (portOf n s) :=
  upd_getD_same _ _ _ _ h
theorem portOf_onPort_other (n k : Nat) (f : Port → Port) (s : State) (h : k ≠ n) : portOf k (onPort n f s) = portOf k s :=
  upd_getD_other _ _ _ _ _ h
theorem partOf_onPart_same (n : Nat) (f : Part → Part) (s : State) (h : n < s.parts.length) : partOf n (onPart n f s) = f (partOf n s) :=
  upd_getD_same _ _ _ _ h
theorem partOf_onPart_other (n k : Nat) (f : Part → Part) (s : State) (h : k ≠ n) : partOf k (onPart n f s) = partOf k s :=
  upd_getD_other _ _ _ _ _ h
theorem poolOf_onPool_same (k : Nat) (f : Pool → Pool) (s : State) (h : k < s.pools.length) : poolOf k (onPool k f s) = f (poolOf k s) :=
  upd_getD_same _ _ _ _ h
theorem poolOf_onPool_other (k n : Nat) (f : Pool → Pool) (s : State) (h : n ≠ k) : poolOf n (onPool k f s) = poolOf n s :=
  upd_getD_other _ _ _ _ _ h
theorem linkOf_onLink_same (k : Nat) (f : Link → Link) (s : State) (h : k < s.fab.links.length) : linkOf k (onLink k f s) = f (linkOf k s) :=
  upd_getD_same _ _ _ _ h
theorem linkOf_onLink_other (k n : Nat) (f : Link → Link) (s : State) (h : n ≠ k) : linkOf n (onLink k f s) = linkOf n s :=
  upd_getD_other _ _ _ _ _ h
theorem spdmOf_onSpdm_same (e : Nat) (f : Spdm → Spdm) (s : State) (h : e < s.mgmt.spdm.length) : spdmOf e (onSpdm e f s) = f (spdmOf e s) :=
  upd_getD_same _ _ _ _ h

/-- Another job is found as before a change of one job that keeps its partition and number. -/
theorem jobOf_onJob_other (p n p' n' : Nat) (f : Job → Job) (s : State) (hf : ∀ j, (f j).part = j.part ∧ (f j).num = j.num)
    (h : ¬ (p' = p ∧ n' = n)) : jobOf p' n' (onJob p n f s) = jobOf p' n' s := by
  simp only [jobOf, onJob_jobs]
  induction s.jobs with
  | nil => rfl
  | cons j r ih =>
    rw [List.map_cons, List.find?_cons, List.find?_cons, ih]
    by_cases hj : (j.part == p && j.num == n) = true
    · have e1 : (j.part == p' && j.num == n') = false := by
        simp only [Bool.and_eq_true, beq_iff_eq] at hj
        simp only [Bool.and_eq_false_iff, beq_eq_false_iff_ne, hj.1, hj.2]
        by_cases hpp : p = p'
        · exact Or.inr fun e => h ⟨hpp.symm, e.symm⟩
        · exact Or.inl hpp
      simp only [if_pos hj, (hf j).1, (hf j).2, e1]
    · simp only [if_neg hj]

/-- The job that is changed. -/
theorem jobOf_onJob_same (p n : Nat) (f : Job → Job) (s : State) (hf : ∀ j, (f j).part = j.part ∧ (f j).num = j.num) :
    jobOf p n (onJob p n f s) = (jobOf p n s).map f := by
  simp only [jobOf, onJob_jobs]
  induction s.jobs with
  | nil => rfl
  | cons j r ih =>
    rw [List.map_cons, List.find?_cons, List.find?_cons, ih]
    by_cases hj : (j.part == p && j.num == n) = true
    · rw [if_pos hj, (hf j).1, (hf j).2, hj]; rfl
    · simp only [if_neg hj]
      have : (j.part == p && j.num == n) = false := by simpa using hj
      simp only [this]

end Sys2Proof.Machine
end

