-- ==== Sys2Proof/Tests/Slice0.lean ====
section
/-! SUPPORT. Tests/Slice0.lean: an ill-formed term for each check of WellFormed; for every statement of the obligations, states and operands
that meet the hypotheses of each of its clauses; and small one-step tests whose results are worked out from the spec. -/
namespace Sys2Proof.Tests
open Sys2Proof.Machine
set_option Elab.async false

/-! ### WellFormed refuses -/

theorem test_wf_host : Instr.wellFormed (.perstNAssert 4) = false ∧ Instr.wellFormed (.qpDeleteDrained 0 16) = false ∧
    Instr.wellFormed (.partitionReady 4 true) = false ∧ Instr.wellFormed (.mbSend 1 64 8) = false ∧
    Instr.wellFormed (.mbDataWrite 1 0 256 [0]) = false ∧ Instr.wellFormed (.registerWrite 0 0x100000 8 0) = false ∧
    Instr.wellFormed (.submissionFetch 0 0 [0]) = false ∧ Instr.wellFormed (.hostLinkUp 0 7 16 true false) = false ∧
    Instr.wellFormed (.hostLinkUp 0 6 17 true false) = false ∧ Instr.wellFormed (.orderModuleReset 256 0 true) = false := by decide

theorem test_wf_tiles : Instr.wellFormed (.spinnerWindowExpiry 1056 0) = false ∧ Instr.wellFormed (.spinnerWindowExpiry 0 4) = false ∧
    Instr.wellFormed (.arrayStartStagger 66 8) = false ∧ Instr.wellFormed (.spareTakesPosition 1056 0 [] false) = false ∧
    Instr.wellFormed (.droopDetect 66 40 32) = false ∧ Instr.wellFormed (.bankSpareCopyDone 256 0 0) = false ∧
    Instr.wellFormed (.bankSpareCopyDone 0 2 0) = false ∧ Instr.wellFormed (.bankSpareCopyDone 0 0 256) = false ∧
    Instr.wellFormed (.reserve 16 0) = false ∧ Instr.wellFormed (.reserve 0 4096) = false ∧
    Instr.wellFormed (.serdenPowerGate 8) = false := by decide

theorem test_wf_jobs : Instr.wellFormed (.runEnd 0 (2 ^ 32)) = false ∧ Instr.wellFormed (.segmentUpdateDone 0 0 4096 none) = false ∧
    Instr.wellFormed (.frameAcquired 0 0 0 false 256) = false ∧ Instr.wellFormed (.permuteRoundEnd 0 0 65536) = false ∧
    Instr.wellFormed (.thermalSensorUpdate [0] 0) = false ∧ Instr.wellFormed (.wakeStepTimeout 256) = false ∧
    Instr.wellFormed (.feedApplied 3 0 0) = false ∧ Instr.wellFormed (.feedApplied 0 0 8) = false := by decide

theorem test_wf_links : Instr.wellFormed (.count 36 0 0 []) = false ∧ Instr.wellFormed (.identityFlit 0 4096 0 0 false false 0) = false ∧
    Instr.wellFormed (.linkTrainStageDone 0 3) = false ∧ Instr.wellFormed (.linkSaturationTimeout 0 5) = false ∧
    Instr.wellFormed (.resolve 0 64 0) = false ∧ Instr.wellFormed (.dmtCnp 0 0 5 0) = false ∧
    Instr.wellFormed (.dmtCnp 0 0 0 (2 ^ 24)) = false ∧ Instr.wellFormed (.flitReceive 0 [0]) = false ∧
    Instr.wellFormed (.setEndpointId 5 8) = false ∧ Instr.wellFormed (.programKeySlot 0 4 0) = false ∧
    Instr.wellFormed (.i3cDynamicAddress 128) = false := by decide

/-! ### A small machine -/

/-- A blueprint with two partitions, a host port and half of the stacks each. -/
def bp : Blueprint :=
  { securityVersion := 1, buildId := 7, keySlot := 0, records := 0, skipped := 0, debugOpen := false,
    parts := [⟨0x3, 0, 30, 0x1, 0xFFFF, 0, 0x3⟩, ⟨0xC, 0, 30, 0x2, 0xFFFF0000, 0, 0xC⟩],
    masters := [⟨0x01, 0, 0xF, false, true, true, true, true, true, true, true⟩, ⟨0x10, 1, 0x1, true, true, true, true, true, true, true, true⟩],
    bindings := [⟨0, 0x10, 0x20, true, true, 0⟩, ⟨1, 0x20, 0x10, false, true, 0⟩],
    clocks := {}, power := {},
    topo := { podMembers := 2, topology := 0, forwardEnable := false, seat := 5, udpPort := 4791, ipMode := 0, ipv4 := 0, ipv6High := 0,
              ipv6Low := 0, links := List.replicate 36 ⟨1, 0, 1, 0, 0, true⟩ },
    regions := [], pools := [⟨16, 12, true, 0, 0, 0, 0, 0, 0, 0, 0, 0⟩], faults := {}, training := [{}, {}], timeouts := {}, vendor := [], image := [] }

/-- The module with firmware running, its blueprint locked and both partitions ready. -/
def up : State :=
  { State.reset with
    boot := { Boot.reset with secRunning := true, romDone := true, stage := 3, bpState := 1, shadow := some bp, ready := 3 },
    wake := { Wake.reset with phase := .running, rails := 0x1FF, pwrEn := true, pgood := true, bootOsc := true, pllLocked := true, gatesOpen := true,
                              linksIdle := false },
    ports := State.reset.ports.map fun p => { p with perst := false, inReset := false, linkUp := true },
    parts := State.reset.parts.map fun p => { p with state := 2 }, mail := mailboxes bp.bindings }

/-- Pick a clock record. -/
def withClocks (c : ClockCfg) (s : State) : State := { s with boot := { s.boot with shadow := some { bp with clocks := c } } }

/-! ### Power-up and boot -/

theorem witness_WakeSequence : (State.reset.wake.phase = .standby ∧ State.reset.wake.thermtripN = false ∧ State.reset.wake.pwrEn = false) ∧
    (∃ s : State, s.wake.phase = .safeHold ∧ s.wake.thermtripN = false ∧ s.wake.pwrEn = true ∧ s.wake.wakePending = true) ∧
    (∃ s : State, s.wake.phase = .waking 1 4 ∧ ∀ v ∈ s.wake.feeds, 40000 ≤ v ∧ v ≤ 60000) ∧ (∃ s : State, s.wake.phase = .waking 7 1 ∧ s.wake.rails.testBit 8 = true) ∧
    (∃ s : State, s.wake.phase = .waking 5 1 ∧ s.wake.rails.testBit 2 = false) ∧
    (∃ s : State, s.clk.qualA = true ∧ s.clk.qualB = true ∧ s.clk.first = some .refB) ∧ (∃ s : State, s.clk.qualA = false ∧ s.clk.qualB = true) :=
  ⟨by decide, ⟨{ up with wake := { Wake.reset with phase := .safeHold, pwrEn := true, wakePending := true } }, by decide⟩,
   ⟨{ up with wake := { Wake.reset with phase := .waking 1 4, feeds := [40000, 60000, 54000] } }, by decide⟩,
   ⟨{ up with wake := { Wake.reset with phase := .waking 7 1, rails := 0x100 } }, by decide⟩,
   ⟨{ up with wake := { Wake.reset with phase := .waking 5 1, rails := 0x3 } }, by decide⟩,
   ⟨{ up with clk := { Clk.reset with qualA := true, qualB := true, first := some .refB } }, by decide⟩,
   ⟨{ up with clk := { Clk.reset with qualB := true } }, by decide⟩⟩

theorem witness_PowerDownAbortAndWarmReset : (up.wake.phase = .running ∧ up.wake.pwrEn = true ∧ up.wake.pgood = true ∧ 37999 < 38000) ∧
    (∃ s : State, s.wake.pwrEn = true ∧ s.wake.phase = .retryWait 4) ∧ (∃ s : State, s.wake.pwrEn = true ∧ s.wake.phase = .waking 9 1) ∧
    (∃ s : State, s.wake.thermtripN = true ∧ s.wake.pwrEn = false ∧ s.wake.phase = .standby) ∧ (∃ (s : State) (r : _), s.orders.resetPending = some r) :=
  ⟨by decide, ⟨{ up with wake := { Wake.reset with pwrEn := true, phase := .retryWait 4 } }, by decide⟩, ⟨{ up with wake := { Wake.reset with pwrEn := true, phase := .waking 9 1 } }, by decide⟩,
   ⟨{ up with wake := { Wake.reset with thermtripN := true } }, by decide⟩, ⟨{ up with orders := { Orders.reset with resetPending := some { winner := 1, superseded := [] } } }, _, rfl⟩⟩

theorem witness_SuppliesCellAndRetention : (State.reset.aon.selector.switching = false ∧ State.reset.aon.selector.onCell = false) ∧
    (∃ s : State, s.aon.selector.onCell = true ∧ s.aon.selector.switching = false ∧ s.aon.selector.qualifying = true ∧
      ∀ v ∈ s.wake.feeds, 39000 ≤ v) ∧
    (∃ s : State, s.aon.selector.switching = true ∧ s.aon.selector.onCell = false ∧ s.aon.cell = .failed ∧ ∃ v ∈ s.wake.feeds, v < 37000) ∧
    (∃ s : State, s.aon.selector.switching = true ∧ s.aon.selector.onCell = true ∧ ∀ v ∈ s.wake.feeds, 37000 ≤ v) ∧
    (∃ s : State, s.wake.feeds = [0, 0, 0]) ∧ (up.aon.cell ≠ .low ∧ up.boot.stage = 3) :=
  ⟨by decide, ⟨{ up with aon := { Aon.reset with selector := ⟨true, false, true, false⟩ }, wake := { Wake.reset with feeds := [39000, 40000, 54000] } }, by decide⟩,
   ⟨{ up with aon := { Aon.reset with selector := ⟨false, true, false, false⟩, cell := .failed }, wake := { Wake.reset with feeds := [36999, 54000, 54000] } },
    by decide⟩,
   ⟨{ up with aon := { Aon.reset with selector := ⟨true, true, false, false⟩ }, wake := { Wake.reset with feeds := [37000, 54000, 54000] } }, by decide⟩, ⟨{ up with wake := { Wake.reset with feeds := [0, 0, 0] } }, rfl⟩, by decide⟩

/-- A machine whose security core has just been released, with a flash that holds no firmware. -/
def released : State := { State.reset with boot := { Boot.reset with secRunning := true } }

theorem witness_BootAndStartUp : (released.boot.secRunning = true ∧ released.boot.romDone = false ∧ released.aon.canary = 0x5A3CC3A5) ∧
    (∃ s : State, s.boot.romDone = true ∧ s.boot.stage = 0 ∧ s.boot.shadow = some bp) ∧
    (∃ s : State, s.boot.stage = 2 ∧ present 1 s = true ∧ (partOf 1 s).state = 1 ∧ 1 < s.parts.length) :=
  ⟨by decide, ⟨{ up with boot := { up.boot with stage := 0 } }, by decide⟩,
   ⟨{ up with boot := { up.boot with stage := 2 }, parts := State.reset.parts }, by decide⟩⟩

theorem witness_TapInstructions : (∃ s : State, s.boot.stage = 4) ∧ State.reset.boot.stage ≠ 4 :=
  ⟨⟨{ up with boot := { up.boot with stage := 4 } }, rfl⟩, by decide⟩

/-! ### Clocks -/

theorem witness_OperatingPoints : (5 ≤ 5 ∧ (clocksCfg up).maxOp ≤ 0 ∧ up.clk.fastestAllowed ≤ 0 ∧ 5 ≤ up.clk.slowestAllowed ∧ up.clk.opPhase = .idle ∧
      up.clk.gated = false ∧ up.clk.source ≠ .clockLoss ∧ 4 < up.clk.opCurrent ∧ up.clk.opVoltHigh = false) ∧
    (∃ s : State, s.clk.opPhase = .ramp true ∧ s.clk.opPhase ≠ .idle) ∧ (∃ s : State, s.clk.opPhase = .ramp false ∧ s.clk.opTarget = s.clk.opCurrent) ∧
    (∃ s : State, s.clk.opPhase = .settle ∧ s.clk.opTarget + 1 = s.clk.opCurrent) ∧ (∃ s : State, s.clk.opCurrent < 5 ∧ s.clk.opPhase = .idle) ∧
    (0 < (clocksCfg (withClocks { maxOp := 1 } up)).maxOp) :=
  ⟨by decide, ⟨{ up with clk := { Clk.reset with opPhase := .ramp true } }, by decide⟩, ⟨{ up with clk := { Clk.reset with opPhase := .ramp false } }, by decide⟩,
   ⟨{ up with clk := { Clk.reset with opPhase := .settle, opTarget := 4 } }, by decide⟩, ⟨{ up with clk := { Clk.reset with opCurrent := 0 } }, by decide⟩, by decide⟩

theorem witness_References : (up.wake.pllLocked = true ∧ up.clk.source = .onRefA ∧ up.clk.qualB = false ∧ up.wake.bootOsc = true) ∧
    (∃ s : State, s.clk.source = .onRefA ∧ s.clk.goodA = 9 ∧ s.clk.losA = false) ∧
    ((clocksCfg up).refbPresent = true) ∧ (∃ s : State, refbFitted s = true ∧ s.clk.qualB = true ∧ s.clk.goodB = 10 ∧ s.clk.losB = false) ∧
    (∃ s : State, s.clk.source = .onRefB ∧ s.clk.qualA = true ∧ s.clk.dwell = true) ∧ (∃ s : State, s.clk.source = .toRefB ∧ s.clk.qualB = true ∧ s.clk.fromLoss = false) ∧
    (∃ s : State, s.clk.source = .toRefA ∧ s.clk.qualA = true ∧ s.clk.fromLoss = false) :=
  ⟨by decide, ⟨{ up with clk := { Clk.reset with goodA := 9 } }, by decide⟩, by decide, ⟨{ up with clk := { Clk.reset with qualB := true, goodB := 10 } }, by decide⟩,
   ⟨{ up with clk := { Clk.reset with source := .onRefB, qualA := true, dwell := true } }, by decide⟩, ⟨{ up with clk := { Clk.reset with source := .toRefB, qualB := true } }, by decide⟩,
   ⟨{ up with clk := { Clk.reset with source := .toRefA, qualA := true } }, by decide⟩⟩

/-! ### Host ports and orders -/

/-- A host control message on channel 0. -/
def message (type : Nat) (body : List W64) : State :=
  let bs := leBytes 2 type ++ leBytes 2 9 ++ leBytes 4 0 ++ ofWords body
  { up with mail := upd up.mail 0 fun m => { m with full := true, length := bs.length, data := bs ++ List.replicate (256 - bs.length) 0 } }

theorem witness_Mailboxes : (0 < up.mail.length ∧ isSender (chan 0 up) 0x10 = true ∧ (chan 0 up).full = false ∧ 256 ≤ 256) ∧
    ((chan 0 (message 0x30 [0])).full = true ∧ isSender (chan 0 (message 0x30 [0])) 0x10 = true) ∧ (256 < 257) ∧
    ([(0 : Byte), 0, 0, 0].length ∈ [4, 8, 16, 32, 64] ∧ 252 % 4 = 0 ∧ 252 + 4 ≤ 256 ∧ (chan 0 up).data.length = 256) ∧
    (isReceiver (chan 0 up) 0x20 = true ∧ isReceiver (chan 0 up) 0x10 = false ∧ up.replies = []) :=
  ⟨by decide, by decide, by decide, ⟨by decide, by decide, by decide, List.length_replicate⟩, by decide⟩

/-- The body of a QP_CREATE for queue pair 15 with its smallest and largest sizes. -/
def createBody : List W64 := [0x1000, 0x2000, pack [(16, 16, 8), (12, 12, 4), (4, 8, 4), (15, 0, 4)]]

theorem witness_HostControlMessages :
    (∃ m, controlMsg 0 (message 0x10 createBody) = some m ∧ badControl m = false ∧ 8 ≤ m.len ∧ m.type = 0x10 ∧ m.port = 0 ∧
      m.body.length = 3 ∧ fld (m.body.getD 0 0) 11 0 = 0 ∧ fld (m.body.getD 1 0) 11 0 = 0 ∧ fld (m.body.getD 2 0) 3 0 = 15 ∧
      fld (m.body.getD 2 0) 23 16 = 16 ∧ fld (m.body.getD 2 0) 15 12 = 12 ∧ fld (m.body.getD 2 0) 11 8 = 4) ∧
    (channelBusy 0 (message 0x10 createBody) = false ∧ qpOf 0 15 (message 0x10 createBody) = none ∧
      ((masterOf (hostMid 0) (message 0x10 createBody)).map MasterCfg.submit) = some true ∧ (replyChannel 0 (message 0x10 createBody)).isSome = true) ∧
    (∃ m, controlMsg 0 (message 0x11 [15]) = some m ∧ badControl m = false ∧ 8 ≤ m.len ∧ m.type = 0x11) ∧
    (∃ m, controlMsg 0 (message 0x20 [0x1000, 15]) = some m ∧ badControl m = false ∧ 8 ≤ m.len ∧ m.type = 0x20 ∧ fld (m.body.getD 1 0) 3 0 = 15) ∧
    (∃ m, controlMsg 0 (message 0x21 []) = some m ∧ badControl m = false ∧ 8 ≤ m.len ∧ m.type = 0x21) ∧
    (∃ m, controlMsg 0 (message 0x30 [0x40000000]) = some m ∧ badControl m = false ∧ 8 ≤ m.len ∧ m.type = 0x30) ∧
    (∃ m, controlMsg 0 (message 0x40 [0x1000, 4096]) = some m ∧ badControl m = false ∧ 8 ≤ m.len ∧ m.type = 0x40 ∧ (m.body.getD 1 0).toNat = 4096) ∧
    (∃ m, controlMsg 0 { up with mail := upd up.mail 0 fun m => { m with full := true, length := 7 } } = some m ∧ m.len < 8) ∧
    (∃ m, controlMsg 0 (message 0x77 [0]) = some m ∧ 8 ≤ m.len ∧ controlBody m.type = none ∧ (message 0x77 [0]).replies = []) ∧
    (up.jobs = [] ∧ partOfPort 0 up = some 0 ∧ (partOf 0 up).ring.owner = 0) :=
  ⟨⟨_, rfl, by decide⟩, by decide, ⟨_, rfl, by decide⟩, ⟨_, rfl, by decide⟩, ⟨_, rfl, by decide⟩, ⟨_, rfl, by decide⟩, ⟨_, rfl, by decide⟩,
   ⟨_, rfl, by decide⟩, ⟨_, rfl, by decide⟩, by decide⟩

/-- A command of opcode NOP. -/
def nopCommand : Command := { seq := 3, words := [pack [(5, 16, 16), (7, 0, 8)], 0, 0, 0, 0, 0, 0, 0] }

/-- Queue pair 0 of port 0. -/
def withQp (q : QueuePair) (s : State) : State := onPort 0 (fun p => { p with qps := p.qps.set 0 (some q) }) s

/-- A queue pair of 16 entries each. -/
def qp : QueuePair := { sqBase := 0x1000, cqBase := 0x2000, weight := 1, sqLog2 := 4, cqLog2 := 4 }

theorem witness_QueuePairs :
    (qpOf 0 0 (withQp qp up) = some qp ∧ 0 < up.ports.length ∧ 0 < (portOf 0 (withQp qp up)).qps.length ∧
      15 < 2 ^ qp.sqLog2 ∧ qp.unfetched + ringDist qp.sqTail 15 (2 ^ qp.sqLog2) ≤ 2 ^ qp.sqLog2 - 1 ∧ 2 ^ qp.sqLog2 ≤ 16 ∧
      ringDist qp.cqHead 0 (2 ^ qp.cqLog2) ≤ qp.unread) ∧
    (takesSubmissions 0 (withQp { qp with sqTail := 1 } up) = true ∧ ({ qp with sqTail := 1 } : QueuePair).fetchable = true ∧ qp.roundUsed < qp.weight) ∧
    (∃ p c rest, p = { qp with slots := [{ nopCommand with state := .ended }], endOrder := [3] } ∧ p.endOrder = c.seq :: rest ∧
      p.slots.find? (fun d => d.seq == c.seq) = some c ∧ p.cqFull = false ∧ (portOf 0 (withQp p up)).linkUp = true) ∧
    (∃ s c, s = withQp { qp with slots := [nopCommand] } up ∧ commandOf 0 0 3 s = some c ∧ c.opcode = 0x07 ∧ mayStart 0 0 3 s = true ∧ c.job = 0 ∧
      fld (c.w 0) 14 8 = 0 ∧ ∀ i, i < 7 → c.w (i + 1) = 0) ∧
    (∃ p : QueuePair, p.deleting = true ∧ p.slots = []) ∧
    (∃ p : QueuePair, p.sqSaturated = true ∧ p.satSqRaised = false ∧ p.cqWaits = false ∧ partOfPort 0 (withQp p up) = some 0) :=
  ⟨by decide, by decide, ⟨_, { nopCommand with state := .ended }, [], rfl, by decide⟩, ⟨_, nopCommand, rfl, by decide⟩,
   ⟨{ qp with deleting := true }, by decide⟩, ⟨{ qp with sqTail := 15 }, by decide⟩⟩

/-- The event ring of partition 0, 64 entries, owned by host 0. -/
def ringed (r : Ring) : State := onPart 0 (fun p => { p with ring := { r with owner := 0x10, entriesLog2 := 6 } }) up

theorem witness_EventRingsAndPortResets :
    (partOfPort 0 (ringed { tail := 63 }) = some 0 ∧ (partOf 0 (ringed { tail := 63 })).ring.owner = hostMid 0 ∧
      ringDist 0 63 (2 ^ 6) ≤ ringDist 0 (partOf 0 (ringed { tail := 63 })).ring.tail (2 ^ 6)) ∧
    (∃ e, (partOf 0 (ringed { backlog := [{ count := 0, code := 0x3001, unit := 0 }] })).ring.backlog = [e] ∧
      ringWritable 0 (ringed { backlog := [{ count := 0, code := 0x3001, unit := 0 }] }) = true) ∧
    (up.jobs = [] ∧ othersInReset 0 0 up = true) ∧
    (∃ s : State, othersInReset 0 0 s = false ∧ partOfPort 0 s = some 0 ∧ (portOf 0 s).inReset = false ∧ (portOf 0 s).perst = false ∧
      (portOf 0 s).d3 = false) ∧
    (up.wake.pgood = true ∧ up.boot.secRunning = true) ∧ (mayTrain 0 (onPort 0 (fun p => { p with linkUp := false }) up) = true) :=
  ⟨by decide, ⟨_, rfl, by decide⟩, by decide,
   ⟨{ up with boot := { up.boot with shadow := some { bp with parts := [⟨0x3, 0, 30, 0x3, 0xFFFF, 0, 0x3⟩] } } }, by decide⟩, by decide, by decide⟩

theorem witness_HostAccesses : (configAnswered 0 up = true ∧ (portOf 0 up).d3 = false ∧ wideReg 0x4C = true ∧
      (portOf 0 (onPort 0 (fun p => { p with d3 := true }) up)).d3 = true ∧ configAnswered 0 (onPort 0 (fun p => { p with d3 := true }) up) = true ∧ 0x10 % 8 = 0 ∧ 0xFF8 < 0x1000 ∧ 0xFF8 % 8 = 0 ∧ narrowReg 0xFF8 = false) ∧
    (∃ l, l ∈ ({ up with latches := [⟨0x10, 0, 1⟩] } : State).latches ∧ l.mid = hostMid 0 ∧ l.offset = 0) ∧
    (30 ≤ bar2Max 0 up ∧ 20 ≤ 30) ∧ (windowAddr 0 false 0 8 up = some (stackRange 0 up).1 ∧ OffReserve 0 (stackRange 0 up).1 8 up ∧ poisoned (stackRange 0 up).1 8 up = none) ∧
    (up.faults.out = [] ∧ Memory.wf up.mem = true ∧ windowAddr 0 false (2 ^ 20 - 4) 8 up = none) :=
  ⟨by decide, ⟨⟨0x10, 0, 1⟩, by decide⟩, by decide, ⟨by decide, by unfold OffReserve; decide, by decide⟩, by decide⟩

/-- An order word. -/
def order (kind target scrub value : Nat) : W64 := pack [(kind, 56, 8), (target, 40, 8), (scrub, 32, 1), (value, 16, 16), (0xBEEF, 0, 16)]

theorem witness_Orders_enter : OrderEnters 0x01 (order 1 0 0 1200) up ∧ OrderEnters 0x01 (order 6 0 0 0) up := by
  have n : NoneWaits up := fun _ h => by simp [up, State.reset] at h
  unfold OrderEnters; refine ⟨?_, ?_⟩ <;> simp only [n, and_true] <;> decide

theorem witness_AcceptedOrders : OrderPasses 0x01 (order 1 0 0 1200) up ∧ OrderPasses 0x01 (order 2 0 0 0) up ∧
    OrderPasses 0x01 (order 3 35 0 0) up ∧ OrderPasses 0x01 (order 4 0 0 0) up ∧ (35 < up.fab.links.length ∧ (linkCfg 35 up).mode ≠ 0) := by
  refine ⟨⟨by decide, by decide, by decide, _, rfl, by decide⟩, ⟨by decide, by decide, by decide, _, rfl, by decide⟩,
    ⟨by decide, by decide, by decide, _, rfl, by decide⟩, ⟨by decide, by decide, by decide, _, rfl, by decide⟩, by decide⟩

theorem witness_RefusedAndResetOrders : (orderKind (order 0 0 0 0) = 0 ∧ 6 < orderKind (order 7 0 0 0)) ∧
    (fld (order 1 1 0 0) 47 40 ≠ 0 ∧ present (orderTarget (order 5 2 0 0)) up = false) ∧
    (∃ s : State, shelf s = true ∧ (slotOf 0x10 s).status ≠ 1 ∧ s.boot.bpState = 3 ∧ s.orders.slots.map OrderSlot.mid = externalMids) ∧
    ((slotOf 0x10 up).status ≠ 1 ∧ OrderPasses 0x01 (order 1 0 0 1300) up ∧ (∀ m, masterOf 0x11 up = some m → permitted 1 m = false)) ∧
    (∃ s : State, (slotOf 0x10 s).status = 1 ∧ s.orders.slots.map OrderSlot.mid = externalMids) ∧
    (OrderPasses 0x01 (order 5 1 1 0) up ∧ (partOf 1 up).resetting = none) ∧ (OrderPasses 0x01 (order 6 0 0 0) up ∧ up.orders.resetPending = none) ∧
    (∃ (s : State) (r : PartReset), (partOf 1 s).resetting = some r ∧ r.held = false ∧ r.again = none ∧ ∀ p ∈ r.waiters, ∃ o ∈ s.orders.slots, o.mid = p) := by
  refine ⟨by decide, by decide, ⟨{ up with boot := { up.boot with stage := 4, bpState := 3 } }, by decide⟩,
    ⟨by decide, ⟨by decide, by decide, by decide, _, rfl, by decide⟩, fun m h => by cases h⟩,
    ⟨{ up with orders := { Orders.reset with slots := externalMids.map fun m => { mid := m, status := 1 } } }, by decide⟩,
    ⟨⟨by decide, by decide, by decide, _, rfl, by decide⟩, by decide⟩, ⟨⟨by decide, by decide, by decide, _, rfl, by decide⟩, by decide⟩,
    ⟨onPart 1 (fun p => { p with resetting := some ⟨true, [0x01], none, false, true⟩ }) up, ⟨true, [0x01], none, false, true⟩, by decide⟩⟩

/-- A value that an option holds, from a check. -/
theorem some_of {α : Type} {o : Option α} {P : α → Prop} [DecidablePred P] (h : o.any (fun a => decide (P a)) = true) : ∃ a, o = some a ∧ P a := by
  cases o with
  | none => simp at h
  | some a => exact ⟨a, rfl, by simpa using h⟩

theorem witness_CounterSync :
    ((∃ s : State, NoneWaits s ∧ selfReference { s with cwk := { s.cwk with hearsSystem := false } } = true) ∧
    (∃ s : State, NoneWaits s ∧ s.cwk.hearsSystem = false ∧ selfReference s = true ∧ s.cwk.state = .coasting ∧ (clocksCfg s).role ≠ 2) ∧
    (∃ s : State, s.cwk.state = .locked ∧ selfReference s = false) ∧
    (∃ s : State, s.cwk.state = .locked ∧ (clocksCfg s).role = 2 ∧ (clocksCfg s).syncinUse = true) ∧
    (∃ s : State, s.cwk.state = .coasting ∧ s.cwk.coastRaised = false) ∧
    (∃ s : State, (clocksCfg s).role = 2 ∧ (clocksCfg s).syncinUse = true ∧ s.cwk.state = .unsynced)) :=
  ⟨⟨withClocks { role := 1 } up, fun _ h => by simp [withClocks, up, State.reset] at h, by decide⟩,
   ⟨{ withClocks { role := 1 } up with cwk := { Cwk.reset with state := .coasting } }, fun _ h => by simp [withClocks, up, State.reset] at h, by decide⟩,
   ⟨{ up with cwk := { Cwk.reset with state := .locked } }, by decide⟩,
   ⟨withClocks { role := 2, syncinUse := true } { up with cwk := { Cwk.reset with state := .locked } }, by decide⟩,
   ⟨{ up with cwk := { Cwk.reset with state := .coasting } }, by decide⟩, ⟨withClocks { role := 2, syncinUse := true } up, by decide⟩⟩

/-- A machine whose first link is Ethernet. -/
def ethernet : State := { up with boot := { up.boot with shadow := some { bp with
  topo := { bp.topo with links := ⟨2, 2, 0, 0, 0, false⟩ :: List.replicate 35 ⟨0, 0, 0, 0, 0, false⟩ }, clocks := { role := 1 } } } }

theorem witness_Exchange : (NoneWaits up) ∧
    (∃ (s : State) (t1 t2 t3 t4 : W64), (linkCfg 0 s).mode ≠ 1 ∧ s.cwk.outstanding = some t1 ∧ s.cwk.state = .locked ∧
      8000 < (((t2 - t1).toInt - (t4 - t3).toInt).tdiv 2).natAbs) ∧
    (∃ (s : State) (t1 t2 t3 t4 : W64), (linkCfg 0 s).mode = 2 ∧ s.cwk.outstanding = some t1 ∧ s.cwk.state = .acquiring ∧ s.cwk.inBound = 15 ∧
      (((t2 - t1).toInt - (t4 - t3).toInt).tdiv 2).natAbs = 320) ∧
    ((linkCfg 0 ethernet).mode = 2 ∧ (clocksCfg ethernet).role ≠ 0 ∧ partOfLink 0 ethernet = some 0 ∧ (clocksCfg up).role = 0) ∧
    (linkCfg 40 up).mode ≠ 1 :=
  ⟨fun _ h => by simp [up, State.reset] at h,
   ⟨{ ethernet with cwk := { Cwk.reset with state := .locked, outstanding := some 0 } }, 0, 16002, 0, 0, by decide⟩,
   ⟨{ ethernet with cwk := { Cwk.reset with state := .acquiring, outstanding := some 0, inBound := 15 } }, 0, 640, 0, 0, by decide⟩,
   by decide, by decide⟩

/-! ### Jobs and runs -/

/-- A tile with a list. -/
def tile (l : List W128) : JobTile :=
  { tile := 3, list := l, descs := [⟨0x2, 0, false, false, false, 0x100000000000, 16, 16, 1024, 0, 0, 0⟩], epis := [], depths := List.replicate 15 1,
    shared := false }

/-- A job of partition 0 with one tile. -/
def job (x : JobTile) : Job :=
  { part := 0, num := 7, port := 0, qp := 0, slot := 0, stats := (stackRange 0 up).1 + 0x100000, stateBytes := 0, buildId := 0, stuckMs := 0, step := 0,
    seeds := List.replicate 8 0, tiles := [x], channels := [], barriers := [8], buffers := [] }

/-- A run that has started at count 1. -/
def run : Run := { port := 0, qp := 0, seq := 3, filler := false, curtain := 1, started := true, start := 1, setup := true, count := some 1 }

/-- A running job. -/
def running (x : JobTile) : Job := { job x with run := some run }

/-- Queue pair 0 with one command. -/
def commanded (c : Command) : State := withQp { qp with slots := [c], nextSeq := 4 } up

/-- Words of a command: opcode, flags, JOB, w1 to w7. -/
def cmd (op flags num : Nat) (ws : List W64) : Command :=
  { seq := 3, words := pack [(num, 32, 32), (5, 16, 16), (flags, 8, 8), (op, 0, 8)] :: ws }

theorem witness_CurtainReached : ∃ (s : State) (j : Job) (r : Run), s.jobs = [j] ∧ j.run = some r ∧ r.setup = true ∧ r.started = false ∧
    mismatch (seatOf s) j = false ∧ waitsOver j s = true ∧ r.count = some 9 :=
  ⟨{ up with jobs := [{ job (tile []) with run := some { run with started := false, count := some 9 } }] }, _, _, rfl, rfl, by decide⟩

/-- The smallest package: a header, the three sections that every package has, no tile with a list. -/
def package : List W64 :=
  [pack [(0x504A4D57, 32, 32), (1, 16, 16), (3, 0, 8)], 0, BitVec.ofNat 64 ((stackRange 0 up).1 + 0x100000), 0, 0, 0, 0, 0] ++ List.replicate 8 0 ++
  [pack [(32768, 32, 32), (1, 0, 8)], 192, pack [(0, 32, 32), (2, 0, 8)], 32960, pack [(0, 32, 32), (3, 0, 8)], 32960, 0, 0] ++ List.replicate 4096 0

set_option maxRecDepth 100000 in
theorem witness_LoadJob_sound : loadFail 0 32960 up package (packageJob 0 7 0 0 0 package) = none := by decide +kernel

/-- The checks do not look at memory. -/
theorem loadFail_mem (n len : Nat) (s : State) (p : List W64) (j : Job) (m : Mem) (q : List Nat) (v : Nat) :
    loadFail n len { s with mem := m, poison := q, free := v } p j = loadFail n len s p j := rfl

/-- The job of that package, with the place of its copy. -/
def loadedJob : Job := { packageJob 0 7 0 0 0 package with place := (copyPackage 0 32960 package up).1 }

theorem loadedJob_inside : inside loadedJob.place 32960 (jobRange 0 up) = true := by
  have hr : jobRange 0 up = (0, (jobRange 0 up).2) := by decide +kernel
  have hz : 32960 ≤ (jobRange 0 up).2 := by decide +kernel
  have hp : loadedJob.place = 0 + (freeWord up).1.toNat % ((jobRange 0 up).2 - 32960 + 1) := by
    unfold loadedJob copyPackage
    rw [hr]
    simp only [if_neg (Nat.not_lt.2 hz)]
  have := Nat.mod_lt (freeWord up).1.toNat (show 0 < (jobRange 0 up).2 - 32960 + 1 by omega)
  rw [hr, hp]
  simp only [inside, Bool.and_eq_true, decide_eq_true_eq]
  omega

set_option maxRecDepth 100000 in
theorem witness_LoadJob_placed : loadFail 0 32960 up package loadedJob = none := by
  have h : stage5 0 32960 up package loadedJob = none := by
    unfold stage5
    rw [loadedJob_inside]
    decide +kernel
  unfold loadFail
  rw [h]
  decide +kernel

/-- The package, copied, passes, and it fits. -/
theorem witness_LoadJob_copied (m : Mem) (q : List Nat) (v : Nat) :
    loadFail 0 32960 { up with mem := m, poison := q, free := v } package loadedJob = none ∧ 32960 ≤ (jobRange 0 up).2 :=
  ⟨(loadFail_mem ..).trans witness_LoadJob_placed, by decide +kernel⟩

/-- A pool of partition 0 with 16 buffers, quota and thresholds. -/
def poolBp : PoolCfg := ⟨16, 12, true, 0, 0, 0, 0, 0x1000, 256, 256, 192, 128⟩

/-- The machine with pool 0 as given. -/
def pooled (p : Pool) : State :=
  { up with boot := { up.boot with shadow := some { bp with pools := [poolBp] } }, pools := p :: List.replicate 15 {} }

theorem witness_JobCommands_load :
    (starting 1 0 0 3 (commanded (cmd 1 0 7 [0x1000, 0, 0, 0, 0, 0, 0])) = some (0, cmd 1 0 7 [0x1000, 0, 0, 0, 0, 0, 0]) ∧
      (partOf 0 (commanded (cmd 1 0 7 [0x1000, 0, 0, 0, 0, 0, 0]))).state = 2) ∧
    (starting 1 0 0 3 { commanded (cmd 1 0 7 [0x1000, 0, 32960, 0, 0, 0, 0]) with jobs := [job (tile [])] } =
        some (0, cmd 1 0 7 [0x1000, 0, 32960, 0, 0, 0, 0]) ∧
      (jobOf 0 7 { commanded (cmd 1 0 7 [0x1000, 0, 32960, 0, 0, 0, 0]) with jobs := [job (tile [])] }).isSome = true) ∧
    (starting 1 0 0 3 (commanded (cmd 1 0 7 [0x1000, 0, 32960, 0, 0, 0, 0])) = some (0, cmd 1 0 7 [0x1000, 0, 32960, 0, 0, 0, 0]) ∧
      jobOf 0 7 (commanded (cmd 1 0 7 [0x1000, 0, 32960, 0, 0, 0, 0])) = none ∧
      freeJobSlot (commanded (cmd 1 0 7 [0x1000, 0, 32960, 0, 0, 0, 0])) = some 0) ∧
    (loadFail 0 8 up [0] (packageJob 0 7 0 0 0 [0])).isSome = true := by decide

theorem witness_JobCommands_start :
    (starting 2 0 0 3 (commanded (cmd 2 0 7 [0, 0, 0, 1, 0, 0, 0])) = some (0, cmd 2 0 7 [0, 0, 0, 1, 0, 0, 0]) ∧
      jobOf 0 7 (commanded (cmd 2 0 7 [0, 0, 0, 1, 0, 0, 0])) = none) ∧
    (starting 2 0 0 3 { commanded (cmd 2 0 7 [0, 0, 0, 1, 0, 0, 0]) with jobs := [running (tile [])] } = some (0, cmd 2 0 7 [0, 0, 0, 1, 0, 0, 0]) ∧
      jobOf 0 7 { commanded (cmd 2 0 7 [0, 0, 0, 1, 0, 0, 0]) with jobs := [running (tile [])] } = some (running (tile []))) ∧
    (starting 2 0 0 3 { commanded (cmd 2 0 7 [0, 0, 0, 1, 0, 0, 0]) with jobs := [job (tile [])] } = some (0, cmd 2 0 7 [0, 0, 0, 1, 0, 0, 0]) ∧
      jobOf 0 7 { commanded (cmd 2 0 7 [0, 0, 0, 1, 0, 0, 0]) with jobs := [job (tile [])] } = some (job (tile []))) := by decide

/-- A queue pair with a command of the given number that runs, and the next one fetched. -/
def behind (c d : Command) : State := withQp { qp with slots := [{ c with state := .started }, { d with seq := 4 }], nextSeq := 5 } up

theorem witness_JobCommands_end :
    (starting 3 0 0 4 (behind (cmd 2 0 7 [0, 0, 0, 1, 0, 0, 0]) (cmd 3 0 8 [0, 0, 0, 0, 0, 0, 0])) =
        some (0, { cmd 3 0 8 [0, 0, 0, 0, 0, 0, 0] with seq := 4 }) ∧
      jobOf 0 8 (behind (cmd 2 0 7 [0, 0, 0, 1, 0, 0, 0]) (cmd 3 0 8 [0, 0, 0, 0, 0, 0, 0])) = none) ∧
    (let s := { behind (cmd 2 0 7 [0, 0, 0, 1, 0, 0, 0]) (cmd 3 0 7 [0, 0, 0, 0, 0, 0, 0]) with jobs := [running (tile [])] }
     starting 3 0 0 4 s = some (0, { cmd 3 0 7 [0, 0, 0, 0, 0, 0, 0] with seq := 4 }) ∧ jobOf 0 7 s = some (running (tile [])) ∧
      (∃ q, commandOf 0 0 3 s = some q ∧ q.state ≠ .ended) ∧ (run.port, run.qp, run.seq) ≠ (0, 0, 4) ∧ run.started = true ∧
      waitingStarts 0 7 s = [(0, 0, 3)]) ∧
    (let s := { commanded (cmd 4 0 7 [0, 0, 0, 0, 0, 0, 0]) with jobs := [job (tile [])] }
     starting 4 0 0 3 s = some (0, cmd 4 0 7 [0, 0, 0, 0, 0, 0, 0]) ∧ jobOf 0 7 s = some (job (tile []))) ∧
    (let s := { commanded (cmd 4 0 7 [0, 0, 0, 0, 0, 0, 0]) with jobs := [running (tile [])] }
     starting 4 0 0 3 s = some (0, cmd 4 0 7 [0, 0, 0, 0, 0, 0, 0]) ∧ jobOf 0 7 s = some (running (tile []))) ∧
    (starting 4 0 0 3 (commanded (cmd 4 0 7 [0, 0, 0, 0, 0, 0, 0])) = some (0, cmd 4 0 7 [0, 0, 0, 0, 0, 0, 0])) := by decide

/-- A COPY_IN or COPY_OUT of 64 bytes of host address 0x2000 and the first usable stack address of partition 0. -/
def copyCmd (op n : Nat) : Command := cmd op 0 0 [0x2000, BitVec.ofNat 64 (stackRange 0 up).1, BitVec.ofNat 64 n, 0, 0, 0, 0]

theorem witness_CopyCommands : (partOf 0 up).state = 2 ∧
    (starting 5 0 0 3 (commanded (copyCmd 5 0)) = some (0, copyCmd 5 0) ∧ ((copyCmd 5 0).w 3).toNat = 0) ∧
    (starting 5 0 0 3 (commanded (copyCmd 5 1)) = some (0, copyCmd 5 1) ∧
      inside (fld ((copyCmd 5 1).w 2) 47 0) 1 (jobRange 0 (commanded (copyCmd 5 1))) = true) ∧
    (starting 6 0 0 3 (commanded (copyCmd 6 64)) = some (0, copyCmd 6 64) ∧
      inside (fld ((copyCmd 6 64).w 2) 47 0) 64 (jobRange 0 (commanded (copyCmd 6 64))) = true ∧
      poisoned (fld ((copyCmd 6 64).w 2) 47 0) 64 (commanded (copyCmd 6 64)) = none) ∧
    (let s := { commanded (copyCmd 6 128) with poison := [(stackRange 0 up).1 / 64 + 1] }
     starting 6 0 0 3 s = some (0, copyCmd 6 128) ∧ poisoned (fld ((copyCmd 6 128).w 2) 47 0) 128 s = some ((stackRange 0 up).1 + 64) ∧
      inside (fld ((copyCmd 6 128).w 2) 47 0) 128 (jobRange 0 s) = true) := by decide

/-- The machine with a START_JOB at count `w` that waits, at count 5. -/
def waiting (w : W64) (js : List Job) : State :=
  { withQp { qp with slots := [{ cmd 2 0 7 [0, 0, 0, w, 0, 0, 0] with state := .started }], nextSeq := 4 } up with
    jobs := js, cwk := { Cwk.reset with state := .locked, now := 5 } }

theorem sound_up (w : W64) (js : List Job) : Sound (waiting w js) :=
  ⟨rfl, rfl, rfl, rfl, (by decide : ∀ p ∈ allSpares up, p.2.deferred = false)⟩

theorem witness_RunsStartAndEnd_waiting :
    (∀ w ∈ [(4 : W64), 5, 6], let s := waiting w [job (tile [])]
      partOfPort 0 s = some 0 ∧ (∃ c, commandOf 0 0 3 s = some c ∧ c.opcode = 2 ∧ c.state = .started ∧ c.w 4 = w ∧ fld (c.w 0) 8 8 = 0) ∧
      (partOf 0 s).state = 2 ∧ jobOf 0 7 s = some (job (tile [])) ∧ s.cwk.state ≠ .unsynced) ∧
    (∀ k ∈ (waiting 5 [job (tile [])]).jobs, k.run = none) ∧ LocalJob (job (tile [])) ∧ jobOf 0 7 (waiting 5 []) = none ∧
    faultBlocks 0 { waiting 5 [job (tile [])] with faults := { Faults.reset with out := [.jacks 0] } } = true :=
  ⟨fun w h => by
     simp only [List.mem_cons, List.not_mem_nil, or_false] at h
     obtain rfl | rfl | rfl := h <;> exact ⟨by decide +kernel, some_of (by decide +kernel), by decide +kernel⟩,
   by decide +kernel, ⟨rfl, rfl, rfl, by decide +kernel, rfl, rfl⟩, by decide +kernel, by decide +kernel⟩

theorem witness_RunEnd : let s := waiting 1 [running { tile [] with state := 5 }]
    jobOf 0 7 s = some (running { tile [] with state := 5 }) ∧ run.started = true ∧
      (∀ x ∈ (running { tile [] with state := 5 }).tiles, x.state = 5 ∧ x.tile < 1024 ∧ x.seq.length = 14) ∧
      (∃ d, commandOf 0 0 3 s = some d ∧ d.state ≠ .ended) ∧ Memory.wf s.mem = true := by decide

theorem witness_Pools :
    (eligible poolBp (poolOf 0 (pooled {})) ⟨true, 5, 9⟩ = true ∧ eligible poolBp (poolOf 0 (pooled {})) ⟨false, 5, 5⟩ = true ∧
      poolCfg 0 (pooled {}) = some poolBp ∧ (pooled {}).pools.length = 16) ∧
    (eligible poolBp (poolOf 0 (pooled { state := 3 })) ⟨true, 5, 9⟩ = false ∧
      eligible poolBp (poolOf 0 (pooled { state := 3 })) ⟨false, 5, 5⟩ = false) ∧
    (eligible poolBp (poolOf 0 (pooled { waiting := [⟨true, 5, 9⟩] })) ⟨true, 5, 9⟩ = true) ∧
    (∀ c ∈ [true, false], poolOf 0 (pooled { buffers := [⟨0, 5, 5, c, false, 0⟩] }) = { buffers := [⟨0, 5, 5, c, false, 0⟩] }) ∧
    poolBp.multiOwner = true ∧ poolThreshold poolBp poolBp.hold = 12 ∧
    12 ≤ (poolOf 0 (pooled { buffers := (List.range 12).map fun i => ⟨i, 5, 5, true, false, 0⟩ })).buffers.length := by decide

/-! ### Instruction lists -/

/-- An instruction word with WAIT_STR and POST_STR 15: CLASS, OP and fields as (value, lowest bit). -/
def word (cls op : Nat) (fs : List (Nat × Nat)) : W128 :=
  BitVec.ofNat 128 (cls * 2 ^ 124 + op * 2 ^ 120 + 15 * 2 ^ 115 + 15 * 2 ^ 111 + (fs.map fun f => f.1 * 2 ^ f.2).sum)

/-- Tile 3 runs the list `l`; `f` and `g` change the tile and the job. -/
def at' (l : List W128) (f : JobTile → JobTile := id) (g : Job → Job := id) : State :=
  { up with jobs := [g (running (f { tile l with state := 2 }))], cwk := { Cwk.reset with state := .locked, now := 5 } }

/-- The instruction at the front of tile 3 issues, with `P`. -/
def Can (s : State) (cls op : Nat) (P : Job → JobTile → W128 → Prop) : Prop := ∃ j x w, Issues s 3 .normal cls op j x w ∧ P j x w

/-- From a check. -/
theorem can_of {s : State} {cls op : Nat} {P : Job → JobTile → W128 → Prop} [∀ j x w, Decidable (P j x w)]
    (h : (issuable 3 .normal cls op s).any (fun p => decide (jobOf p.1.part p.1.num s = some p.1 ∧ p.2.1.posted.length = 15 ∧
      p.2.1.reserved.length = 15 ∧ p.2.1.x.length = 8 ∧ P p.1 p.2.1 p.2.2)) = true) : Can s cls op P := by
  obtain ⟨p, e, a, b, c, d, q⟩ := some_of h
  exact ⟨p.1, p.2.1, p.2.2, ⟨e, a, b, c, d⟩, q⟩

/-- No operation waits on a cluster's tiles, from a check of every job's. -/
theorem noOpWaits_of {t : Nat} {s : State}
    (h : (s.jobs.all fun j => j.tiles.all fun y => y.arrays.all fun e => e.acc.isSome || e.ended) = true) : NoOpWaits t s := by
  intro v c k y _ hr e he
  simp only [runOn] at hr
  obtain ⟨j, hj, hr⟩ := List.exists_of_findSome?_eq_some hr
  have hy : y ∈ j.tiles := by
    split at hr
    · next r x _ hx =>
      split at hr
      · simp only [Option.some.injEq, Prod.mk.injEq] at hr
        exact hr.2 ▸ List.mem_of_find?_eq_some hx
      · simp at hr
    · simp at hr
  have := List.all_eq_true.1 (List.all_eq_true.1 (List.all_eq_true.1 h j hj) y hy) e he
  simp only [Bool.or_eq_true] at this
  exact this.imp (fun q hn => by simp [hn] at q) id

theorem witness_SyncControl :
    (Can (at' [word 5 5 []]) 5 5 fun _ _ _ => True) ∧ (Can (at' [word 6 0 []]) 6 0 fun _ _ _ => True) ∧
    (Can (at' [word 5 4 []]) 5 4 fun _ _ _ => True) ∧ (Can (at' [word 6 4 [(7, 101), (9, 69)]]) 6 4 fun _ _ _ => True) ∧
    (Can (at' [word 6 5 [(7, 101), (0xFFFFFFFF, 69)]]) 6 5 fun _ _ _ => True) ∧
    (Can (at' [word 6 1 [(3, 72), (1, 56)], word 6 0 []]) 6 1 fun _ _ _ => True) ∧
    (Can (at' [word 6 2 [(1, 72)], word 6 0 []]) 6 2 fun _ _ _ => True) ∧ (Can (at' [word 5 1 []]) 5 1 fun _ _ _ => True) :=
  ⟨can_of (by decide +kernel), can_of (by decide +kernel), can_of (by decide +kernel), can_of (by decide +kernel), can_of (by decide +kernel),
   can_of (by decide +kernel), can_of (by decide +kernel), can_of (by decide +kernel)⟩

theorem witness_Curtains :
    (Can (at' [word 5 0 [(4, 0)]]) 5 0 fun j x w => curtainCount j x w = some 5 ∧ j.part < 4) ∧
    (Can (at' [word 5 0 [(3, 0)]]) 5 0 fun j x w => curtainCount j x w = some 4 ∧ j.part < 4) ∧ (at' []).cwk.now = 5 :=
  ⟨can_of (by decide +kernel), can_of (by decide +kernel), rfl⟩

/-- The first address that a job of partition 0 may use, well inside. -/
def place : Nat := (stackRange 0 up).1 + 0x200000

/-- A descriptor of 16 FP32 rows of 16 columns at `place`. -/
def desc : Desc := ⟨0x6, 0, false, false, false, place, 16, 16, 64, 0, 0, 0⟩

theorem witness_BranchesAndEnd :
    (Can (at' [word 6 3 [(0, 72)]]) 6 3 fun _ _ _ => True) ∧ (Can (at' [word 6 7 []]) 6 7 fun _ _ _ => True) ∧
    (∃ p, runOn 3 .normal (at' [word 6 7 []] fun x => { x with refill := true }) = some p ∧ p.2.refill = true) ∧
    (∃ p, runOn 3 .normal (at' [word 6 3 [(3, 48)]] fun x => { x with state := 4, descs := [desc] }) = some p ∧
      (∃ w, p.2.word = some w ∧ iclass w = 6 ∧ iop w = 3 ∧
        checkReads p.1 3 [(((p.2.desc (ifld w 71 64)).base + 4 * ifld w 63 48) % 2 ^ 48, 4)] (at' []) = none) ∧ p.2.state = 4 ∧ p.2.drained = true) := by
  refine ⟨can_of (by decide +kernel), can_of (by decide +kernel), some_of (by decide +kernel), ⟨_, rfl, ⟨_, rfl, by decide +kernel⟩, by decide +kernel⟩⟩

/-- A BRANCH of tile 3, whose datapath's arrays spin after its last operation. -/
theorem witness_BranchSpins : let s := { at' [word 6 3 [(0, 72)]] with
      dp := { credits := [], arrays := [(12, 2), (13, 2)], last := [(3, 4)], prev := [(3, 4)], waits := [], lastIndex := [] } }
    (Can s 6 3 fun _ _ _ => True) ∧ lookup0 3 s.dp.prev = 3 + 1 ∧ lookup0 3 s.dp.last = 3 + 1 ∧ arrayState 3 0 s = 2 :=
  ⟨can_of (by decide +kernel), by decide +kernel⟩

/-- A run whose one tile waits for a string: the stuck-run timeout applies. -/
theorem witness_StuckRun : let s := at' [BitVec.ofNat 128 (5 * 2 ^ 124 + 5 * 2 ^ 120 + 0 * 2 ^ 115 + 15 * 2 ^ 111)]
    ∃ j, jobOf 0 7 s = some j ∧ j.run = some run ∧ s.clk.gated = false ∧
      (∃ y ∈ j.tiles, 2 ≤ y.state ∧ y.state ≤ 4 ∧ y.ending = false ∧ stallCause j y j.ctx s ≠ 0) ∧
      ∀ y ∈ j.tiles, y.state ≠ 7 ∧ stallCause j y j.ctx s ≠ 6 := some_of (by decide +kernel)

theorem witness_TimeAndCompletion :
    (Can (at' [word 6 6 []] fun x => { x with descs := [desc] }) 6 6 fun j x w => (x.desc (ifld w 103 96)).base = place ∧
      checkWrites j.part 3 [(place, 8)] (at' []) = none) ∧ (at' []).faults.out = [] ∧ Memory.wf (at' []).mem = true ∧
    (∀ u ∈ [UnitId.fetcher, .arrays, .vector, .jacks, .domino], ∃ p, runOn 3 .normal (at' [] fun x =>
        x.setQueue u [{ index := 0, word := 0, x := 0, post := 2, ended := true }]) = some p ∧
        p.2.queue u = [{ index := 0, word := 0, x := 0, post := 2, ended := true }]) ∧
    (∃ j, jobOf 0 7 (at' []) = some j ∧ j.run = some run ∧ run.started = true ∧ ∃ y ∈ j.tiles, y.state ≠ 5 ∧ y.state ≠ 7) := by
  refine ⟨can_of (by decide +kernel), rfl, rfl, ?_, some_of (by decide +kernel)⟩
  intro u hu
  cases u <;> exact some_of (by decide +kernel)

/-- A channel of tile 3 to tile 4 of the module. -/
def channel : Channel :=
  { srcTile := 3, srcIndex := 0, dstTile := 4, dstIndex := 0, dstSeat := 5, depth := 2, entryBytes := 1024, buffer := place + 0x10000, credits := 1 }

/-- A channel of tile 4 to tile 3 that holds an entry. -/
def back : Channel :=
  { srcTile := 4, srcIndex := 0, dstTile := 3, dstIndex := 1, dstSeat := 5, depth := 2, entryBytes := 1024, buffer := place + 0x20000, written := 1,
    arrived := 1 }

/-- Both channels. -/
def joined (l : List W128) : State :=
  at' l (fun x => { x with descs := [desc] }) fun j => { j with tiles := j.tiles ++ [{ tile [] with tile := 4, state := 2 }], channels := [channel, back] }

theorem witness_Saturation : ∃ p, runOn 3 .normal (at' [word 5 2 [(1, 52)]] (fun x => { x with descs := [desc] }) fun j =>
      { j with channels := [{ channel with credits := 0 }] }) = some p ∧ p.2.satRaised = [] ∧
    saturationKey p.1 p.2 .normal (at' []) = some 0 := some_of (by decide +kernel)

theorem witness_ChannelInstructions :
    (Can (joined [word 5 2 [(1, 52)]]) 5 2 fun j x w => outChannel j 3 (ifld w 103 96) = some channel ∧ x.desc (ifld w 95 88) = desc ∧
      channel.dstSeat = ownSeatOf (joined []) ∧ (gatherBytes (lineRanges desc 0 1) []).length ≤ channel.entryBytes ∧
      checkReads j 3 (lineRanges desc 0 1) (joined []) = none ∧ mayRead j x (lineRanges desc 0 1) (joined []) = true ∧ checkWrites j.part 4 [(channel.buffer, 64)] (joined []) = none) ∧
    (Can (joined [word 5 3 [(1, 96)]]) 5 3 fun j _ w => inChannel j 3 (ifld w 103 96) (ownSeatOf (joined [])) = some back ∧
      (j.tile back.srcTile).isSome = true) := ⟨can_of (by decide +kernel), can_of (by decide +kernel)⟩

/-! ### The units of a tile -/

/-- Ranges inside a partition's stack memory may be written. -/
theorem mayWrite_of {n t : Nat} {rs : List (Nat × Nat)} {s : State}
    (h : ∀ r ∈ rs, (jobRange n s).1 ≤ r.1 ∧ r.1 + r.2 ≤ (jobRange n s).1 + (jobRange n s).2) : MayWrite n t rs s := by
  intro a len hb
  by_cases hl : len = 0
  · simp [reach, hl]
  have hin : ∀ b, a ≤ b → b < a + len → (jobRange n s).1 ≤ b ∧ b < (jobRange n s).1 + (jobRange n s).2 := by
    intro b h1 h2
    obtain ⟨r, hr, h4, h5⟩ : ∃ r ∈ rs, r.1 ≤ b ∧ b < r.1 + r.2 := Classical.byContradiction fun hn => hb b h1 h2 fun r hr => by
      have : ¬(r.1 ≤ b ∧ b < r.1 + r.2) := fun q => hn ⟨r, hr, q⟩
      omega
    have := h r hr
    omega
  have h1 := hin a (Nat.le_refl _) (by omega)
  have h2 := hin (a + len - 1) (by omega) (by omega)
  have : inside a len (jobRange n s) = true := by simp [inside]; omega
  simp [reach, this]

/-- Descriptors of 16 x 64 FP32 at four places; the second is a column of keys, the last a cluster store. -/
def fp (i : Nat) : Desc := ⟨0x0, 0, false, false, false, place + 0x10000 * i, 64, 64, 256, 0, 0, 0⟩

/-- The tensors of the tile. -/
def tensors : List Desc :=
  [fp 0, { fp 1 with format := 0xB }, { fp 2 with kdim := true }, fp 3, { fp 4 with base := clusterWindow 0 }, { fp 5 with format := 0xB }]

/-- A tile with tensors. -/
def loaded (l : List W128) (f : JobTile → JobTile := id) : State := at' l fun x => f { x with descs := tensors }

theorem witness_Copy : Can (loaded [word 0 0 [(0, 96), (3, 88), (2, 32), (0, 16), (0, 0)]]) 0 0 fun j x w =>
    let rr := copyRanges (x.desc (ifld w 103 96)) 0 2 0 64
    let wr := copyRanges (x.desc (ifld w 95 88)) 0 2 0 64
    In48 wr ∧ checkReads j 3 rr (loaded []) = none ∧ mayRead j x (rr ++ wr) (loaded []) = true ∧ checkWrites j.part 3 wr (loaded []) = none ∧ (x.desc (ifld w 103 96)).space = 0 ∧
      (x.desc (ifld w 95 88)).space = 0 ∧ copyCols (x.desc (ifld w 103 96)) (ifld w 31 16) (ifld w 15 0) = 64 ∧ Apart (rr ++ wr) :=
  can_of (P := fun j x w =>
    let rr := copyRanges (x.desc (ifld w 103 96)) 0 2 0 64
    let wr := copyRanges (x.desc (ifld w 95 88)) 0 2 0 64
    (∀ r ∈ wr, r.1 + r.2 ≤ 2 ^ 48) ∧ checkReads j 3 rr (loaded []) = none ∧ mayRead j x (rr ++ wr) (loaded []) = true ∧ checkWrites j.part 3 wr (loaded []) = none ∧
      (x.desc (ifld w 103 96)).space = 0 ∧ (x.desc (ifld w 95 88)).space = 0 ∧
      copyCols (x.desc (ifld w 103 96)) (ifld w 31 16) (ifld w 15 0) = 64 ∧
      (rr ++ wr).Pairwise fun a b => a.1 + a.2 ≤ b.1 ∨ b.1 + b.2 ≤ a.1) (by decide +kernel)

theorem witness_Mcast : Can (loaded [word 0 1 [(0, 96), (4, 88), (2, 52), (3, 0)]]) 0 1 fun j x w =>
    setBits (ifld w 32 0) 33 = [0, 1] ∧ checkReads j 3 (copyRanges (fp 0) 0 2 0 64) (loaded []) = none ∧
    mayRead j x (copyRanges (fp 0) 0 2 0 64 ++ [0, 1].flatMap fun q => copyRanges { tensors[4] with base := mcastWindow 0 q } 0 2 0 64) (loaded []) = true ∧ x.desc (ifld w 95 88) = tensors[4] ∧
    ((partCfg j.part (loaded [])).map fun p => p.clusters0.testBit 0 && p.clusters0.testBit 1) = some true :=
  can_of (by decide +kernel)

theorem witness_Atomic : ∀ aop ∈ [0, 1, 2, 3, 4], Can (loaded [word 0 5 [(1, 96), (5, 88), (0xFF, 80), (aop, 76), (1, 36)]]) 0 5 fun j x w =>
    ifld w 79 76 = aop ∧ ifld w 51 36 = 1 ∧ ifld w 75 72 = 0 ∧
    checkReads j 3 [(flatAddr (x.desc (ifld w 95 88)) 4 0, 4), (flatAddr (x.desc (ifld w 95 88)) 4 1, 4)] (loaded []) = none ∧
    mayRead j x [(flatAddr (x.desc (ifld w 95 88)) 4 0, 4), (flatAddr (x.desc (ifld w 95 88)) 4 1, 4), (flatAddr (x.desc (ifld w 103 96)) 4 0, 4)]
      (loaded []) = true ∧
    checkWrites j.part 3 [(flatAddr (x.desc (ifld w 103 96)) 4 0, 4)] (loaded []) = none := by
  intro aop h
  simp only [List.mem_cons, List.not_mem_nil, or_false] at h
  obtain rfl | rfl | rfl | rfl | rfl := h <;> exact can_of (by decide +kernel)

/-- A row of the batcher. -/
def brow : BRow := ⟨0, 1, none, none⟩

/-- An open stream with `n` rows. -/
def stream (n : Nat) : Stream := ⟨false, 64, List.replicate n brow, [], 0, none⟩

/-- A GATHER of SRC 0 with its list in tensor 5, one row left. -/
def gatherEntry : Entry := { index := 0, word := word 0 2 [(0, 96), (5, 88), (0xFF, 80), (1, 44)], x := 0, post := 15, left := 1 }

theorem witness_FillBatcher :
    (Can (loaded [word 0 3 [(64, 88), (1, 86)]]) 0 3 fun _ x _ => x.streams.length = 4 ∧ x.mayOpen 1 = true ∧ ∀ e ∈ x.fetcher, e.left = 0) ∧
    NoOpWaits 3 (loaded [] fun x => { x with fetcher := [gatherEntry], streams := [some (stream 3), none, none, none] }) ∧
    (Can (loaded [word 0 4 [(0, 86)]] fun x => { x with streams := [some (stream 3), none, none, none] }) 0 4 fun _ x w =>
      x.streams[ifld w 87 86]? = some (some (stream 3)) ∧ x.arrays = [] ∧ ∀ e ∈ x.fetcher, e.left = 0) ∧
    (Can (loaded [word 0 2 [(0, 96), (5, 88), (0xFF, 80), (1, 44)]]) 0 2 fun _ x _ => x.streams.length = 4) ∧
    (∃ p, runOn 3 .normal (loaded [] fun x => { x with streams := [some (stream 3), none, none, none] }) = some p ∧ p.2.arrays = [] ∧
      p.2.streams[0]? = some (some (stream 3)) ∧ (stream 3).rows ≠ []) ∧
    (∀ n ∈ [14, 15], ∃ p, runOn 3 .normal (loaded [] fun x => { x with fetcher := [gatherEntry], streams := [some (stream n), none, none, none] }) = some p ∧
      p.2.fetcher = [gatherEntry] ∧ batchedRows p.2 < 64 ∧ p.2.streams[ifld gatherEntry.word 43 42]? = some (some (stream n)) ∧
      flatPlace tensors[5] 0 = (0, 0) ∧ checkReads p.1 3 [tensors[5].span 0 0 1] (loaded []) = none ∧ rdElem tensors[5] 0 0 [] < (fp 0).rows ∧
      checkReads p.1 3 ((fp 0).spans 0 0 64) (loaded []) = none) := by
  refine ⟨can_of (by decide +kernel), noOpWaits_of (by decide +kernel), can_of (by decide +kernel), can_of (by decide +kernel),
    some_of (by decide +kernel), ?_⟩
  intro n h
  simp only [List.mem_cons, List.not_mem_nil, or_false] at h
  obtain rfl | rfl := h <;> exact some_of (by decide +kernel)

/-- A BATCH_OPEN over the open stream of its number. -/
theorem witness_BatchReopen : Can (loaded [word 0 3 [(64, 88), (1, 86)]] fun x => { x with streams := [none, some (stream 3), none, none] }) 0 3
    fun _ x _ => x.streams.length = 4 ∧ x.mayOpen 1 = true ∧ x.streams[1]? = some (some (stream 3)) ∧ ∀ e ∈ x.fetcher, e.left = 0 :=
  can_of (by decide +kernel)

theorem witness_GatherBeyond : (fp 0).rows ≤ rdElem tensors[5] 0 0 (wrNat tensors[5].base 4 64 []) := by decide +kernel

/-- A MAC of one K block without an epilogue, and with epilogue 0. -/
def macWord (epi : Nat) : W128 := word 1 0 [(0, 96), (2, 88), (epi, 80), (16, 60)]

/-- An accumulator set of a MAC, and the entry that holds it. -/
def macEntry (epi : Nat) : Entry :=
  { index := 0, word := macWord epi, x := 0, post := 15, core := 3, cycles := 16,
    acc := some ⟨16, 64, false, List.replicate 1024 0, (List.range 16).map some⟩ }

/-- The arrays of tile 3 run. -/
def arrayOn (e : Entry) (st : Nat) : State :=
  { loaded [] fun x => { x with arrays := [e], epis := [{ Epi.none with stages := 0x80, out := 3 }] } with
    dp := { credits := [], arrays := (List.range 4).map fun i => (12 + i, st), last := [(3, 4)], prev := [(3, 4)], waits := [], lastIndex := [] } }

/-- What holds of both grades' values. -/
theorem grades {α : Type} {P : α → Prop} {a b : α} (ha : P a) (hb : P b) : P (if Config.gradeF then a else b) := by
  split <;> assumption

theorem witness_Arrays :
    (Can (loaded [macWord 0xFF]) 1 0 fun j x w => macFields w = macFields (macWord 0xFF) ∧ x.arrays = [] ∧
      checkReads j 3 (macRanges (macFields w) x) (loaded []) = none ∧ mayRead j x (macRanges (macFields w) x) (loaded []) = true) ∧
    (macFields (macWord 0xFF)).batch = 0 ∧ (macFields (macWord 0xFF)).cont = false ∧ NoOpWaits 3 (loaded [macWord 0xFF]) ∧
    tileBusy 3 (loaded [macWord 0xFF]) = false ∧ (∃ core, freeDatapath (if Config.gradeF then positionOf 3 else positionOf 0) (loaded [macWord 0xFF]) = some core) ∧
    NoOpWaits 3 (arrayOn (macEntry 0xFF) 1) ∧
    (∃ p, runOn 3 .normal (arrayOn (macEntry 0xFF) 1) = some p ∧ p.2.arrays = [macEntry 0xFF] ∧ arraysRun (macEntry 0xFF) (arrayOn (macEntry 0xFF) 1) = true ∧
      (macFields (macEntry 0xFF).word).epi = 0xFF) :=
  ⟨can_of (by decide +kernel), by decide, by decide, noOpWaits_of (by decide +kernel), by decide +kernel,
   grades (P := fun p => ∃ core, freeDatapath p (loaded [macWord 0xFF]) = some core) ⟨3, by decide +kernel⟩ ⟨0, by decide +kernel⟩, noOpWaits_of (by decide +kernel), some_of (by decide +kernel)⟩

/-- The rows of the block. -/
def blockRanges : List (Nat × Nat) := (List.range 16).map fun r => (fp 3).span (0 * 16 + r) (0 * 64) 64

theorem witness_Epilogue :
    (∃ p, runOn 3 .normal (arrayOn (macEntry 0) 1) = some p ∧ p.2.arrays = [macEntry 0] ∧ arraysRun (macEntry 0) (arrayOn (macEntry 0) 1) = true ∧
      p.2.epi 0 = some { Epi.none with stages := 0x80, out := 3 } ∧ p.2.desc 3 = fp 3 ∧ p.1.part = 0) ∧
    NoOpWaits 3 (arrayOn (macEntry 0) 1) ∧ (macFields (macEntry 0).word).epi = 0 ∧ (macFields (macEntry 0).word).bCol < 2 ^ 16 ∧ MayWrite 0 3 blockRanges (arrayOn (macEntry 0) 1) ∧
    Apart blockRanges :=
  ⟨some_of (by decide +kernel), noOpWaits_of (by decide +kernel), by decide, by decide, mayWrite_of (by decide +kernel),
   (by decide +kernel : blockRanges.Pairwise fun a b => a.1 + a.2 ≤ b.1 ∨ b.1 + b.2 ≤ a.1)⟩

theorem witness_SpinnersAndStagger :
    (arrayState 3 3 (arrayOn (macEntry 0xFF) 2) = 2 ∧ (tileOn 3 (arrayOn (macEntry 0xFF) 2)).isSome = true) ∧
    (lookup0 (64 * 0 + 12) (arrayOn (macEntry 0xFF) 3).dp.arrays = 3 ∧ ∀ k, k < 12 → lookup0 (64 * 0 + k) (arrayOn (macEntry 0xFF) 3).dp.arrays ≠ 3) ∧
    (tileOn (16 * 0 + 12 / 4) (arrayOn (macEntry 0xFF) 3)).isSome = true := by decide +kernel

/-- A VEC on tensor 0, and 3 as second source of ELEM, to tensor 1: ADD of one row, 64 columns. -/
def vecWord (op : Nat) : W128 := word 2 op [(0, 96), (3, 88), (if op = 4 then 5 else 3, 80), (if op = 4 then 2 else 0, 72), (0, 52), (1, 36), (64, 20), (0xFF, 12)]

theorem witness_Vector : ∀ op ∈ [0, 1, 2, 3], (Can (loaded [vecWord op]) 2 op fun j x w =>
      checkReads j 3 (vecReads op (vecFields x w) x) (loaded []) = none ∧ mayRead j x (vecReads op (vecFields x w) x) (loaded []) = true ∧ (vecFields x w).rows = 1 ∧ (x.desc (vecFields x w).dst) = fp 3 ∧
      (vecFields x w).b ≠ 0xFF) := by
  intro op h
  simp only [List.mem_cons, List.not_mem_nil, or_false] at h
  obtain rfl | rfl | rfl | rfl := h <;> exact can_of (by decide +kernel)

theorem witness_VectorRanges : MayWrite 0 3 (rowRanges (fp 3) 0 64) (loaded []) ∧ In48 (rowRanges (fp 3) 0 64) ∧ Apart (rowRanges (fp 3) 0 64) :=
  ⟨mayWrite_of (by decide +kernel), (by decide +kernel : ∀ r ∈ rowRanges (fp 3) 0 64, r.1 + r.2 ≤ 2 ^ 48),
   (by decide +kernel : (rowRanges (fp 3) 0 64).Pairwise fun a b => a.1 + a.2 ≤ b.1 ∨ b.1 + b.2 ≤ a.1)⟩

theorem witness_Topk : Can (loaded [word 2 4 [(1, 96), (0xFF, 88), (5, 80), (2, 72), (1, 36), (64, 20)]]) 2 4 fun j x w =>
    checkReads j 3 (topkReads (vecFields x w) x) (loaded []) = none ∧ mayRead j x (topkReads (vecFields x w) x) (loaded []) = true ∧ (x.desc (vecFields x w).dst).format = 0xB ∧ (vecFields x w).rows = 1 ∧
    checkWrites j.part 3 (rowRanges (x.desc (vecFields x w).dst) 0 4) (loaded []) = none ∧ (vecFields x w).b = 0xFF ∧
    (vecFields x w).func ≤ (vecFields x w).cols := can_of (by decide +kernel)

/-! ### The Jacks engines -/

/-- Fourteen addresses. -/
def addresses (a : Nat) : List W64 := (List.range 14).map fun i => BitVec.ofNat 64 (a + 0x1000 * i)

/-- Zero words. -/
def zeros (n : Nat) : List W64 := List.replicate n 0

/-- Section 0x08 with a map of two experts (0 on member 1, 1 on member 5), a queue, and descriptors of KIND 0, 1 and 2. -/
def section8 (tokens mode : Nat) : List W64 :=
  [pack [(1, 54, 10), (1, 42, 12), (3, 28, 14)], 0, 0, 0, 0, 0, 0, 0] ++
  ([pack [(2, 54, 10), (4, 24, 10)], 0x22, pack [(16, 32, 32), (256, 16, 16)]] ++ zeros 5) ++
  ([pack [(1 <<< 10, 0, 16), (5 <<< 10, 16, 16)]] ++ zeros 127) ++
  ([pack [(4, 54, 10), (0, 41, 4), (2, 37, 4), (2, 24, 11)], pack [(16, 48, 16)], 0, BitVec.ofNat 64 (place + 0x30000)] ++ zeros 4) ++
  ([pack [(0, 62, 2), (1, 58, 4), (4, 44, 10), (1, 30, 4)], pack [(64, 32, 32), (tokens, 0, 32)]] ++
    addresses (place + 0x40000)) ++
  ([pack [(1, 62, 2), (4, 44, 10)], pack [(64, 32, 32)]] ++ zeros 14) ++
  ([pack [(2, 62, 2), (mode, 60, 2), (2, 0, 32)], pack [(64, 32, 32), (64, 0, 32)]] ++
    addresses (place + 0x60000))

/-- A ROUTE word: OP, SIDE, descriptor, ROWS of micro-batch 0 from row 0 on. -/
def route (op side d rows : Nat) : W128 := word 3 op [(side, 102), (d, 88), (rows, 34)]

/-- The tile runs a ROUTE over that section; `f` changes what the engines hold. -/
def routed (tokens mode : Nat) (l : List W128) (f : RouteRun → RouteRun := id) (g : JobTile → JobTile := id) : State :=
  { at' l (fun x => g { x with descs := tensors }) fun j => { j with jsection := section8 tokens mode, route := f {} } with
    boot := { up.boot with shadow := some { bp with pools := [{ poolBp with base := place + 0x80000 }] } },
    fab := { links := { state := 4, inA := true, identified := true } :: List.replicate 35 {} } }

/-- A token-side use. -/
def tuse : TUse := { desc := 0, micro := 0, die := 0 }

/-- A queue use in frame 0. -/
def quse (grad : Bool) : QUse := { queue := 0, grad := grad, micro := 0, since := 0, die := 0, frame := some 0, used := some 16 }

/-- The conditions of RouteIssues, as a check. -/
def routes (op side kind : Nat) (s : State) : Bool :=
  (issuable 3 .normal 3 op s).any fun p => decide (jobOf p.1.part p.1.num s = some p.1 ∧ p.2.1.posted.length = 15 ∧ p.2.1.reserved.length = 15 ∧
    p.2.1.x.length = 8 ∧ ifld p.2.2 103 102 = side ∧ dKind (p.1.jdesc (ifld p.2.2 101 88)) = kind ∧ p.1.route.reqs = [] ∧ s.faults.tests = [] ∧
    ∀ e ∈ p.2.1.jacks, e.id ≠ p.1.route.nextId)

theorem routes_of {op side kind : Nat} {s : State} (h : routes op side kind s = true) : ∃ j x w, RouteIssues s 3 .normal op side kind j x w := by
  obtain ⟨p, e, a, b, c, d, q⟩ := some_of h
  exact ⟨p.1, p.2.1, p.2.2, ⟨e, a, b, c, d⟩, q⟩

theorem routed_poison (tokens mode : Nat) (l : List W128) (f : RouteRun → RouteRun) (g : JobTile → JobTile) :
    (routed tokens mode l f g).poison = [] ∧ (routed tokens mode l f g).faults.out = [] := ⟨rfl, rfl⟩

/-- The job of a state's first run. -/
def theJob (s : State) : Job := s.jobs.headD (job (tile []))

theorem witness_RoutingUses :
    (∃ j x w, RouteIssues (routed 2 0 [route 0 0 0 1]) 3 .normal 0 0 0 j x w) ∧
    (∃ j x w, RouteIssues (routed 2 0 [route 2 0 0 1] fun r => { r with tuses := [tuse] }) 3 .normal 2 0 0 j x w) ∧
    (∃ j x w, RouteIssues (routed 2 0 [route 0 1 1 1]) 3 .normal 0 1 1 j x w) ∧ (∃ j x w, RouteIssues (routed 2 0 [route 0 2 1 1]) 3 .normal 0 2 1 j x w) ∧
    (∃ j x w, RouteIssues (routed 2 0 [route 2 1 1 1]) 3 .normal 2 1 1 j x w) ∧ (∃ j x w, RouteIssues (routed 2 0 [route 2 2 1 1]) 3 .normal 2 2 1 j x w) :=
  ⟨routes_of (by decide +kernel), routes_of (by decide +kernel), routes_of (by decide +kernel), routes_of (by decide +kernel),
   routes_of (by decide +kernel), routes_of (by decide +kernel)⟩

theorem witness_RoutingUses_fields :
    (let j := theJob (routed 2 0 [])
     j.bitsAhead 0 j.route.nextId = false ∧ 1 < dTokens (j.jdesc 0) ∧ mapBitsUsed 0 (routed 2 0 []) + dTokens (j.jdesc 0) * dK (j.jdesc 0) ≤ 2097152 ∧
     keptMembers (j.jdesc 0) 0 (routed 2 0 []) = [0] ∧ selfOf (j.rmap 0) (routed 2 0 []) = 5 ∧
     (∃ q ∈ choicesOf (j.jdesc 0) 0 1, (rdRecord (j.jdesc 0) 0 q.1 q.2 (routed 2 0 [])).testBit 62 = false) ∧
     j.mapOf (qLayer (j.rqueue 0)) = some 0 ∧ 1 ≤ qFrames (j.rqueue 0) ∧ j.capacity 0 = 16 ∧ dQueue (j.jdesc 1) = 0 ∧
     groupOf (j.rmap 0) = [1, 5]) ∧
    rdNat (qOcc ((theJob (routed 2 0 [])).rqueue 0) + 4 * 0) 4 (wrNat (place + 0x30000) 4 16 []) = 16 := by decide +kernel

theorem witness_SendsAndReleases :
    (∀ op ∈ [1, 3], (∃ j x w, RouteIssues (routed 2 0 [route op 0 1 1] fun r => { r with quses := [{ quse (op == 3) with arrived := 1 }] }) 3 .normal
      op 0 1 j x w) ∧ (theJob (routed 2 0 [] fun r => { r with quses := [{ quse (op == 3) with arrived := 1 }] })).quse 0 (op == 3) 0 =
        some { quse (op == 3) with arrived := 1 }) ∧
    (∀ op ∈ [1, 3], (∃ j x w, RouteIssues (routed 2 0 [route op 1 0 1] fun r => { r with tuses := [{ tuse with combine := 1, ret := 1 }] }) 3 .normal
      op 1 0 j x w) ∧ coveredCount ([] ++ [(0, 1)]) < 2) ∧
    (∀ op ∈ [0, 2], ∃ j x w, RouteIssues (routed 2 0 [route op 3 1 1] fun r => { r with quses := [quse (op == 2)] }) 3 .normal op 3 1 j x w) ∧
    (quse false).releases < qReleasers ((theJob (routed 2 0 [])).rqueue 0) ∧ (routeTo 0 1 (routed 2 0 [])).isSome = true := by
  refine ⟨fun op h => ?_, fun op h => ?_, fun op h => ?_, by decide +kernel, by decide +kernel⟩ <;>
    simp only [List.mem_cons, List.not_mem_nil, or_false] at h <;> obtain rfl | rfl := h
  · exact ⟨routes_of (by decide +kernel), by decide +kernel⟩
  · exact ⟨routes_of (by decide +kernel), by decide +kernel⟩
  · exact ⟨routes_of (by decide +kernel), by decide⟩
  · exact ⟨routes_of (by decide +kernel), by decide⟩
  · exact routes_of (by decide +kernel)
  · exact routes_of (by decide +kernel)

/-- A bridge class with no credit in use has one. -/
theorem bridge_of {cls die : Nat} {s : State} (h : bridgeUsed cls die s = 0) : bridgeRoom cls die s = true := by
  simp [bridgeRoom, h]

/-- What a copy needs of the rest of the machine. -/
theorem witness_NothingHeld : ∀ mode, NothingHeld (tile []) (routed 2 mode [route 3 0 2 2]) :=
  fun _ => ⟨bridge_of (by simp [bridgeUsed, routed, at', up, State.reset, running, job, tile, JobTile.entries]),
    by simp [tile], rfl⟩

/-- The lines of the last two copies' destinations lie in the partition's stack memory. -/
theorem witness_CopyLines : ∀ a, place + 0x60000 ≤ a → a < place + 0x80000 → inside (a / 64 * 64) 64 (jobRange 0 up) = true := by
  intro a h1 h2
  have hr : jobRange 0 up = (0, (jobRange 0 up).2) := by decide +kernel
  have hz : place + 0x90000 ≤ (jobRange 0 up).2 := by decide +kernel
  rw [hr]
  simp only [inside, Bool.and_eq_true, decide_eq_true_eq]
  omega

theorem witness_IndexCopies : ∀ mode ∈ [0, 1, 2], Can (routed 2 mode [route 3 0 2 2]) 3 3
    fun j _ w => dKind (j.jdesc (ifld w 101 88)) = 2 ∧ dMode (j.jdesc 2) = mode ∧ ifld w 103 102 = 0 ∧
      checkReads j 3 [(dAddr (j.jdesc 2) 2, 8), (dAddr (j.jdesc 2) 3, 128), (dAddr (j.jdesc 2) 5, 16)] (routed 2 mode []) = none ∧
      checkWrites j.part 3 [(dAddr (j.jdesc 2) 4, 128)] (routed 2 mode []) = none := by
  intro mode h
  simp only [List.mem_cons, List.not_mem_nil, or_false] at h
  obtain rfl | rfl | rfl := h <;> exact can_of (by decide +kernel)

/-- Header word 0 of a message of layer 4 from a member. -/
def jh0 (src le jc : Nat) : W64 := pack [(src, 54, 6), (4, 44, 10), (le, 27, 9), (jc, 24, 3)]

theorem witness_JacksArrives : let s := routed 1 0 []; JacksArrives s 0 (jh0 1 0 0) (theJob s) 0 0 1 ∧ (groupOf ((theJob s).rmap 0)).contains 1 = true ∧
    (∃ g ∈ groupOf ((theJob s).rmap 0), g ≠ 1) := by
  refine ⟨⟨by decide +kernel, by decide +kernel, by decide +kernel, by decide +kernel, by decide +kernel, by decide, by decide, by decide⟩,
    by decide +kernel, by decide +kernel⟩

theorem witness_CountAndGrant :
    (let s := routed 1 0 [] fun r => { r with counts := [⟨4, 0, 1, [3]⟩] }
     JacksArrives s 0 (jh0 1 0 0) (theJob s) 0 0 1 ∧ mLayer ((theJob s).rmap 0) = 4 ∧ ∃ q ∈ (theJob s).route.counts, q.layer = 4 ∧ q.micro = 0 ∧ q.src = 1) ∧
    (let s := routed 1 0 [] fun r => { r with tuses := [{ tuse with counted := some 0, choices := [0] }] }
     JacksArrives s 0 (jh0 1 0 0) (theJob s) 0 0 1 ∧ (theJob s).tokenDesc 4 = some 0 ∧ (theJob s).expertsOn 0 1 = [(0, 0)] ∧
     dTokens ((theJob s).jdesc 0) = 1 ∧ dK ((theJob s).jdesc 0) = 1) := by
  refine ⟨⟨⟨by decide +kernel, by decide +kernel, by decide +kernel, by decide +kernel, by decide +kernel, by decide, by decide, by decide⟩,
    by decide +kernel, by decide +kernel⟩,
    ⟨⟨by decide +kernel, by decide +kernel, by decide +kernel, by decide +kernel, by decide +kernel, by decide, by decide, by decide⟩,
    by decide +kernel, by decide +kernel, by decide +kernel⟩⟩

theorem witness_Rows :
    (∀ grad ∈ [false, true], let s := routed 2 0 [] fun r => { r with quses := [quse grad] }
      JacksArrives s 0 (jh0 1 0 0) (theJob s) 0 0 1 ∧ (theJob s).queueOf 0 (fld (jh0 1 0 0) 35 27) = 0 ∧ 16 ≤ (theJob s).capacity 0 ∧
      (theJob s).rowBytes (qLayer ((theJob s).rqueue 0)) = 64) ∧
    (let s := routed 2 0 [] fun r => { r with tuses := [tuse] }
     JacksArrives s 0 (jh0 1 0 0) (theJob s) 0 0 1 ∧ (theJob s).tokenDesc (mLayer ((theJob s).rmap 0)) = some 0) := by
  refine ⟨fun grad h => ?_, ?_⟩
  · simp only [List.mem_cons, List.not_mem_nil, or_false] at h
    obtain rfl | rfl := h <;>
    exact ⟨⟨by decide +kernel, by decide +kernel, by decide +kernel, by decide +kernel, by decide +kernel, by decide, by decide, by decide⟩,
      by decide +kernel, by decide +kernel, by decide +kernel⟩
  · exact ⟨⟨by decide +kernel, by decide +kernel, by decide +kernel, by decide +kernel, by decide +kernel, by decide, by decide, by decide⟩,
      by decide +kernel⟩

/-- A FEED of the queue's first two slots. -/
def feedReq : RReq := { id := 1, tile := 3, word := route 0 2 1 2, row := 0, admitted := true }

theorem witness_GradientMessagesAndFeeds :
    (∃ q ∈ (theJob (routed 2 0 [])).localQueues 0 (routed 2 0 []), (theJob (routed 2 0 [])).quse q true 0 = none) ∧
    (let s := routed 2 0 [] fun r => { r with tuses := [{ tuse with asked := [1] }] }
     JacksArrives s 0 (jh0 1 0 0) (theJob s) 0 0 1) ∧
    (let s := routed 2 0 [] fun r => { r with quses := [{ quse false with frame := none, used := none }] }
     jobOf 0 7 s = some (theJob s) ∧ mapBitsUsed 0 s + (theJob s).capacity 0 ≤ 2097152) ∧
    (∃ p, runOn 3 .normal (routed 2 0 [] (fun r => { r with reqs := [feedReq], quses := [{ quse false with arrived := 1 }] }) fun x =>
        { x with streams := [some (stream 0), none, none, none] }) = some p ∧ p.1.route.reqs = [feedReq] ∧ feedReq.side = 2 ∧ feedReq.op = 0 ∧
      dKind (p.1.jdesc feedReq.desc) = 1 ∧ dKeys (p.1.jdesc feedReq.desc) = false ∧ feedReq.row + feedReq.fed + 1 < 16 ∧ feedReq.fed + 1 < feedReq.rows ∧
      batchedRows p.2 < 64 ∧ p.2.arrays = [] ∧ p.2.streams[dStream (p.1.jdesc feedReq.desc)]? = some (some (stream 0))) := by
  refine ⟨by decide +kernel, ⟨by decide +kernel, by decide +kernel, by decide +kernel, by decide +kernel, by decide +kernel, by decide, by decide, by decide⟩,
    by decide +kernel, some_of (by decide +kernel)⟩

/-! ### The Domino engines and step commit -/

/-- Section 0x09 with one group of `p` ranks, ours `me` on seat 5 and every other on seat 1, and descriptors. -/
def section9 (p me : Nat) (cds : List (List W64)) : List W64 :=
  [pack [(1, 56, 8), (cds.length, 40, 16), (2, 26, 4)], BitVec.ofNat 64 (place + 0x100000), BitVec.ofNat 64 (place + 0x110000),
   pack [(100, 32, 32), (50, 0, 32)], BitVec.ofNat 64 (place + 0x120000), 0x10000, 0, 0] ++
  [pack [(p, 51, 13), (me, 39, 12), (2, 34, 5)], 0, 0, 0, 0, 0, 0, 0] ++
  ([pack ((List.range 4).map fun r => (if r == me then 5 else 1, 16 * r, 16))] ++ zeros 7) ++
  cds.flatMap fun c => (c ++ zeros 8).take 8

/-- A collective descriptor. -/
def cd (op algo segs src dst bytes : Nat) : List W64 :=
  [pack [(op, 60, 4), (algo, 58, 2), (segs, 17, 13)], BitVec.ofNat 64 src, BitVec.ofNat 64 dst, BitVec.ofNat 64 bytes]

/-- A segment of 32 elements. -/
def seg0 : Segment := { index := 0, words := [0, BitVec.ofNat 64 (place + 0x130000), pack [(32, 32, 32)], 0, 0, 0, 0, 0], slot := false }

/-- The addresses of the descriptors' SRC and DST. -/
def srcA : Nat := place + 0x140000
/-- DST. -/
def dstA : Nat := place + 0x150000

/-- The optimiser table's header as held: word 1 names the counts' place, word 4 that of the result records. -/
def heldHeader : List W64 := [0, BitVec.ofNat 64 dstA, 0, 0, BitVec.ofNat 64 (place + 0x170000), 0, 0, 0]

/-- The tile runs a COLL of descriptor 0; link 0 carries; `f` and `g` change the job and the state. -/
def coll (p me op algo bytes : Nat) (f : Job → Job := id) (g : State → State := id) : State :=
  g { routed 1 0 [word 4 op [(0, 88)]] with
    jobs := (at' [word 4 op [(0, 88)]] id fun j => f { j with csection := section9 p me [cd op algo (if op < 2 || op == 5 then 1 else 0) srcA dstA bytes],
                                                              segs := [seg0], table := some ⟨place + 0x100000, heldHeader, [], []⟩ }).jobs }

/-- The conditions of CollIssues, as a check. -/
def collIssues (op : Nat) (s : State) : Bool :=
  (issuable 3 .normal 4 op s).any fun p => decide (jobOf p.1.part p.1.num s = some p.1 ∧ p.2.1.posted.length = 15 ∧ p.2.1.reserved.length = 15 ∧
    p.2.1.x.length = 8 ∧ cOp (p.1.cdesc (ifld p.2.2 103 88)) = op ∧
    (p.1.coll.runs = [] ∧ p.1.coll.early = [] ∧ p.1.coll.repairs = [] ∧ p.1.coll.asks = [] ∧ p.1.coll.retry = false) ∧
    (∀ k ∈ s.jobs, k.coll.runs = []) ∧ s.faults.tests = [] ∧ s.faults.out = [] ∧ s.poison = [] ∧ Memory.wf s.mem = true ∧ (p.1.tiles.map JobTile.tile).Nodup ∧
    ∀ e ∈ p.2.1.domino, e.id ≠ p.1.coll.nextId)

theorem collIssues_of {op : Nat} {s : State} (h : collIssues op s = true) : ∃ j x w d, CollIssues s 3 .normal op j x w d := by
  obtain ⟨p, e, a, b, c, d, q, r⟩ := some_of h
  exact ⟨p.1, p.2.1, p.2.2, _, ⟨e, a, b, c, d⟩, rfl, q, r⟩

theorem witness_DataCollectives :
    (∀ op ∈ [2, 3], (∃ j x w d, CollIssues (coll 1 0 op 0 64) 3 .normal op j x w d)) ∧
    (let j := theJob (coll 1 0 2 0 64)
     OneRank j (j.cdesc 0) ∧ cRoot (j.cdesc 0) = 0 ∧ cSrc (j.cdesc 0) = srcA ∧ cDst (j.cdesc 0) = dstA ∧ cBytes (j.cdesc 0) = 64) ∧
    Apart [(srcA, 64), (dstA, 64)] ∧ checkReads (theJob (coll 1 0 2 0 64)) 3 [(srcA, 64)] (coll 1 0 2 0 64) = none ∧ reach 0 3 dstA 64 (coll 1 0 2 0 64) = none := by
  refine ⟨fun op h => ?_, ⟨⟨by decide +kernel, by decide +kernel⟩, by decide +kernel⟩,
    (by decide +kernel : [(srcA, 64), (dstA, 64)].Pairwise fun a b => a.1 + a.2 ≤ b.1 ∨ b.1 + b.2 ≤ a.1), by decide +kernel, by decide +kernel⟩
  simp only [List.mem_cons, List.not_mem_nil, or_false] at h
  obtain rfl | rfl := h <;> exact collIssues_of (by decide +kernel)

/-- One move of 4,096 bytes from SRC's second page to DST. -/
def moveMem : Mem := wrWords srcA [0, BitVec.ofNat 64 (srcA + 0x1000), BitVec.ofNat 64 dstA, 4096] []

/-- A permute request in its only round. -/
def prun : CRun := { id := 1, tile := 3, cdesc := 0, started := true }

/-- A tile that waits for it. -/
def waits (x : JobTile) : JobTile := { x with domino := [{ index := 0, word := word 4 4 [], x := 0, post := 15, left := 1, id := 1 }] }

/-- A job in that round. -/
def inRound (j : Job) : Job := { j with coll := { runs := [prun] }, tiles := j.tiles.map waits }

theorem witness_Permute :
    (∃ j x w d, CollIssues (coll 1 0 4 0 32 id fun s => { s with mem := moveMem }) 3 .normal 4 j x w d) ∧
    (let s := coll 1 0 4 0 32 id fun s => { s with mem := moveMem }
     let j := theJob s
     OneRank j (j.cdesc 0) ∧ cBytes (j.cdesc 0) = 32 ∧ movesOf (j.cdesc 0) s.mem = [⟨0, 0, srcA + 0x1000, dstA, 4096⟩] ∧ j.tempBytes = 0x10000 ∧
     j.tempBase = place + 0x120000 ∧ checkReads j 3 [(srcA, 32)] s = none ∧ reach 0 3 j.tempBase j.tempBytes s = none ∧
     reach 0 3 (srcA + 0x1000) 4096 s = none ∧ reach 0 3 dstA 4096 s = none) ∧
    Apart [(srcA + 0x1000, 4096), (dstA, 4096), (place + 0x120000, 0x10000), (srcA, 32)] ∧
    (let s := coll 1 0 4 0 32 inRound fun s => { s with mem := moveMem }
     jobOf 0 7 s = some (theJob s) ∧ moveRounds (theJob s).tempBytes (movesOf ((theJob s).cdesc 0) s.mem) ≤ prun.round + 1 ∧
     movesIn (theJob s).tempBytes 0 (movesOf ((theJob s).cdesc 0) s.mem) = prun.landed ∧ ((theJob s).tile 3).isSome = true) := by
  refine ⟨collIssues_of (by decide +kernel), ⟨⟨by decide +kernel, by decide +kernel⟩, by decide +kernel⟩,
    (by decide +kernel : [(srcA + 0x1000, 4096), (dstA, 4096), (place + 0x120000, 0x10000), (srcA, 32)].Pairwise
      fun a b => a.1 + a.2 ≤ b.1 ∨ b.1 + b.2 ≤ a.1), by decide +kernel⟩

theorem witness_ReductionsNormAndCounts :
    (∀ op ∈ [0, 1], ∃ j x w d, CollIssues (coll 1 0 op 0 0) 3 .normal op j x w d) ∧
    (let j := theJob (coll 1 0 0 0 0)
     OneRank j (j.cdesc 0) ∧ cAlgo (j.cdesc 0) < 2 ∧ cSegs (j.cdesc 0) = [0] ∧ j.seg 0 = some seg0 ∧ j.table.isSome = true) ∧
    (∃ j x w d, CollIssues (coll 1 0 5 0 0 fun j => { j with coll := { landed := [0] } }) 3 .normal 5 j x w d) ∧
    (∃ j x w d, CollIssues (coll 1 0 6 0 64) 3 .normal 6 j x w d) ∧
    fld (heldWord (theJob (coll 1 0 6 0 64)) 1) 47 0 = dstA ∧ (coll 1 0 0 0 0).addq = [] ∧
    (∀ k ∈ (coll 1 0 0 0 0).jobs, ∀ y ∈ k.tiles, ∀ e ∈ y.arrays, e.held = []) ∧ seg0.acc ≠ 2 ∧
    checkReads (theJob (coll 1 0 6 0 64)) 3 [(srcA, 64)] (coll 1 0 6 0 64) = none ∧
    Apart [(dstA, 64), (srcA, 64), (place + 0x100000, 64)] := by
  refine ⟨fun op h => ?_, ⟨⟨by decide +kernel, by decide +kernel⟩, by decide +kernel⟩, collIssues_of (by decide +kernel),
    collIssues_of (by decide +kernel), by decide +kernel, by decide +kernel, by decide +kernel, by decide, by decide +kernel,
    (by decide +kernel : [(dstA, 64), (srcA, 64), (place + 0x100000, 64)].Pairwise fun a b => a.1 + a.2 ≤ b.1 ∨ b.1 + b.2 ≤ a.1)⟩
  simp only [List.mem_cons, List.not_mem_nil, or_false] at h
  obtain rfl | rfl := h <;> exact collIssues_of (by decide +kernel)

/-- Header words of a collective message of descriptor 0: its type, round and sending rank; chunk 0. -/
def ch0 (ct round : Nat) : W64 := pack [(ct, 60, 4), (round, 56, 4)]
/-- Header word 1. -/
def ch1 (rank : Nat) : W64 := pack [(rank, 52, 12)]

/-- CollArrives, as a check. -/
def arrives (ct : Nat) (s : State) : Bool := decide (partOfLink 0 s = some (theJob s).part ∧ collJob (theJob s).part ct s = some (theJob s) ∧
  jobOf (theJob s).part (theJob s).num s = some (theJob s) ∧ fld (ch0 ct 0) 63 60 = ct ∧ fld (ch0 ct 0) 55 40 < (theJob s).cdescCount ∧
  stepAge (theJob s) (ch0 ct 0) = 0 ∧ s.faults.tests = [] ∧ s.faults.out = [] ∧ s.poison = [] ∧ Memory.wf s.mem = true ∧ s.jobs = [theJob s] ∧
  ((theJob s).run.map Run.started) = some true)

theorem arrives_of {ct : Nat} {s : State} (h : arrives ct s = true) : CollArrives s 0 (ch0 ct 0) ct (theJob s) := by
  obtain ⟨a, b, c, d, e, f, g, i, p, k, l, m⟩ := of_decide_eq_true h
  refine ⟨a, b, c, d, e, f, g, i, p, k, fun q hq r hr => ?_⟩
  rw [l] at hq
  simp only [List.mem_cons, List.not_mem_nil, or_false] at hq
  subst hq
  simpa [hr] using m

/-- A job that holds one request. -/
def holds (r : CRun) (j : Job) : Job := { j with coll := { runs := [r] } }

/-- The machine with 64 messages of engine 0 that wait for credit. -/
def ahead64 (s : State) : State := { s with fab := { s.fab with
  ahead := List.replicate 64 ⟨0, 0, 0, 0, false, 7⟩,
  links := s.fab.links.set 3 { txq := [packet 3 0xA0 0 (seatOf s % 64) 1 true true 7 0 0 []] } } }

theorem witness_SendsNow : (let s := coll 4 2 1 1 0 (holds prun)
     SendsNow (theJob s) 0 s ∧ (theJob s).engineOf 0 = 0 ∧ (ahead64 s).fab.chunks = [] ∧
     ((ahead64 s).fab.ahead.filter fun a => a.die == 0 && isAhead (ahead64 s) a).length = 64) := by
  refine ⟨⟨by decide +kernel, by decide +kernel⟩, by decide +kernel⟩

/-- R554: a share of 21/64 gives an array 21 steps in every frame. -/
theorem test_frame : ((List.range 64).filter (stepAllowed 21 3)).length = 21 ∧ heldCycles 32 0 640 0 16 = 16 := by decide +kernel

theorem witness_ReductionMessages :
    (let r := { prun with units := [{ pass := 0, chunk := 0, own := some [1], sent := true }, { pass := 1, chunk := 0 }] }
     let s := coll 2 1 0 1 0 (holds r)
     CollArrives s 0 (ch0 0 0) 0 (theJob s) ∧ OnlyRun (theJob s) (ch0 0 0) r) ∧
    (let r := { prun with units := [{ pass := 0, chunk := 0, own := some [1], sent := true, result := some [1] },
      { pass := 1, chunk := 0, own := some (List.replicate 32 0), sent := true }] }
     let s := coll 2 1 0 1 0 (holds r)
     CollArrives s 0 (ch0 1 0) 1 (theJob s) ∧ OnlyRun (theJob s) (ch0 1 0) r ∧ ((theJob s).blocks ((theJob s).cdesc 0)).length = 1 ∧
     (bytesWords 4 (List.replicate 128 0)).length = 32) ∧
    (let r := { prun with units := [{ pass := 1, chunk := 0, own := some [1] }] }
     let s := coll 4 2 1 1 0 (holds r)
     CollArrives s 0 (ch0 2 0) 2 (theJob s) ∧ OnlyRun (theJob s) (ch0 2 0) r ∧ treeKids 4 2 = [3]) ∧
    (let r := { prun with doneSent := true, issued := [0], units := [{ pass := 1, chunk := 0, own := some [1], sent := true }] }
     let s := coll 4 2 0 2 0 (holds r)
     CollArrives s 0 (ch0 9 0) 9 (theJob s) ∧ OnlyRun (theJob s) (ch0 9 0) r ∧ (theJob s).chunks ((theJob s).cdesc 0) = 1) ∧
    (let j := theJob (coll 2 1 0 1 0)
     j.ranks 0 = 2 ∧ j.myRank 0 = 1 ∧ j.chunks (j.cdesc 0) = 1 ∧ Reaches j 0 0 (coll 2 1 0 1 0) ∧ Reaches j 0 (treeParent 2) (coll 4 2 1 1 0)) := by
  refine ⟨⟨arrives_of (by decide +kernel), rfl, rfl, rfl, rfl, rfl, rfl, rfl⟩, ⟨arrives_of (by decide +kernel), ⟨rfl, rfl, rfl, rfl, rfl, rfl, rfl⟩,
      by decide +kernel⟩, ⟨arrives_of (by decide +kernel), ⟨rfl, rfl, rfl, rfl, rfl, rfl, rfl⟩, by decide +kernel⟩,
    ⟨arrives_of (by decide +kernel), ⟨rfl, rfl, rfl, rfl, rfl, rfl, rfl⟩, by decide +kernel⟩,
    ⟨by decide +kernel, by decide +kernel, by decide +kernel, ⟨by decide +kernel, by decide +kernel⟩, ⟨by decide +kernel, by decide +kernel⟩⟩⟩

/-- Words of a message about segment 0. -/
def about (kind : Nat) (v : W64) : List W64 := [pack [(kind, 60, 4)], v]

/-- A proof of segment 0 that waits for its answer. -/
def proof' : Repair := { seg := 0, kind := 2, asked := true }

theorem witness_DataAndRepairMessages :
    (let s := coll 2 0 2 0 131072 (holds prun)
     CollArrives s 0 (ch0 3 0) 3 (theJob s) ∧ OnlyRun (theJob s) (ch0 3 0) prun ∧ (theJob s).chunks ((theJob s).cdesc 0) = 2) ∧
    (cRoot ((theJob (coll 2 1 2 0 131072)).cdesc 0) = 0 ∧ ((theJob (coll 2 1 2 0 131072)).myRank 0 + 1) % 2 = 0) ∧
    (let s := coll 2 1 0 1 0 fun j => { j with coll := { repairs := [proof'] } }
     CollArrives s 0 (ch0 8 0) 8 (theJob s) ∧ (theJob s).seg 0 = some seg0 ∧ fld ((toWords (ofWords (about 1 0))).getD 0 0) 63 60 = 1 ∧
     (toWords (ofWords (about 1 9))).getD 1 0 = 9 ∧ seg0.digest = 0) ∧
    (let s := coll 4 1 0 1 0 fun j => { j with coll := { repairs := [proof'] } }
     CollArrives s 0 (ch0 8 0) 8 (theJob s) ∧ proof'.k + 1 < ((theJob s).replicas 0).2.1) ∧
    (∀ u ∈ [0, 2, 5], let s := coll 2 1 0 1 0 fun j => { j with segs := [{ seg0 with upd := u }] }
     CollArrives s 0 (ch0 0xA 0) 0xA (theJob s) ∧ CollIdle (theJob s) ∧ (theJob s).seg 0 = some { seg0 with upd := u }) ∧
    (let s := coll 2 1 0 1 0
     Reaches (theJob s) (cGroup ((theJob s).cdesc ((theJob s).replicas 0).1)) 0 s ∧ (segFields seg0.words).elements = 32) := by
  refine ⟨⟨arrives_of (by decide +kernel), ⟨rfl, rfl, rfl, rfl, rfl, rfl, rfl⟩, by decide +kernel⟩, by decide +kernel,
    ⟨arrives_of (by decide +kernel), by decide +kernel⟩, ⟨arrives_of (by decide +kernel), by decide +kernel⟩, fun u h => ?_,
    ⟨by decide +kernel, by decide +kernel⟩, by decide +kernel⟩
  simp only [List.mem_cons, List.not_mem_nil, or_false] at h
  obtain rfl | rfl | rfl := h <;> exact ⟨arrives_of (by decide +kernel), ⟨rfl, rfl, rfl, rfl, rfl⟩, by decide +kernel⟩

/-- A decision to commit at count 100. -/
def verdict : Decision := { step := 0, round := 0, outcome := 0, missing := 0, count := 100 }

/-- A job with what the agent holds of the vote. -/
def voting (p me : Nat) (f : CollRun → CollRun) (g : Job → Job := id) : State := coll p me 7 0 0 fun j => g { j with coll := f {} }

theorem witness_VotesAndDecisions :
    ((∃ j x w d, CollIssues (coll 1 0 7 0 0) 3 .normal 7 j x w d) ∧ (theJob (coll 1 0 7 0 0)).votePlace = (1, 0, 2) ∧ (coll 1 0 7 0 0).cwk.state = .locked) ∧
    (∀ own ∈ [none, some ({} : VoteRec)], let s := voting 8 2 fun c => { c with vote := { own := own, kids := [(6, {})] } }
     CollArrives s 0 (ch0 4 0) 4 (theJob s) ∧ CollIdle (theJob s) ∧ (theJob s).votePlace = (8, 2, 2) ∧ voteKids 8 2 2 = [5, 6] ∧
     fld (ch1 5) 63 52 = 5 ∧ Reaches (theJob s) (theJob s).voteGroup ((2 - 1) / 2) s) ∧
    (let s := voting 8 2 id
     CollArrives s 0 (ch0 5 0) 5 (theJob s) ∧ (theJob s).coll.decided = [] ∧ (theJob s).coll.applied = none ∧ Reaches (theJob s) (theJob s).voteGroup 0 s ∧
     (readDecision 0 [0, 0]).count = 0 ∧ (readDecision 0 [0, 100]).count = 100 ∧ s.cwk.now = 5) ∧
    (let s := voting 8 1 fun c => { c with vote := { proposed := some { verdict with count := 0 } } }
     CollArrives s 0 (ch0 6 0) 6 (theJob s) ∧ CollIdle (theJob s) ∧ fld (ch1 0) 63 52 = 1 - 1) ∧
    (let s := voting 8 0 fun c => { c with decided := [verdict], decision := some verdict }
     CollArrives s 0 (ch0 7 0) 7 (theJob s) ∧ (theJob s).held (fld (ch0 7 0) 31 0) 0 = some verdict ∧ (theJob s).decidedNow 0 = true ∧
     Reaches (theJob s) (theJob s).voteGroup 1 s) := by
  refine ⟨⟨collIssues_of (by decide +kernel), by decide +kernel, by decide +kernel⟩, fun own h => ?_,
    ⟨arrives_of (by decide +kernel), by decide +kernel, by decide +kernel, ⟨by decide +kernel, by decide +kernel⟩, by decide +kernel⟩,
    ⟨arrives_of (by decide +kernel), ⟨rfl, rfl, rfl, rfl, rfl⟩, by decide +kernel⟩,
    ⟨arrives_of (by decide +kernel), by decide +kernel, by decide +kernel, ⟨by decide +kernel, by decide +kernel⟩⟩⟩
  simp only [List.mem_cons, List.not_mem_nil, or_false] at h
  obtain rfl | rfl := h <;> exact ⟨arrives_of (by decide +kernel), ⟨rfl, rfl, rfl, rfl, rfl⟩, by decide +kernel, by decide, by decide,
    ⟨by decide +kernel, by decide +kernel⟩⟩

/-- Without digests. -/
def undigested (s : State) : State := { s with boot := { s.boot with shadow := some { bp with training := [{ digestInterval := 0 }, {}] } } }

theorem witness_StepOutcome :
    (let s := voting 8 0 fun c => { c with vote := { own := some {} } }
     jobOf 0 7 s = some (theJob s) ∧ (theJob s).votePlace.2 = (0, 2) ∧ (theJob s).coll.vote.own = some {} ∧ s.cwk.state = .locked) ∧
    (let s := voting 8 2 fun c => { c with vote := { contributed := some 3 } }
     jobOf 0 7 s = some (theJob s) ∧ Reaches (theJob s) (theJob s).voteGroup 0 s) ∧
    (let s := voting 8 0 (fun c => { c with decision := some verdict }) fun j => { j with outcome := some ⟨100, 0⟩ }
     jobOf 0 7 s = some (theJob s) ∧ earlyMode 0 s = false ∧ (∀ g ∈ (theJob s).segs, g.copyDirty = false) ∧ s.cwk.now ≤ 100 ∧
     s.wake.selfRefresh = false ∧ ∀ p ∈ allSpares s, p.2.deferred = false) ∧
    (let s := undigested (voting 8 0 fun c => { c with applied := some ⟨verdict, 100, false⟩ })
     jobOf 0 7 s = some (theJob s) ∧ (∀ g ∈ (theJob s).segs, g.settled = true ∧ g.outcome ≠ 3 ∧ g.outcome ≠ 4) ∧ (trainCfg 0 s).digestInterval = 0 ∧
     inside ((theJob s).commitRecords + 32 * ((theJob s).coll.index % 16)) 32 (stackRange 0 s) = true) := by
  refine ⟨by decide +kernel, ⟨by decide +kernel, ⟨by decide +kernel, by decide +kernel⟩⟩, by decide +kernel, by decide +kernel⟩

/-! ### Serden engines, stack memory, faults -/

/-- A state with segment 0 as given. -/
def withSeg (g : Segment) : State := coll 1 0 1 0 0 fun j => { j with segs := [g] }

theorem witness_SegmentsAndCopies :
    (∀ u ∈ [0, 2, 3, 4, 5], ∀ a ∈ [0, 1, 2], let s := withSeg { seg0 with upd := u, acc := a }
      jobOf 0 7 s = some (theJob s) ∧ (theJob s).seg 0 = some { seg0 with upd := u, acc := a } ∧ earlyMode 0 s = false) ∧
    (let j := theJob (withSeg seg0)
     inside (resultAt j 0) 32 (jobRange 0 (withSeg seg0)) = true ∧ Memory.wf (withSeg seg0).mem = true ∧ j.part = 0 ∧
     (segFields seg0.words).elements = 32 ∧ (resultAt j 0 = place + 0x170000)) ∧
    earlyMode 0 { withSeg seg0 with boot := { up.boot with shadow := some { bp with training := [{ earlyMode := true }, {}] } } } = true := by
  decide +kernel

/-- An add-write to segment 0's first line. -/
def addw : AddWrite := { part := 0, addr := place + 0x130000, mask := 1, int := false, vals := List.replicate 16 0 }

/-- The first line of segment 0. -/
def line0 : Nat := (place + 0x130000) / 64

/-- The words of an expert segment, whose update waits for its counts. -/
def expertWords : List W64 := pack [(1, 59, 1)] :: seg0.words.drop 1

theorem witness_AddWritesAndUpdates :
    (let s := { withSeg seg0 with addq := [addw] }
     channelOf addw.part addw.addr s = channelOf 0 (place + 0x130000) up ∧ addHeld addw.addr s = false ∧ addw.addr / 64 ∉ s.poison ∧
     deadLine (addw.addr / 64) s = false ∧ (∀ ch, underTest (.lane (channelOf 0 ch s)) s = false) ∧
     ∀ j ∈ s.jobs, ∀ x ∈ j.tiles, ∀ e ∈ x.arrays, e.held = []) ∧
    underTest (.lane 2) { withSeg seg0 with faults := { Faults.reset with tests := [⟨.lane 2, none, false⟩] } } = true ∧
    addHeld addw.addr { withSeg { seg0 with acc := 1 } with addq := [addw] } = true ∧
    addw.addr / 64 ∈ ({ withSeg seg0 with addq := [addw], poison := [line0] } : State).poison ∧
    (∀ e, e < 8 → engineWorks e (withSeg seg0) = false ∧ 0x50 + e ∉ (withSeg seg0).gated) ∧
    (let s := withSeg { seg0 with upd := 2, acc := 1 }
     jobOf 0 7 s = some (theJob s) ∧ (theJob s).coll.startWait = false ∧ seg0.index = 0 ∧ seg0.flipPending = false ∧
     poisonedLane 0 (segFields seg0.words) (updateReads false (segFields seg0.words) false 0) s = none ∧
     scalarsReady (theJob s) seg0 s = true ∧ inside (resultAt (theJob s) 0) 32 (jobRange 0 s) = true ∧
     scalarsReady (theJob s) { seg0 with words := expertWords } { s with mem := wrNat (place + 0x100014) 4 9 [] } = false) := by
  refine ⟨⟨by decide +kernel, by decide +kernel, by decide +kernel, by decide +kernel, fun _ => rfl, by decide +kernel⟩, by decide +kernel,
    by decide +kernel, by decide +kernel, by decide +kernel, by decide +kernel⟩

/-- A segment of one element, in early mode. -/
def early1 : State :=
  { withSeg { seg0 with upd := 2, acc := 1, words := [0, BitVec.ofNat 64 (place + 0x130000), pack [(1, 32, 32)], 0, 0, 0, 0, 0] } with
    boot := { up.boot with shadow := some { bp with training := [{ earlyMode := true }, {}] } }, mem := wrNat (place + 0x130000) 4 0x3F800000 [] }

theorem witness_EarlyUpdate : (let j := theJob early1; let f := segFields ((j.segs.headD seg0).words)
    earlyMode 0 early1 = true ∧ f.elements = 1 ∧ untouched j f early1 = false ∧ momentBf16 0 early1 = false ∧ j.table.isSome = true ∧
    List.Pairwise (fun (a b : Nat × Nat) => a.1 + a.2 ≤ b.1 ∨ b.1 + b.2 ≤ a.1)
      (((List.range 10).map fun a => ((fieldAt j.part f a 0 early1).1, if a = 1 then 2 else 4)) ++
        [(resultAt j 0, 32)])) := by decide +kernel

theorem witness_ScrubErrorsAndTests :
    (let s := withSeg seg0
     partOfAddr (64 * line0) s = some 0 ∧ TestUnit.channel (channelOf 0 (64 * line0) s) ∉ s.faults.out ∧
     recent (.channel (channelOf 0 (64 * line0) s)) 3600000000000 (pushTime (.channel (channelOf 0 (64 * line0) s)) s.cwk.now s.faults.ce) s <
       (faultCfg s).channelCeLimit) ∧
    bankKey 2 1 255 ∈ ({ up.faults with copying := [bankKey 2 1 255] } : Faults).copying ∧
    (∀ un ∈ [TestUnit.sequencer 3, .vector 3, .core 3, .coreBank 3 0], coreOfUnit un = some 3 ∧ servedBy 3 (withSeg seg0) = some 3 ∧
      un ∉ (withSeg seg0).faults.out ∧ TestUnit.core 3 ∉ (withSeg seg0).faults.out ∧ TestUnit.core 3 ∉ (withSeg seg0).faults.suspects ∧
      oldTransients un ((faultCfg (withSeg seg0)).bucketWindowS * 1000000000) (withSeg seg0) +
        recent (bucketOf un) ((faultCfg (withSeg seg0)).bucketWindowS * 1000000000) (pushTime (bucketOf un) 5 []) (withSeg seg0) <
        (faultCfg (withSeg seg0)).bucketCount) := by decide +kernel

theorem witness_ScrubWaits : (∃ q ∈ ({ withSeg seg0 with addq := [addw] } : State).addq, q.part = 0 ∧
      channelOf 0 q.addr { withSeg seg0 with addq := [addw] } = channelOf 0 (64 * line0) { withSeg seg0 with addq := [addw] }) ∧
    (withSeg seg0).addq = [] ∧ NoStartWaits (withSeg seg0) ∧ ({ withSeg seg0 with clk := { Clk.reset with gated := true } } : State).clk.gated = true ∧
    (withSeg seg0).clk.gated = false ∧
    (∀ un ∈ [TestUnit.sequencer 3, .vector 3, .core 3, .coreBank 3 0], (if Config.gradeF ∨ storeUnit un then tileOfCore 3 else 3) = 3) ∧
    fusedOff 3 = false ∧ (∃ un, un ∈ ({ up.faults with out := [.vector 3] } : Faults).out ∧ coreOfUnit un = some 3) ∧
    (∀ j ∈ (withSeg seg0).jobs, (j.tiles.map JobTile.tile).Nodup) := by
  refine ⟨by decide +kernel, rfl, ?_, rfl, by decide +kernel, ?_, by simp [fusedOff], ⟨.vector 3, by decide⟩, by decide +kernel⟩
  · unfold NoStartWaits
    decide +kernel
  · intro un _
    split <;> rfl

theorem witness_SwapsAndRejoin :
    (∀ un ∈ [TestUnit.sequencer 3, .vector 3, .core 3, .coreBank 3 0], let s := { withSeg seg0 with
        faults := { Faults.reset with tests := [⟨un, some 3, false⟩] } }
      s.faults.spares.length = 32 ∧ coreOfUnit un = some 3 ∧ (∀ p ∈ allSpares s, p.1 ≠ 3) ∧ deferredSpare 3 s = none ∧
      freeSpare (dieOfCore 3) s = some 512) ∧
    (let s := { withSeg seg0 with faults := { Faults.reset with swaps := [⟨3, 512, some 3, .datapath⟩] } }
     s.faults.spares.length = 32 ∧ positionOf 3 ∉ s.faults.lost ∧ (512, {}) ∈ allSpares s) ∧
    (let s := { withSeg seg0 with faults := { Faults.reset with out := [.core 511], passed := [.core 511] } }
     leavesOf (.core 511) s < 3 ∧ TestUnit.core 511 ∈ s.faults.passed) := by decide +kernel

/-! ### The Dranto fabric -/

/-- The machine with link 0 as given. -/
def net (l : Link) (f : State → State := id) : State := f { up with fab := { links := l :: List.replicate 35 {} } }

/-- The machine whose first link is Ethernet and as given. -/
def wire (l : Link) (f : State → State := id) : State := f { ethernet with fab := { links := l :: List.replicate 35 {} } }

/-- The machine with link 0 not allowed to narrow. -/
def wide (s : State) : State := { s with boot := { s.boot with shadow := some { bp with
  topo := { bp.topo with links := ⟨1, 0, 1, 0, 0, false⟩ :: List.replicate 35 ⟨0, 0, 0, 0, 15, false⟩ } } } }

theorem witness_LinkTraining :
    (∀ stage ∈ [1, 2, 3, 4, 5], ∀ st ∈ [1, 2], ∀ b ∈ [false, true], let s := net { state := st, stage := stage, identified := b }
      (linkCfg 0 s).mode = 1 ∧ (linkOf 0 s).stage = stage ∧ (linkOf 0 s).state = st ∧ (linkOf 0 s).identified = b ∧ (linkOf 0 s).waiting = false ∧
      0 < s.fab.links.length ∧ (linkCfg 0 s).narrowAllowed = true ∧ (linkCfg 0 s).role = 0 ∧ s.cwk.state ≠ .locked) ∧
    (∀ tries ∈ [2, 3], let s := net { stage := 1, tries := tries }
      (linkOf 0 s).stage ≠ 0 ∧ (linkOf 0 s).tries = tries) ∧ (2 + 1 < 4 ∧ 4 ≤ 3 + 1) ∧ (linkOf 0 (net { waiting := true })).waiting = true ∧
    (∀ st ∈ [1, 4], let s := wire { state := st }
      (linkCfg 0 s).mode = 2 ∧ (linkOf 0 s).state = st ∧ s.fab.tx = []) := by decide +kernel

/-- Two links that report one peer's seat and link. -/
theorem witness_SeatTwice : seatTwice 0 1 0 (net { state := 2, stage := 3 }) = false ∧
    seatTwice 0 1 0 { wide (net { state := 2, stage := 3 }) with fab :=
      { links := { state := 2, stage := 3 } :: { state := 4, identified := true, peerSeat := 1, peerLink := 0 } :: List.replicate 34 {} } } = true := by
  decide +kernel

/-- A word whose low half is a number and whose high half is 0. -/
theorem low_word (v : Nat) (h : v < 2 ^ 32) : fld (pack [(v, 0, 32)]) 31 0 = v ∧ pack [(fld (pack [(v, 0, 32)]) 63 32, 32, 32)] = 0 := by
  have e : (pack [(v, 0, 32)]).toNat = v := by
    simp only [pack, packN, Nat.shiftLeft_zero, Nat.or_zero, BitVec.toNat_ofNat]
    omega
  have z : fld (pack [(v, 0, 32)]) 63 32 = 0 := by
    simp only [fld, bits, e, Nat.shiftRight_eq_div_pow]
    omega
  refine ⟨?_, by rw [z]; rfl⟩
  simp only [fld, bits, e, Nat.shiftRight_zero]
  omega

/-- Word 0 of a flit of type `t`, sequence number `n`. -/
def fw0 (t n : Nat) : W64 := pack [(t, 60, 4), (n, 48, 12)]

/-- Word 1 of such a flit without packets; its CRC right or one too high. -/
def fw1 (t n : Nat) (good : Bool) : W64 :=
  pack [(((crc32 (ofWords (fw0 t n :: 0 :: zeros 30))).toNat + if good then 0 else 1) % 2 ^ 32, 0, 32)]

theorem flitOf (t n : Nat) (good : Bool) : FlitOf (fw0 t n :: fw1 t n good :: zeros 30) (fw0 t n) (fw1 t n good) (zeros 30) good := by
  have hc := (crc32 (ofWords (fw0 t n :: 0 :: zeros 30))).isLt
  have h := low_word (((crc32 (ofWords (fw0 t n :: 0 :: zeros 30))).toNat + if good then 0 else 1) % 2 ^ 32) (Nat.mod_lt _ (by omega))
  refine ⟨rfl, by simp [zeros], ?_⟩
  unfold fw1
  rw [h.2, h.1]
  generalize (crc32 (ofWords (fw0 t n :: 0 :: zeros 30))).toNat = c at hc
  cases good
  · simp only [Bool.false_eq_true, if_false, false_iff]
    omega
  · simp only [if_true, true_iff]
    omega

theorem witness_FlitsAndRetry :
    (let s := net { state := 4, identified := true }
     (linkCfg 0 s).mode = 1 ∧ (linkOf 0 s).state = 4 ∧ (linkOf 0 s).txq = [] ∧ (linkOf 0 s).avail.length = 5 ∧ (linkOf 0 s).peerFreed.length = 5 ∧
     s.fab.chunks = [] ∧ (linkOf 0 s).crcRun + 1 < 4 ∧ ((linkOf 0 s).rxSeq + 1) % 4096 = 0 ∧ (walkSlots 16 (linkOf 0 s).rxLeft (linkOf 0 s).rxWords (zeros 30)).2.2 = []) ∧
    (∀ t n good, FlitOf (fw0 t n :: fw1 t n good :: zeros 30) (fw0 t n) (fw1 t n good) (zeros 30) good) ∧
    (∀ t ∈ [0, 1], ∀ n ∈ [0, 1], fld (fw0 t n) 63 60 = t ∧ fld (fw0 t n) 59 48 = n ∧ fld (fw0 t n) 34 34 = 0) ∧
    (linkOf 0 (net { state := 4, retry := [⟨0, zeros 30, none⟩], gap := true })).retry ≠ [] :=
  ⟨by decide +kernel, flitOf, by decide +kernel, by decide +kernel⟩

/-- The counter LOCKED at 5. -/
def lockedAt5 (s : State) : State := { s with cwk := { Cwk.reset with state := .locked, now := 5 } }

theorem witness_LinkChanges :
    (let s := net { state := 4 }
     (linkCfg 0 s).mode = 1 ∧ (linkOf 0 s).lanePair = 0 ∧ (linkCfg 0 s).narrowAllowed = true ∧ s.fab.links.length = 36) ∧
    (linkCfg 0 (wide (net { state := 4 }))).narrowAllowed = false ∧
    (∀ n ∈ [0, 1], let s := net { state := 5, narrowTo := n, narrowCause := 1 }
      (linkOf 0 s).narrowTo = n ∧ (linkOf 0 s).narrowCause ≠ 5 ∧ (linkOf 0 s).txq = []) ∧
    (let s := lockedAt5 (net { state := 3, proposed := some 2000005 })
     (linkOf 0 s).state = 3 ∧ (linkOf 0 s).switchAt = none ∧ (linkOf 0 s).proposed = some 2000005 ∧ s.cwk.now + 2000000 ≤ 2000005 ∧
     s.cwk.now.toNat + 2000000 < 2 ^ 64) ∧
    (let s := lockedAt5 (net { state := 3, switchAt := some 5 })
     (linkOf 0 s).switchAt = some 5 ∧ 5 ≤ s.cwk.now ∧ ∀ i, i < 36 → i ≠ 0 → (linkOf i s).switchAt = none) ∧
    (let s := net { state := 6, handover := true, cause := 1 }
     (linkOf 0 s).handover = true ∧ s.fab.chunks = [] ∧ (linkOf 0 s).cause ≠ 5 ∧ (linkOf 0 s).cause ≠ 6) ∧
    (let s := net { state := 4, identified := true }
     s.fab.tx = [] ∧ (linkCfg 0 s).role = 0 ∧ (linkCfg 0 s).peerSeat = 1 ∧ ∀ i, i < 36 → (linkCfg i s).peerSeat = 1 → (linkOf i s).state ≠ 6) ∧
    (let s := wide (net { state := 4 })
     (linkCfg 0 s).peerSeat = 1 ∧ ∀ i, i < 36 → i ≠ 0 → (linkCfg i s).peerSeat ≠ 1) ∧
    (∀ sat ∈ [[], [0]], let s := net { state := 4, avail := [0, 0, 0, 0, 0], txq := [packet 0 0x01 1 5 1 true true 0 0 0 []], sat := sat }
      ((linkOf 0 s).headOf 0).isSome = true ∧ (linkOf 0 s).sat = sat) := by decide +kernel

/-- A region of partition 0, with everything allowed. -/
def region : RegionCfg := ⟨0x42, 0, 0, true, true, true, 2048, (stackRange 0 up).1⟩

/-- A target with that region and channels. -/
def target (chs : List Channel) (reqs : List FabReq := []) : State :=
  { joined [] with jobs := (joined []).jobs.map fun j => { j with channels := chs },
                   boot := { up.boot with shadow := some { bp with regions := [region] } },
                   fab := { links := { state := 4, identified := true } :: List.replicate 35 {}, reqs := reqs } }

/-- A request for the region from member 1: opcode, LEN, key, payload. -/
def ask (op len key : Nat) (data : List Byte) : Packet := packet 0 op 5 1 len true true key place 9 data

/-- PacketHere, as a check. -/
theorem packetHere_of {s : State} {vl : Nat} {p : Packet} (h : decide (0 < s.fab.links.length ∧ partOfLink 0 s = some 0 ∧ p.vl = vl ∧
    p.dst = seatOf s % 64 ∧ s.faults.out = [] ∧ Memory.wf s.mem = true) = true) : PacketHere s 0 vl 0 p := by
  obtain ⟨a, b, c, d, e, f⟩ := of_decide_eq_true h
  exact ⟨a, b, c, d, e, f⟩

/-- A channel from member 1's tile 4 to tile 3. -/
def remote : Channel := { back with srcSeat := some 1, srcTile := 4, srcIndex := 0 }

theorem witness_FabricRequests :
    (∀ key ∈ [0x42, 0x43], PacketHere (target []) 0 0 0 (ask 0x01 1 key []) ∧ (ask 0x01 1 key []).opcode = 0x01 ∧
      requestStatus 0 (ask 0x01 1 key []) 0 (target []) = (if key = 0x42 then 0 else 2)) ∧
    (∀ key ∈ [0x42, 0x43], PacketHere (target []) 0 0 0 (ask 0x02 1 key (List.replicate 16 7)) ∧
      requestStatus 0 (ask 0x02 1 key (List.replicate 16 7)) 0 (target []) = (if key = 0x42 then 0 else 2)) ∧
    (∀ aop ∈ [0, 1, 2, 3, 4], ∀ ret ∈ [0, 1], PacketHere (target []) 0 0 0 (ask (0x40 + 8 * aop + ret) 1 0x42 (leBytes 4 1 ++ leBytes 4 2)) ∧
      requestStatus 0 (ask (0x40 + 8 * aop + ret) 1 0x42 (leBytes 4 1 ++ leBytes 4 2)) 1 (target []) = 0) := by
  refine ⟨fun key h => ?_, fun key h => ?_, fun aop h ret hr => ?_⟩
  · simp only [List.mem_cons, List.not_mem_nil, or_false] at h
    obtain rfl | rfl := h <;> exact ⟨packetHere_of (by decide +kernel), by decide +kernel⟩
  · simp only [List.mem_cons, List.not_mem_nil, or_false] at h
    obtain rfl | rfl := h <;> exact ⟨packetHere_of (by decide +kernel), by decide +kernel⟩
  · simp only [List.mem_cons, List.not_mem_nil, or_false] at h hr
    obtain rfl | rfl | rfl | rfl | rfl := h <;> obtain rfl | rfl := hr <;> exact ⟨packetHere_of (by decide +kernel), by decide +kernel⟩

/-- Requests on a link that no partition holds. -/
theorem witness_UnheldLink : partOfLink 5 (target []) = none ∧ 5 < (target []).fab.links.length ∧
    (∀ p ∈ [ask 0x01 1 0x42 [], ask 0x02 1 0x42 (List.replicate 16 7), ask 0x40 1 0x42 (leBytes 4 1), ask 0x03 1 0x42 (List.replicate 16 7)],
      p.dst = seatOf (target []) % 64 ∧ p.vl = 0) ∧ malformed (ask 0x03 1 0x42 (List.replicate 16 7)) 0 = false := by decide +kernel

/-- A request of member 2 to member 1, which this module forwards over link 0. -/
def through (op : Nat) (data : List Byte) : Packet := packet 0 op 1 2 1 true true 0x42 place 9 data

/-- An entry of the combining table for a request of member 3 like it. -/
def entryOf (op : Nat) : Combine := { src := 3, tag := 4, member := 1, opcode := op, key := 0x42, addr := place, len := 1, since := 0 }

/-- A forwarding module whose table holds that entry; the request waits for credit at link 0. -/
def crossing (op : Nat) : State :=
  { target [] with boot := { up.boot with shadow := some { bp with topo := { bp.topo with forwardEnable := true } } },
                   fab := { links := { state := 4, identified := true, inA := true, txq := [packet 0 op 1 3 1 true true 0x42 place 4 (leBytes 4 1)] } ::
                              List.replicate 35 {}, combines := [entryOf op] } }

theorem witness_Combining : ∀ op ∈ [0x01, 0x40], let s := crossing op
    let p := through op (if op = 0x01 then [] else leBytes 4 2)
    p.dst ≠ seatOf s % 64 ∧ p.fwd = false ∧ (linkCfg 1 s).role ≠ 1 ∧ forwardEnable s = true ∧ directLinks p.dst (fun _ => true) s = [0] ∧
    p.forwarded.vl = 0 ∧ p.vl = 0 ∧ s.fab.combines = [entryOf op] ∧ (entryOf op).takes p.forwarded s.cwk.now = true ∧ (entryOf op).isOf p.forwarded = false ∧
    p.forwarded.opcode = op ∧ combines p.forwarded.opcode = true ∧ (linkOf 0 s).txq.any (entryOf op).isOf = true := by decide +kernel

/-- A CHAN_WRITE of 16 bytes at an address. -/
def chanWrite (a : Nat) : Packet := packet 0 0x03 5 1 1 true true (packN [(4, 22, 10), (0, 18, 4)]) a 9 (List.replicate 16 7)

theorem witness_ChanWrite :
    (∀ a ∈ [remote.buffer, remote.buffer + 2032, remote.buffer + 2033], PacketHere (target [remote]) 0 0 0 (chanWrite a) ∧
      (chanWrite a).opcode = 0x03 ∧ inside (chanWrite a).addr 16 (remote.buffer, remote.depth * remote.entryBytes) = decide (a ≤ remote.buffer + 2032)) ∧
    (∃ p, jobWithChannel 0 1 4 0 (target [remote]) = some p ∧ p.2 = remote ∧ jobOf p.1.part p.1.num (target [remote]) = some p.1 ∧ p.1.channels = [remote]) ∧
    fld (chanWrite 0).h0 31 22 = 4 ∧ fld (chanWrite 0).h0 21 18 = 0 ∧ memberSeat (chanWrite 0).src (target []) = 1 ∧ (partOf 0 (target [])).state ≠ 3 := by
  refine ⟨fun a h => ?_, some_of (by decide +kernel), by decide +kernel⟩
  simp only [List.mem_cons, List.not_mem_nil, or_false] at h
  obtain rfl | rfl | rfl := h <;> exact ⟨packetHere_of (by decide +kernel), by decide +kernel⟩

/-- An outstanding request of tile 3. -/
def freq (op len : Nat) (use : ReqUse) : FabReq := ⟨9, 0, 7, 3, 1, 1, op, 0x42, place, len, use, 0, none⟩

/-- An answer of member 1. -/
def reply (op : Nat) (data : List Byte) : Packet := packet 1 op 5 1 1 true true 0 place 9 data

theorem witness_FabricAnswers :
    (∀ a ∈ [(0x80, 0x01, ReqUse.read place), (0x83, 0x41, ReqUse.atomic (some place)), (0x81, 0x02, ReqUse.write), (0x82, 0x40, ReqUse.atomic none),
        (0x84, 0x03, ReqUse.chan)], let s := target [] [freq a.2.1 16 a.2.2]
      PacketHere s 0 1 0 (reply a.1 []) ∧ (reply a.1 []).opcode = a.1 ∧ answerOpcode a.2.1 = a.1 ∧ (reply a.1 []).tag = 9 ∧ (reply a.1 []).src = 1 ∧
      fld (reply a.1 []).h0 31 24 = 0 ∧ (∃ j, jobOf 0 7 s = some j ∧ (j.tile 3).isSome = true)) ∧
    (let s := { target [channel] with jobs := (target [channel]).jobs.take 1 }
     PacketHere s 0 1 0 (packet 1 0x85 5 5 1 true true (packN [(3, 22, 10)]) 0 0 []) ∧ s.jobs = [theJob s] ∧ (theJob s).channels = [channel] ∧
     (theJob s).running = true ∧ channel.dstSeat = memberSeat 5 s) := by
  refine ⟨fun a h => ?_, packetHere_of (by decide +kernel), by decide +kernel⟩
  simp only [List.mem_cons, List.not_mem_nil, or_false] at h
  obtain rfl | rfl | rfl | rfl | rfl := h <;>
    exact ⟨packetHere_of (by decide +kernel), by decide +kernel, by decide +kernel, by decide +kernel, by decide +kernel, by decide +kernel,
      some_of (by decide +kernel)⟩

/-- A READ of a COPY between two regions, whose data goes to member 1. -/
theorem witness_ForwardedCopy : let s := { target [] [freq 0x01 16 (.forward 1 0x43 (place + 64))] with
      fab := { links := { state := 4, identified := true, inA := true } :: List.replicate 35 {}, reqs := [freq 0x01 16 (.forward 1 0x43 (place + 64))] } }
    PacketHere s 0 1 0 (reply 0x80 (List.replicate 16 7)) ∧ s.fab.copies = [] ∧ (∀ c ∈ s.fab.combines, c.others = []) ∧
    (∀ j ∈ s.jobs, j.coll.runs = []) ∧ 1 ≠ seatOf s % 64 ∧ (routeTo 0 1 s).isSome = true :=
  ⟨packetHere_of (by decide +kernel), rfl, by decide +kernel, by decide +kernel, by decide +kernel, by decide +kernel⟩

/-- A sending flow, and a receiving one. -/
def txf (segs : List Seg) : TxFlow := { part := 0, seat := 9, cls := 3, flow := 6, segs := segs }
/-- A receiving flow. -/
def rxf (u : Nat) : RxFlow := { part := 0, seat := 9, cls := 3, flow := 6, next := 64, window := 127, unacked := u }

/-- The machine with those flows. -/
def flows (tx : List TxFlow) (rx : List RxFlow) (f : Fabric → Fabric := id) : State :=
  { wire { state := 4 } lockedAt5 with fab := f { links := { state := 4 } :: List.replicate 35 {}, tx := tx, rx := rx } }

/-- Word 0 of a DMT header to seat 5. -/
def d0 : W64 := pack [(3, 53, 3), (9, 36, 12), (5, 24, 12), (6, 0, 24)]

/-- A segment that has been sent. -/
def seg1 : Seg := { psn := 4, last := true, h0 := 0, h1 := 0, data := [], out := true }

theorem witness_DmtFlows :
    (let s := flows [] [rxf 0]
     partOfLink 0 s = some 0 ∧ (linkCfg 0 s).mode = 2 ∧ (linkOf 0 s).state = 4 ∧ fld d0 35 24 = seatOf s ∧ fld d0 47 36 = 9 ∧ fld d0 55 53 = 3 ∧
     fld d0 23 0 = 6 ∧ s.fab.rx = [rxf 0] ∧ (rxf 0).unacked + 1 < 16 ∧ (rxf 0).held = []) ∧
    (∀ psn ∈ [63, 64, 127, 128], (64 ≤ (psn + 2 ^ 32 - (rxf 0).next) % 2 ^ 32 ∨ seqLe psn (rxf 0).window = false) ↔ (psn = 63 ∨ psn = 128)) ∧
    seqLe (rxf 0).next (rxf 0).window = true ∧ seqLe 64 { rxf 0 with window := 63 }.window = false ∧
    (let s := { flows [txf [seg1]] [] with cwk := { Cwk.reset with now := 50000 } }
     s.fab.tx = [txf [seg1]] ∧ s.fab.chunks = [] ∧ (∀ g ∈ (txf [seg1]).segs, g.out = true ∧ seqLe g.psn 4 = true) ∧ (txf [seg1]).rto ≤ (s.cwk.now - seg1.sent).toNat ∧
     flowLink 0 6 s = some 0) ∧ (rxf 1).unacked ≠ 0 ∧
    (∀ e ∈ [99, 100], (flows [] [] fun b => { b with echoes := e }).fab.echoSecond = (flows [] []).cwk.now.toNat / 1000000000) := by decide +kernel

/-- A job that waits for two regions of member 1. -/
def resolving (q : List Resolve) : State :=
  { waiting 0 [{ job (tile []) with run := some { run with started := false, count := none } }] with
    fab := { links := { state := 4, inA := true, identified := true } :: List.replicate 35 {}, resolves := q },
    boot := { up.boot with shadow := some { bp with regions := [region] } } }

theorem witness_AgentMessages :
    masterOf 0x40 up = none ∧ (linkCfg 0 up).mode ≠ 2 ∧ (linkCfg 0 ethernet).mode = 2 ∧ masterOf 0x40 ethernet = none ∧ NoneWaits ethernet ∧
    (let s := { ethernet with boot := { ethernet.boot with shadow := ethernet.boot.shadow.map fun b => { b with
      masters := ⟨0x40, 0, 0xF, false, true, true, true, true, true, true, true⟩ :: b.masters } } }
     (linkCfg 0 s).mode = 2 ∧ (masterOf 0x40 s).isSome = true ∧ s.fab.tx = [] ∧ 0 < s.fab.links.length) ∧
    (masterOf 0x40 { up with boot := { up.boot with shadow := some { bp with
      masters := ⟨0x40, 0, 0xF, false, true, true, true, true, true, true, true⟩ :: bp.masters } } }).isSome = true ∧
    (let s := resolving [⟨0, 7, 1, 0x42⟩, ⟨0, 7, 1, 0x43⟩]
     partOfLink 0 s = some 0 ∧ regionByKey 0 0x43 s = none ∧ regionByKey 0 0x42 s = some region ∧ routeTo 0 1 s = some ([0], false) ∧
     s.jobs = [theJob s] ∧ (theJob s).run.isSome = true ∧ (theJob s).channels = [] ∧ (theJob s).csection = []) ∧
    (let s := resolving [⟨0, 7, 1, 0x42⟩]
     jobOf 0 7 s = some (theJob s) ∧ (commandOf 0 0 3 s).isSome = true ∧ s.faults.lost = []) ∧
    (let s := routed 2 0 []
     s.jobs = [theJob s] ∧ (theJob s).running = true ∧ (theJob s).mapOf 4 = some 0 ∧ fld (pack [(4, 54, 10), (5, 48, 6)]) 63 54 = 4 ∧
     (groupOf ((theJob s).rmap 0)) = [1, 5] ∧ selfOf ((theJob s).rmap 0) s = 5) ∧
    (∀ b ∈ [true, false], let s := { at' [] id (fun j => { j with channels := [{ channel with dstSeat := 1 }] }) with
        jobs := (at' [] id fun j => { j with channels := [{ channel with dstSeat := 1 }], run := if b then j.run else none }).jobs }
      declTarget 0 (seatOf s) (.channel 1 (packN [(3, 54, 10), (4, 40, 10), (1, 24, 12)]) 0) s = some (theJob s) ∧ (theJob s).part = 0 ∧ s.jobs = [theJob s] ∧
        if b then (theJob s).running = true else (theJob s).run = none) ∧
    (let s := { flows [txf [seg1]] [] with cwk := { Cwk.reset with now := 10 ^ 12 } }
     s.fab.tx = [txf [seg1]] ∧ (txf [seg1]).cls ≠ 4 ∧ tooLong seg1.since s = true ∧ s.fab.reqs = [] ∧ s.jobs = []) ∧
    (tooLong 0 up = false ∧ tooLong 0 { up with cwk := { Cwk.reset with now := 10 ^ 12 } } = true ∧ (0 : Nat) ∈ partIds up) := by
  refine ⟨by decide +kernel, by decide +kernel, by decide +kernel, by decide +kernel, fun _ h => by simp [ethernet, up, State.reset] at h,
    by decide +kernel, by decide +kernel, by decide +kernel, by decide +kernel, by decide +kernel, by decide +kernel, by decide +kernel⟩

/-! ### Power, management, update -/

/-- The machine with a power state. -/
def powered (f : Power → Power) : State := { up with power := f Power.reset }

theorem witness_PowerSamples :
    (∀ k ∈ [0, 8, 9], ((2651 :: (powered fun p => { p with samples := List.replicate k 2651 }).power.samples).take 10).length = k + 1) ∧
    (26500 < ((2651 :: List.replicate 9 2650).take 10).sum ∧ ((2549 :: List.replicate 9 2550).take 10).sum < 25500) ∧
    (∀ k ∈ [8, 9], (powered fun p => { p with peakGuard := true, guardTicks := k }).power.guardTicks = k) ∧
    (∃ x ∈ (powered id).power.shares, 8 < x) ∧ (powered id).thermal.state < 3 := by decide

/-- A unit in a MAC phase. -/
def seen : PhaseSeen := { unit := 0, job := 7, part := 0, layer := 1, cls := 0, fullMw := 30000, heldMw := 10000, ns := 1 }

theorem witness_Governor : let s := { at' [] with power := Power.reset, boot := { up.boot with shadow := some { bp with power := { governorEqual := true } } } }
    s.power.govShares.length = 66 ∧ s.power.govSerden.length = 8 ∧ s.power.peakGuard = false ∧ s.thermal.state < 3 ∧ s.thermal.lowered = 0 ∧ s.clk.gated = false ∧
    (∀ x ∈ s.thermal.stackStates, x < 2) ∧ (powerCfg s).governorEqual = true ∧ seen.unit < 66 ∧ activePart seen.part s = true ∧ seen.cls < 4 ∧
    s.power.planTargets = [] ∧ ∀ ps ∈ s.power.phases, ps = [] := by decide +kernel

/-- The machine at an operating point, with what the thermal control allows. -/
def atPoint (op slow : Nat) (f : Power → Power := id) (t : Nat := 0) : State :=
  { up with clk := { Clk.reset with source := .onRefA, opCurrent := op, opTarget := op, slowestAllowed := slow }, power := f Power.reset,
            thermal := { Thermal.reset with state := t } }

theorem witness_PointsAndHeat :
    (∀ op ∈ [1, 4], ∀ hit ∈ [true, false], let s := atPoint op 5 fun p => { p with floorHit := hit, macShares := [(52, 1)] }
      s.clk.opPhase = .idle ∧ s.clk.gated = false ∧ s.clk.source ≠ .clockLoss ∧ s.clk.opVoltHigh = false ∧ s.clk.opCurrent ≤ 5 ∧
      s.clk.fastestAllowed ≤ s.clk.opCurrent - 1 ∧ s.clk.opCurrent + 1 ≤ s.clk.slowestAllowed ∧ (clocksCfg s).maxOp < s.clk.opCurrent ∧
      s.power.floorHit = hit ∧ 52 * (macMean s).2 ≤ (macMean s).1 ∧ s.thermal.state = 0) ∧
    (atPoint 1 5).power.droops.length = 66 ∧
    ((List.replicate 90 379).length = 90 ∧ (hottest computeSensors (List.replicate 90 379)).1 = 379 ∧
      (hottest computeSensors (List.replicate 90 420)).1 = 420) ∧
    (∀ op ∈ [4, 5], let s := atPoint op 5 id 2
      s.thermal.state = 2 ∧ (clocksCfg s).maxOp ≤ s.clk.opCurrent ∧ s.clk.fastestAllowed ≤ s.clk.opCurrent ∧ s.clk.opCurrent ≤ s.clk.slowestAllowed) := by
  decide +kernel

/-- An event. -/
def ev : Event := { code := 0x1001, unit := 0, w2 := 0, w3 := 0, count := 0 }

/-- The machine whose management events wait. -/
def mgmtAt (r : Option Nat) (q : List Event) (fl : Bool) : State :=
  { up with mgmt := { Mgmt.reset with events := { receiver := r, queue := q, inFlight := fl, coalesced := 0, overflow := [], overflowed := false } } }

theorem witness_ManagementRequestsAndEvents :
    (∀ ep ∈ [0, 1, 2], controlAnswered ep up = true ∧ endpointUp ep up = true) ∧ up.mgmt.eids.length = 5 ∧ up.mgmt.tid.length = 5 ∧
    up.mgmt.events.queue = [] ∧ firmwareUp up = true ∧ (firmwareUp State.reset = false ∧ controlAnswered 0 State.reset = true) ∧
    (∀ fl ∈ [true, false], (mgmtAt (some 0) [ev] fl).mgmt.events.queue = [ev] ∧ (mgmtAt (some 0) [ev] fl).mgmt.events.receiver = some 0) ∧
    (mgmtAt none [] false).mgmt.events.receiver ≠ some 0 ∧ (∃ id ∈ sensorIds, alwaysOnSensor id = false) ∧ 9999 ∉ sensorIds ∧
    portRegister 9999 = none ∧ portRegister 0x10040 = some 0x40 ∧ 0x08 ∈ portRegisters ∧ 0x88 ∈ portRegisters ∧
    up.flash.archive.length + up.aon.logNew ≤ 1507328 := by decide +kernel

theorem witness_SpdmAnswers : ∀ v ∈ [0, 1, 2, 3], ∀ se ∈ [true, false], let s := { up with mgmt := { Mgmt.reset with
      spdm := List.replicate 5 { version := v, session := se } } }
    endpointUp 1 s = true ∧ firmwareUp s = true ∧ (spdmOf 1 s).version = v ∧ (spdmOf 1 s).session = se ∧ 1 < s.mgmt.spdm.length ∧ 1 - 1 < s.ports.length := by
  decide +kernel

/-- A session of the management port. -/
def session (d : Option Download) (done : Bool) : UpdSession :=
  { agent := 0, fw := true, bp := false, maxTransfer := 4096, lower := [], download := d, fwDone := done, bpDone := false, fwVerified := false,
    bpVerified := false }

/-- The machine in that session; its journal holds `j`. -/
def updating (u : Option UpdSession) (j : JEntry) : State :=
  { up with update := { session := u, rollbackWarned := false }, aon := { Aon.reset with jCur := some j } }

theorem witness_UpdateSessions :
    (updateAnswered 0 up = true ∧ up.update.session = none ∧ (selectHeader up.flash).1.trial = false ∧ holdsUpdate 0 up = true) ∧
    ((updating (some (session none false)) {}).update.session.isSome = true ∧ sessionOf 1 (updating (some (session none false)) {}) = none) ∧
    (∀ t ∈ [false, true], let s := updating (some (session (some { bp := false, stamp := 1, size := 4096, received := 8 }) false)) { fwTarget := t }
      updateAnswered 0 s = true ∧ s.aon.jCur = some { fwTarget := t } ∧ componentFloor 1 s = 0 ∧ 8 + 8 * 510 < 4096) ∧
    (let s := { updating (some (session none false)) {} with fuses := { Fuses.blank with fwFloor := { value := 3, check := 2 } :: List.replicate 31 {} } }
     2 < componentFloor 1 s) ∧
    (let x : UpdSession := { session none false with bp := true, lower := [1] }
     (session none false).has 2 = false ∧ (session none false).has 1 = true ∧ 1 ∉ (session none false).lower ∧ 1 ∈ x.lower ∧ x.has 2 = true ∧
     2 ∉ x.lower ∧ componentFloor 2 (updating (some x) {}) = 0) ∧
    (let s := updating (some (session (some { bp := false, stamp := 1, size := 4096, received := 4088 }) false)) {}
     (session (some { bp := false, stamp := 1, size := 4096, received := 4088 }) false).maxTransfer = 4096 ∧ 4088 + 8 * 1 = 4096 ∧ s.aon.jCur = some {}) ∧
    (verifyStage false (updating (some (session none true)) {}) = some 0xF) := by
  refine ⟨by decide +kernel, by decide +kernel, by decide +kernel, by decide +kernel, by decide +kernel, by decide +kernel, by decide +kernel⟩

/-- An image that the vendor's key signed, if there is one (the verifier is opaque, log 10), passes its verification. -/
theorem witness_ImageVerified (img : List W64) (h : firmwareOk img Fuses.blank.vendorKeys (floorOf Fuses.blank.fwFloor) = true) :
    let s := { updating (some (session none true)) { stage := 2, fwTarget := true, fwDigest := Config.sha384 img } with
      fuses := Fuses.blank, flash := { Flash.erased with fwB := img } }
    verifyStage false s = none ∧ stageOf s = 2 := by
  have e : targetWords false { updating (some (session none true)) { stage := 2, fwTarget := true, fwDigest := Config.sha384 img } with
      fuses := Fuses.blank, flash := { Flash.erased with fwB := img } } = img := rfl
  refine ⟨?_, rfl⟩
  unfold verifyStage
  rw [e]
  simp only [Bool.false_eq_true, if_false, h, Bool.not_true]
  exact if_pos (beq_self_eq_true _)

/-- The header of a trial of firmware. -/
def trialHeader : Header := { seq := 1, fwSlot := true, bpSlot := false, fwPrev := false, bpPrev := false, trial := true, fwTrial := true, bpTrial := false }

/-- The words of its copy but for CHECK. -/
def trialBody : List W64 := [pack [(0x48414D57, 32, 32), (1, 0, 32)], pack [(1, 63, 1), (1, 59, 1), (1, 58, 1)]] ++ zeros 13

theorem trial_words (x : W64) (c : Nat) (hc : checkOf trialBody = c) (h1 : fld x 31 0 = c) (h2 : fld x 63 32 = 0) :
    readHeader (trialBody ++ [x]) = some trialHeader := by
  have h3 : (trialBody ++ [x]).take 15 = trialBody := rfl
  have h4 : (trialBody ++ [x]).getD 15 (BitVec.allOnes 64) = x := rfl
  have h5 : ∀ i, i < 15 → (trialBody ++ [x]).getD i (BitVec.allOnes 64) = trialBody.getD i (BitVec.allOnes 64) := fun i hi => by
    have : trialBody.length = 15 := rfl
    simp [List.getD_eq_getElem?_getD, List.getElem?_append_left (show i < trialBody.length by omega)]
  have h6 : ((List.range 13).all fun i => (trialBody ++ [x]).getD (2 + i) (BitVec.allOnes 64) == 0) = true := by
    rw [List.all_eq_true]
    intro i hi
    rw [h5 _ (by have := List.mem_range.1 hi; omega)]
    revert i
    decide
  unfold readHeader
  rw [h3, hc]
  simp only [h4, h1, h2, h6, h5 0 (by omega), h5 1 (by omega), beq_self_eq_true, Bool.and_true]
  decide

theorem trial_header (c : Nat) (hc : checkOf trialBody = c) : readHeader (trialBody ++ [pack [(c, 0, 32)]]) = some trialHeader := by
  have hl : c < 2 ^ 32 := by
    rw [← hc]
    unfold checkOf
    exact BitVec.isLt _
  refine trial_words _ c hc (low_word c hl).1 ?_
  have e : (pack [(c, 0, 32)]).toNat = c := by
    simp only [pack, packN, Nat.shiftLeft_zero, Nat.or_zero, BitVec.toNat_ofNat]
    omega
  simp only [fld, bits, e, Nat.shiftRight_eq_div_pow]
  omega

/-- The machine in a trial that has booted `age` timekeeper ticks ago. -/
def onTrial (c age : Nat) : State :=
  { updating none { stage := 5, fw := true, trialBoots := 1 } with
    flash := { Flash.erased with hdr0 := trialBody ++ [pack [(c, 0, 32)]] },
    aon := { Aon.reset with jCur := some { stage := 5, fw := true, trialBoots := 1 }, timekeeper := BitVec.ofNat 64 age } }

theorem trial_selected (age : Nat) : ∃ c, (selectHeader (onTrial c age).flash).1 = trialHeader := by
  have h : readHeader [] = none := by
    have e : (fld (([] : List W64).getD 0 (BitVec.allOnes 64)) 63 32 == 0x48414D57) = false := by decide
    simp only [readHeader, e, Bool.false_and, Bool.false_eq_true, if_false]
  obtain ⟨c, hc⟩ : ∃ c, checkOf trialBody = c := ⟨_, rfl⟩
  have h0 : (onTrial c age).flash.hdr0 = trialBody ++ [pack [(c, 0, 32)]] := rfl
  have h1 : (onTrial c age).flash.hdr1 = [] := rfl
  exact ⟨c, by simp only [selectHeader, h0, h1, trial_header c hc, h]⟩

theorem witness_TrialsAndKeys :
    (let s := updating (some (session none true)) { stage := 3 }
     firmwareUp s = true ∧ stageOf s = 3 ∧ holdsUpdate 0 s = true) ∧
    (∀ st ∈ [7, 5], stageOf (updating none { stage := st }) = st ∧ (selectHeader (updating none { stage := st }).flash).1.trial = false) ∧
    (∀ age, ∃ c, (selectHeader (onTrial c age).flash).1.trial = true) ∧
    (let s := onTrial 0 5
     firmwareUp s = true ∧ s.boot.stage = 3 ∧ s.boot.fwFallback = false ∧ s.boot.bpState = 1 ∧ holdsUpdate 0 s = true ∧
     trialAge s < trialTicks - 60 * 32768) ∧ trialTicks ≤ trialAge (onTrial 0 trialTicks) ∧
    ((up.fuses.ownerKeys[3]?).map KeySlot.programmed = some false) ∧
    (let k : KeySlot := { programmed := true, hash := 0, revoked := false }
     (revokeAt [k, k, ⟨false, 0, false⟩, ⟨false, 0, false⟩] 0).any (fun k => k.programmed && !k.revoked) = true ∧
     (revokeAt [k, ⟨false, 0, false⟩, ⟨false, 0, false⟩, ⟨false, 0, false⟩] 0).any (fun k => k.programmed && !k.revoked) = false) ∧
    ((up.boot.shadow.map Blueprint.keySlot) = some 0) := by
  refine ⟨by decide +kernel, by decide +kernel, fun age => (trial_selected age).imp fun _ h => by rw [h]; rfl, by decide +kernel, by decide +kernel, by decide +kernel,
    by decide +kernel, by decide +kernel⟩

/-! ### The headline statements -/

theorem witness_StepRunsTheFrontCommand : ({ up with pending := [.orderPowerCap 0x01 0 true] } : State).pending = [.orderPowerCap 0x01 0 true] ∧ State.reset.pending = [] ∧
    State.reset.aon.timekeeper = BitVec.ofNat 64 0 ∧ State.reset.wake.pgood = false ∧ up.wake.pgood = true ∧ up.cwk.rate = 0 := by decide

theorem witness_MemoryKeepsItsForm : Memory.wf ({ up with mem := moveMem } : State).mem = true ∧ Memory.wf up.mem = true := by decide +kernel

theorem witness_Fuses : ∃ t, exec (.programKeySlot 0 3 9) up = .next t ∧ t.fuses.ownerKeys[3]? = some ⟨true, 9, false⟩ := ⟨_, rfl, by decide +kernel⟩

theorem witness_BlueprintFloor : fld ((imageOf [0, 0, 4]).getD 2 0) 31 0 < 5 ∧
    (raiseFloor 9 Fuses.blank.bpFloor).map floorOf = some 9 ∧ floorOf Fuses.blank.bpFloor = 0 := by decide +kernel

theorem witness_Draw : (3 : Nat) < 4 ∧ 4 * (2 ^ 30 - 1) + 3 < 2 ^ 32 := by decide

theorem witness_Optimiser : ∀ o ∈ [0, 1, 2], (segFields [pack [(o, 62, 2)]]).opt = o := by decide

theorem test_reset : Obligations.ResetState := by unfold Obligations.ResetState; decide +kernel

/-! ### Values of the spec's tables and worked examples -/

/-- R620: the CRC over the nine ASCII bytes "123456789". -/
theorem test_crc : crc32 [0x31, 0x32, 0x33, 0x34, 0x35, 0x36, 0x37, 0x38, 0x39] = 0xCBF43926 := by decide +kernel

/-- Table 7.12. -/
theorem test_dice : dice ⟨0, 0, 0, 0, 0, 0⟩ 0 = 0x686728F869BA3CAB ∧ dice ⟨1, 3, 0, 0, 5, 17⟩ 2 = 0x9191151D36774756 := by decide +kernel

/-- Table 7.13. -/
theorem test_draws : (List.range 4).map (fun j => draw ⟨1, 3, 0, 0, 5, 17⟩ (8 + j)) = [0x4756, 0x3677, 0x151D, 0x9191] := by decide +kernel

/-- R242: FP32 0x3F80_C000 to BF16 under RNE, RTZ, and SR with draws on either side of 49,152. -/
theorem test_bf16 : [(convert 1 0 0 false (ofF32 0x3F80C000)).code, (convert 1 1 0 false (ofF32 0x3F80C000)).code,
    (convert 1 2 49151 false (ofF32 0x3F80C000)).code, (convert 1 2 49152 false (ofF32 0x3F80C000)).code] = [0x3F81, 0x3F80, 0x3F81, 0x3F80] := by
  decide +kernel

/-- The worked example of R252: the words of three replicas, and their sum decoded (1.287506103515625 is 0x3FA4_CD00). -/
theorem test_dx32 : [0x3FC00000, 0xBEA00000, 0x3DCCCCCD].map (dxEncode 128) = [98304, -20480, 6554] ∧ dxDecode 128 84378 = 0x3FA4CD00 := by
  decide +kernel

/-- The blueprint of the worked examples: one partition that holds everything. -/
def pinwheel : State := { up with boot := { up.boot with shadow := some { bp with
  parts := [⟨0xFFFF, 0, 36, 0xF, 0x1FFFFFFFF, 0x1FFFFFFFF, 0xFFFFFFFFF⟩],
  masters := ([0x01, 0x40, 0x10, 0x11, 0x12, 0x13].zipIdx).map fun p => ⟨p.1, p.2, 0xF, true, true, true, true, true, true, true, true⟩ } } }

/-- R314, the worked example: elements 1,000,000 and 1,001,024 of the layer's master array, and the first moment of the former. -/
theorem test_channels : [68719476736 + 4000000, 68719476736 + 4000000 + 1191182336, 68719476736 + 4 * 1001024].map (channelOf 0 · pinwheel) =
    [32 * 2 + 30, 32 * 2 + 30, 32 * 3 + 14] := by decide +kernel

/-- Table 11.11. -/
theorem test_grants : grantsOf 15 1 10240 [600, 720, 640, 700, 680, 760, 650, 690, 710, 730, 660, 720, 640, 700, 720, 680] =
    ([(0, 600), (600, 720), (1320, 640), (1960, 700), (2660, 680), (3340, 760), (4100, 650), (4750, 690), (5440, 710), (6150, 730), (6880, 660),
      (7540, 720), (8260, 640), (8900, 700), (9600, 640), (10320, 0)], 11000) := by decide +kernel

/-- The route records and the tag of that example. -/
theorem test_records : routeRecord false false 4 5 9600 = 0x8201400000002580 ∧ routeRecord true false 4 5 0 = 0xC201400000000000 ∧
    slotTag 14 1 41 = 0x9C40000000000029 := by decide

/-- The second MAC word of the query projection. -/
theorem test_mac_word : let w : W128 := 0x1009C000010301400000000010000000#128
    macFields w = ⟨0, 1, 3, 5120, 0, 1, 0, false, false, 0, 0, false⟩ ∧ (iclass w, iop w, waitStr w, postStr w) = (1, 0, 1, 3) ∧
    bit w.toNat 110 = true := by decide

/-- The arbiter once five of the six orders of the example have entered. -/
def fiveOrders : Orders :=
  { resetPending := none,
    slots := [⟨0x01, 1, 0, 1, 1⟩, ⟨0x10, 0x10, 0, 3, 1⟩, ⟨0x11, 0x11, 0, 4, 1⟩, ⟨0x12, 0x12, 0, 2, 1⟩, { mid := 0x13 }, ⟨0x40, 7, 0, 1, 1⟩],
    slate := [⟨0x01, 0x0100000007D00001⟩, ⟨0x40, 0x01000000044C0007⟩, ⟨0x10, 0x0300070000000010⟩, ⟨0x11, 0x0400070000000011⟩,
              ⟨0x12, 0x0200000000000012⟩] }

/-- One slate of that module: the last of its six orders closes the control cycle. -/
theorem test_slate : (match exec (.orderClockResync 0x13 0x0200000000000013 true) { pinwheel with orders := fiveOrders } with
    | .next t => t.orders.slots.map (fun o => (o.mid, o.tag, o.applied, o.kind, o.status))
    | _ => []) = [(0x01, 1, 1200, 1, 3), (0x10, 0x10, 0, 3, 2), (0x11, 0x11, 0, 4, 3), (0x12, 0x12, 0, 2, 2), (0x13, 0x13, 0, 2, 3),
      (0x40, 7, 1200, 1, 2)] := by decide +kernel
end Sys2Proof.Tests
end

section
/-! SUPPORT. The laws of the fuses (R583): what each operation of the machine does to them. The operations of Machine/Ops have theirs in
Laws/State and Laws/Ops; here are those of the other parts of the machine in the model's order, each by the laws before it. -/
namespace Sys2Proof.Machine

/-! ### Folds and choices of states -/

/-- A fold of changes of the state that all leave the fuses leaves the fuses. -/
@[simp] theorem foldl_fuses {β : Type} (f : State → β → State) (hf : ∀ s b, (f s b).fuses = s.fuses) (l : List β) (s : State) :
    (l.foldl f s).fuses = s.fuses := foldl_view State.fuses f hf l s

/-- A fold that carries more than the state, when no change of its state touches the fuses. -/
@[simp] theorem foldl_fst_fuses {α β : Type} (f : State × α → β → State × α) (hf : ∀ q b, (f q b).1.fuses = q.1.fuses) (l : List β)
    (q : State × α) : (l.foldl f q).1.fuses = q.1.fuses := by
  induction l generalizing q with
  | nil => rfl
  | cons b r ih => rw [List.foldl_cons, ih, hf]

/-- The fuses of a choice of states. -/
@[simp] theorem ite_fuses (p : Prop) [Decidable p] (s t : State) : (if p then s else t).fuses = if p then s.fuses else t.fuses :=
  apply_ite State.fuses p s t

/-- Two states have the same fuses. Folds whose change stores to memory go by this form: the kernel compares its arguments as they stand, where it
would run the store to see the equation's two sides. -/
def SameFuses (s t : State) : Prop := t.fuses = s.fuses

theorem SameFuses.trans {s t u : State} (h : SameFuses s t) (h' : SameFuses t u) : SameFuses s u := Eq.trans h' h

theorem foldl_sameFuses {β : Type} (f : State → β → State) (hf : ∀ s b, SameFuses s (f s b)) (l : List β) (s : State) :
    SameFuses s (l.foldl f s) := foldl_view State.fuses f hf l s

theorem ite_sameFuses (p : Prop) [Decidable p] {s t u : State} (ht : SameFuses s t) (hu : SameFuses s u) :
    SameFuses s (if p then t else u) := by
  split
  · exact ht
  · exact hu

/-! ### Machine/Ops -/

@[simp] theorem freeWord_fuses (s : State) : (freeWord s).2.fuses = s.fuses := rfl

@[simp] theorem archiveLog_fuses (s : State) : (archiveLog s).fuses = s.fuses := by simp only [archiveLog]

@[simp] theorem reportFm_fuses (kind : Nat) (words : List W64) (s : State) : (reportFm kind words s).fuses = s.fuses := by
  simp only [reportFm, send_fuses]

@[simp] theorem volatileReset_fuses (s : State) : (volatileReset s).fuses = s.fuses := by simp only [volatileReset]

/-! ### Machine/Rings -/

@[simp] theorem eventHead_fuses (port value : Nat) (s : State) : (eventHead port value s).fuses = s.fuses := by
  unfold eventHead
  split <;> simp only [ite_fuses, hostAccessError_fuses, onPart_fuses, ite_self]

@[simp] theorem drainOne_fuses (n : Nat) (s : State) : (drainOne n s).fuses = s.fuses := by
  simp only [drainOne]
  split <;> simp only [writeRing_fuses, onPart_fuses]

@[simp] theorem drain_fuses (fuel n : Nat) (s : State) : (drain fuel n s).fuses = s.fuses := by
  induction fuel generalizing s with
  | zero => rfl
  | succ fuel ih =>
    simp only [drain]
    split <;> simp only [ih, drainOne_fuses]

/-! ### Machine/Queues -/

@[simp] theorem onQp_fuses (port q : Nat) (f : QueuePair → QueuePair) (s : State) : (onQp port q f s).fuses = s.fuses := by
  simp only [onQp, onPort_fuses]

@[simp] theorem overrun_fuses (port q value : Nat) (s : State) : (overrun port q value s).fuses = s.fuses := by
  simp only [overrun]
  split <;> simp only [raiseP_fuses, onQp_fuses]

@[simp] theorem sqTail_fuses (port q value : Nat) (s : State) : (sqTail port q value s).fuses = s.fuses := by
  unfold sqTail
  split <;> simp only [ite_fuses, overrun_fuses, onQp_fuses, ite_self]

@[simp] theorem cqHead_fuses (port q value : Nat) (s : State) : (cqHead port q value s).fuses = s.fuses := by
  unfold cqHead
  split <;> simp only [ite_fuses, overrun_fuses, onQp_fuses, ite_self]

theorem fetchTurn_fuses {port q : Nat} {s t : State} (h : fetchTurn port q s = some t) : t.fuses = s.fuses := by
  simp only [fetchTurn] at h
  (repeat' split at h) <;> cases h <;> simp only [onPort_fuses]

@[simp] theorem fetch_fuses (port q : Nat) (entry : List W64) (s : State) : (fetch port q entry s).fuses = s.fuses := by
  unfold fetch
  split
  · rfl
  · split
    · rfl
    · next h => simp only [fetchTurn_fuses h, onQp_fuses]

@[simp] theorem fetchFailed_fuses (port q : Nat) (s : State) : (fetchFailed port q s).fuses = s.fuses := by
  simp only [fetchFailed]
  (repeat' split) <;> simp only [raiseP_fuses, onQp_fuses]

@[simp] theorem onCommand_fuses (port q seq : Nat) (f : Command → Command) (s : State) : (onCommand port q seq f s).fuses = s.fuses := by
  simp only [onCommand, onQp_fuses]

@[simp] theorem endCommand_fuses (port q seq status : Nat) (result : W64) (spilled varied : Bool) (s : State) :
    (endCommand port q seq status result spilled varied s).fuses = s.fuses := by
  unfold endCommand
  split <;> simp only [ite_fuses, onQp_fuses, ite_self]

@[simp] theorem completionWrite_fuses (port q : Nat) (s : State) : (completionWrite port q s).fuses = s.fuses := by
  simp only [completionWrite]
  (repeat' split) <;> simp only [onQp_fuses, msix_fuses, send_fuses]

@[simp] theorem queueSaturation_fuses (port q : Nat) (s : State) : (queueSaturation port q s).fuses = s.fuses := by
  unfold queueSaturation
  split <;> simp only [ite_fuses, raiseP_fuses, onQp_fuses, ite_self]

@[simp] theorem nop_fuses (port q seq : Nat) (s : State) : (nop port q seq s).fuses = s.fuses := by
  unfold nop
  split <;> simp only [ite_fuses, endCommand_fuses, ite_self]

/-! ### Machine/Jobs -/

@[simp] theorem onTile_fuses (j : Job) (t : Nat) (f : JobTile → JobTile) (s : State) : (onTile j t f s).fuses = s.fuses := by
  simp only [onTile, onJob_fuses]

@[simp] theorem memoryError_fuses (a : Nat) (s : State) : (memoryError a s).fuses = s.fuses := by
  unfold memoryError
  split <;> simp only [raiseM_fuses]

@[simp] theorem discardWrite_fuses (a : Nat) (s : State) : (discardWrite a s).fuses = s.fuses := by
  simp only [discardWrite]
  split <;> simp only [memoryError_fuses, onPart_fuses]

@[simp] theorem keepDead_fuses (rs : List (Nat × Nat)) (old : Mem) (s : State) : (keepDead rs old s).fuses = s.fuses := by
  simp only [keepDead, ite_fuses, discardWrite_fuses, foldl_fuses, implies_true, ite_self]

@[simp] theorem liftPoison_fuses (rs : List (Nat × Nat)) (s : State) : (liftPoison rs s).fuses = s.fuses := by simp only [liftPoison]

@[simp] theorem store_fuses (a : Nat) (bs : List Byte) (s : State) : (store a bs s).fuses = s.fuses := by
  simp only [store, keepDead_fuses, liftPoison_fuses]

@[simp] theorem touchExt_fuses (j : Job) (a len : Nat) (s : State) : (touchExt j a len s).fuses = s.fuses := by
  unfold touchExt
  refine foldl_fuses _ (fun s b => ?_) _ _
  split <;> simp only [ite_fuses, onJob_fuses, ite_self]

@[simp] theorem countSpill_fuses (j : Job) (t : Nat) (wr : Bool) (rs : List (Nat × Nat)) (s : State) :
    (countSpill j t wr rs s).fuses = s.fuses := by
  unfold countSpill
  split <;> simp only [onJob_fuses]

@[simp] theorem prepareWrites_fuses (j : Job) (t : Nat) (rs : List (Nat × Nat)) (s : State) : (prepareWrites j t rs s).fuses = s.fuses := by
  simp only [prepareWrites, countSpill_fuses, touchExt_fuses, foldl_fuses, implies_true]

@[simp] theorem sendSpill_fuses (n : Nat) (rs : List (Nat × Nat)) (s : State) : (sendSpill n rs s).fuses = s.fuses := by
  unfold sendSpill
  split <;> simp only [sendAll_fuses]

@[simp] theorem finishWrites_fuses (n : Nat) (rs : List (Nat × Nat)) (old : Mem) (s : State) :
    (finishWrites n rs old s).fuses = s.fuses := by
  simp only [finishWrites, sendSpill_fuses, keepDead_fuses, liftPoison_fuses]

@[simp] theorem engineStore_fuses (j : Job) (t a : Nat) (bs : List Byte) (s : State) : (engineStore j t a bs s).fuses = s.fuses := by
  simp only [engineStore, finishWrites_fuses, prepareWrites_fuses]

theorem engineStore_sameFuses (j : Job) (t a : Nat) (bs : List Byte) (s : State) : SameFuses s (engineStore j t a bs s) :=
  engineStore_fuses j t a bs s

@[simp] theorem jobStore_fuses (j : Job) (a : Nat) (bs : List Byte) (s : State) : (jobStore j a bs s).fuses = s.fuses := by
  simp only [jobStore, engineStore_fuses]

theorem jobStore_sameFuses (j : Job) (a : Nat) (bs : List Byte) (s : State) : SameFuses s (jobStore j a bs s) := jobStore_fuses j a bs s

@[simp] theorem raiseJ_fuses (j : Job) (code unit : Nat) (w3 : W64) (s : State) : (raiseJ j code unit w3 s).fuses = s.fuses := by
  simp only [raiseJ, raiseP_fuses]

/-! ### Machine/Datapaths -/

@[simp] theorem setArrays_fuses (core n : Nat) (f : Nat → Nat) (s : State) : (setArrays core n f s).fuses = s.fuses := by
  simp only [setArrays]

@[simp] theorem startArrays_fuses (core n : Nat) (s : State) : (startArrays core n s).fuses = s.fuses := by
  simp only [startArrays, setArrays_fuses]

@[simp] theorem idleArrays_fuses (core n : Nat) (gap : Bool) (s : State) : (idleArrays core n gap s).fuses = s.fuses := by
  simp only [idleArrays, setArrays_fuses]

@[simp] theorem stopArrays_fuses (f : Nat → Bool) (s : State) : (stopArrays f s).fuses = s.fuses := by simp only [stopArrays]

@[simp] theorem stopSpinners_fuses (s : State) : (stopSpinners s).fuses = s.fuses := by simp only [stopSpinners]

@[simp] theorem stopSpinning_fuses (t : Nat) (s : State) : (stopSpinning t s).fuses = s.fuses := by
  unfold stopSpinning
  split <;> simp only [ite_fuses, setArrays_fuses, ite_self]

@[simp] theorem enterAdds_fuses (ws : List AddWrite) (s : State) : (enterAdds ws s).2.fuses = s.fuses := by
  induction ws generalizing s with
  | nil => rfl
  | cons w r ih =>
    simp only [enterAdds]
    split <;> simp only [ih]

@[simp] theorem feedTile_fuses (part num t : Nat) (s : State) : (feedTile part num t s).fuses = s.fuses := by
  simp only [feedTile]
  (repeat' split) <;> simp only [onJob_fuses, enterAdds_fuses]

@[simp] theorem feedAdds_fuses (s : State) : (feedAdds s).fuses = s.fuses := by
  simp only [feedAdds, ite_fuses, feedTile_fuses, foldl_fuses, ite_self, implies_true]

/-! ### Machine/Issue -/

@[simp] theorem onChannel_fuses (j : Job) (f : Channel → Bool) (g : Channel → Channel) (s : State) :
    (onChannel j f g s).fuses = s.fuses := by
  simp only [onChannel, onJob_fuses]

/-! ### Machine/Epilogue -/

theorem epilogueOf_fuses {j : Job} {x : JobTile} {w : W128} {xv : Nat} {a : AccSet} {e : Epi} {s t : State}
    (h : epilogueOf j x w xv a e s = .ok t) : t.fuses = s.fuses := by
  simp only [epilogueOf] at h
  (repeat' split at h) <;> cases h <;> simp only [feedTile_fuses, onTile_fuses, countSpill_fuses, prepareWrites_fuses, finishWrites_fuses]

/-! ### Machine/Fabric -/

@[simp] theorem onLink_fuses (k : Nat) (f : Link → Link) (s : State) : (onLink k f s).fuses = s.fuses := by simp only [onLink, onFab_fuses]

@[simp] theorem sendIdle_fuses (k : Nat) (s : State) : (sendIdle k s).fuses = s.fuses := by simp only [sendIdle, send_fuses]

@[simp] theorem sendFlit_fuses (k : Nat) (f : TxFlit) (s : State) : (sendFlit k f s).fuses = s.fuses := by simp only [sendFlit, send_fuses]

@[simp] theorem drainLink_fuses (k n : Nat) (s : State) : (drainLink k n s).fuses = s.fuses := by
  induction n generalizing s with
  | zero => rfl
  | succ n ih =>
    simp only [drainLink]
    split <;> simp only [ih, sendFlit_fuses, foldl_fuses, onLink_fuses, implies_true]

@[simp] theorem drainAll_fuses (k : Nat) (s : State) : (drainAll k s).fuses = s.fuses := by simp only [drainAll, drainLink_fuses]

@[simp] theorem putPacket_fuses (k : Nat) (p : Packet) (s : State) : (putPacket k p s).fuses = s.fuses := by
  simp only [putPacket, drainAll_fuses, onLink_fuses]

@[simp] theorem crossbar_fuses (k : Nat) (p : Packet) (s : State) : (crossbar k p s).fuses = s.fuses := by
  simp only [crossbar]
  (repeat' split) <;> simp only [putPacket_fuses, onFab_fuses, onLink_fuses]

theorem routePacket_fuses {n d i : Nat} {p : Packet} {s t : State} (h : routePacket n d i p s = some t) : t.fuses = s.fuses := by
  simp only [routePacket, Option.map_eq_some_iff] at h
  obtain ⟨r, -, rfl⟩ := h
  simp only [crossbar_fuses]

@[simp] theorem noteStream_fuses (p : Packet) (s : State) : (noteStream p s).fuses = s.fuses := by
  simp only [noteStream, ite_fuses, onFab_fuses, ite_self]

@[simp] theorem noteForward_fuses (k : Nat) (p : Packet) (s : State) : (noteForward k p s).fuses = s.fuses := by
  simp only [noteForward, ite_fuses, onFab_fuses, noteStream_fuses, ite_self]

@[simp] theorem noRoute_fuses (n d : Nat) (s : State) : (noRoute n d s).fuses = s.fuses := by simp only [noRoute, raiseP_fuses]

@[simp] theorem dropPacket_fuses (k : Nat) (p : Packet) (s : State) : (dropPacket k p s).fuses = s.fuses := by
  simp only [dropPacket]
  split <;> simp only [noRoute_fuses, onLink_fuses]

@[simp] theorem resend_fuses (k : Nat) (s : State) (p : Packet) : (resend k s p).fuses = s.fuses := by
  simp only [resend]
  split
  · split
    · next h => simp only [routePacket_fuses h, noteStream_fuses]
    · simp only [ite_fuses, onLink_fuses, dropPacket_fuses, ite_self]
  · (repeat' split) <;> simp only [crossbar_fuses, noteForward_fuses, dropPacket_fuses, putPacket_fuses]

@[simp] theorem sendMessage_fuses (n d vl op i : Nat) (words : List W64) (data : List Byte) (s : State) :
    (sendMessage n d vl op i words data s).fuses = s.fuses := by
  unfold sendMessage
  split <;> simp only [noRoute_fuses, putPacket_fuses, foldl_fuses, onFab_fuses, implies_true]

@[simp] theorem sendAgent_fuses (n d subtype : Nat) (words : List W64) (s : State) : (sendAgent n d subtype words s).fuses = s.fuses := by
  simp only [sendAgent]
  cases h : routePacket n d 0 _ s with
  | none => exact noRoute_fuses _ _ _
  | some t => exact routePacket_fuses h

@[simp] theorem sendAgentOn_fuses (k subtype : Nat) (words : List W64) (s : State) : (sendAgentOn k subtype words s).fuses = s.fuses := by
  simp only [sendAgentOn, putPacket_fuses]

@[simp] theorem sendSeg_fuses (f : TxFlow) (g : Seg) (retx : Bool) (s : State) : (sendSeg f g retx s).fuses = s.fuses := by
  unfold sendSeg
  split <;> simp only [send_fuses, ite_fuses, onLink_fuses, ite_self]

@[simp] theorem onTx_fuses (part seat cls flow : Nat) (h : TxFlow → TxFlow) (s : State) :
    (onTx part seat cls flow h s).fuses = s.fuses := by
  simp only [onTx, onFab_fuses]

@[simp] theorem pumpFlow_fuses (part seat cls flow n : Nat) (s : State) : (pumpFlow part seat cls flow n s).fuses = s.fuses := by
  induction n generalizing s with
  | zero => rfl
  | succ n ih =>
    simp only [pumpFlow]
    (repeat' split) <;> simp only [ih, onTx_fuses, sendSeg_fuses]

@[simp] theorem dmtSend_fuses (part seat cls flow base : Nat) (h0 : W64) (data : List Byte) (s : State) :
    (dmtSend part seat cls flow base h0 data s).fuses = s.fuses := by
  simp only [dmtSend, pumpFlow_fuses, onTx_fuses, ite_fuses, onFab_fuses, ite_self]

@[simp] theorem pumpAll_fuses (s : State) : (pumpAll s).fuses = s.fuses := by simp only [pumpAll, pumpFlow_fuses, foldl_fuses, implies_true]

@[simp] theorem sendToSeat_fuses (part seat chunk : Nat) (words : List W64) (data : List Byte) (s : State) :
    (sendToSeat part seat chunk words data s).fuses = s.fuses := by
  simp only [sendToSeat, ite_fuses, sendMessage_fuses, dmtSend_fuses, ite_self]

@[simp] theorem sendChunk_fuses (s : State) (c : Chunk) : (sendChunk s c).fuses = s.fuses := by
  simp only [sendChunk, ite_fuses, onFab_fuses, sendToSeat_fuses, ite_self]

@[simp] theorem pumpChunks_fuses (s : State) : (pumpChunks s).fuses = s.fuses := by
  simp only [pumpChunks, sendChunk_fuses, foldl_fuses, onFab_fuses, implies_true]

@[simp] theorem dropChunks_fuses (part job : Nat) (s : State) : (dropChunks part job s).fuses = s.fuses := by
  simp only [dropChunks, onFab_fuses]

@[simp] theorem rebindFlows_fuses (old s : State) : (rebindFlows old s).fuses = s.fuses := by
  refine foldl_fuses _ (fun s f => ?_) _ _
  simp only [pumpFlow_fuses]
  split <;> simp only [sendSeg_fuses, foldl_fuses, implies_true]

@[simp] theorem restartFlows_fuses (n : Nat) (s : State) : (restartFlows n s).fuses = s.fuses := by
  simp only [restartFlows, pumpChunks_fuses, onFab_fuses]

@[simp] theorem startTraining_fuses (k : Nat) (s : State) : (startTraining k s).fuses = s.fuses := by
  simp only [startTraining, onLink_fuses]

@[simp] theorem trainAll_fuses (s : State) : (trainAll s).fuses = s.fuses := by
  simp only [trainAll, ite_fuses, startTraining_fuses, foldl_fuses, ite_self, implies_true]

@[simp] theorem attemptFails_fuses (k : Nat) (s : State) : (attemptFails k s).fuses = s.fuses := by
  simp only [attemptFails, ite_fuses, onLink_fuses, raiseM_fuses, ite_self]

@[simp] theorem sendIdentity_fuses (k : Nat) (s : State) : (sendIdentity k s).fuses = s.fuses := by simp only [sendIdentity, send_fuses]

@[simp] theorem nextStage_fuses (k : Nat) (s : State) : (nextStage k s).fuses = s.fuses := by
  simp only [nextStage, ite_fuses, sendIdentity_fuses, onLink_fuses, ite_self]

@[simp] theorem flipTables_fuses (out add : List Nat) (s : State) : (flipTables out add s).fuses = s.fuses := by
  simp only [flipTables, onFab_fuses]

@[simp] theorem afterDown_fuses (k : Nat) (s : State) : (afterDown k s).fuses = s.fuses := by
  simp only [afterDown, ite_fuses, onLink_fuses, pumpChunks_fuses, resend_fuses, foldl_fuses, startTraining_fuses, implies_true, ite_self]

@[simp] theorem abandonRetry_fuses (k : Nat) (s : State) : (abandonRetry k s).fuses = s.fuses := by
  simp only [abandonRetry, afterDown_fuses, onLink_fuses]

@[simp] theorem failLink_fuses (k cause : Nat) (s : State) : (failLink k cause s).fuses = s.fuses := by
  simp only [failLink]
  (repeat' split) <;> simp only [abandonRetry_fuses, raiseM_fuses, flipTables_fuses, onLink_fuses, sendAgent_fuses, sendAgentOn_fuses]

@[simp] theorem leaveFlows_fuses (k cause : Nat) (s : State) : (leaveFlows k cause s).fuses = s.fuses := by
  simp only [leaveFlows, raiseM_fuses, onLink_fuses]

@[simp] theorem orderLink_fuses (k : Nat) (enable : Bool) (s : State) : (orderLink k enable s).fuses = s.fuses := by
  simp only [orderLink, ite_fuses, startTraining_fuses, rebindFlows_fuses, onLink_fuses, leaveFlows_fuses, failLink_fuses, ite_self]

@[simp] theorem linksClockLost_fuses (s : State) : (linksClockLost s).fuses = s.fuses := by simp only [linksClockLost, onFab_fuses]

@[simp] theorem linksClockBack_fuses (s : State) : (linksClockBack s).fuses = s.fuses := by
  simp only [linksClockBack, ite_fuses, startTraining_fuses, foldl_fuses, ite_self, implies_true]

@[simp] theorem abandonRequests_fuses (n : Nat) (s : State) : (abandonRequests n s).fuses = s.fuses := by
  simp only [abandonRequests, onFab_fuses]

/-! ### Machine/Pools -/

@[simp] theorem evalPool_fuses (k : Nat) (s : State) : (evalPool k s).fuses = s.fuses := by
  unfold evalPool
  split <;> simp only [ite_fuses, raiseP_fuses, onPool_fuses, ite_self]

@[simp] theorem returnVl3_fuses (k n : Nat) (s : State) : (returnVl3 k n s).fuses = s.fuses := by
  induction n generalizing s with
  | zero => rfl
  | succ n ih =>
    simp only [returnVl3]
    (repeat' split) <;> simp only [ih, onLink_fuses]

@[simp] theorem settleVl3_fuses (req : Nat) (used : Bool) (s : State) : (settleVl3 req used s).fuses = s.fuses := by
  unfold settleVl3
  split <;> simp only [returnVl3_fuses, ite_fuses, onLink_fuses, ite_self]

@[simp] theorem serveRequest_fuses (k : Nat) (r : PoolReq) (s : State) : (serveRequest k r s).fuses = s.fuses := by
  simp only [serveRequest]
  (repeat' split) <;> simp only [evalPool_fuses, onPool_fuses, settleVl3_fuses]

@[simp] theorem request_fuses (k : Nat) (r : PoolReq) (s : State) : (request k r s).fuses = s.fuses := by
  unfold request
  split <;> simp only [ite_fuses, serveRequest_fuses, onPool_fuses, ite_self]

@[simp] theorem creditedAlloc_fuses (k req owner : Nat) (s : State) : (creditedAlloc k req owner s).fuses = s.fuses := by
  simp only [creditedAlloc]
  (repeat' split) <;> simp only [settleVl3_fuses, evalPool_fuses, onPool_fuses]

@[simp] theorem refuseFree_fuses (k unit buf : Nat) (c : PoolCfg) (s : State) : (refuseFree k unit buf c s).fuses = s.fuses := by
  simp only [refuseFree, raiseP_fuses, onPool_fuses, freeWord_fuses]

@[simp] theorem dropBuffers_fuses (k : Nat) (gone : Buffer → Bool) (leak : Bool) (s : State) :
    (dropBuffers k gone leak s).fuses = s.fuses := by
  simp only [dropBuffers, evalPool_fuses, onPool_fuses]

@[simp] theorem freeBuffer_fuses (k unit buf : Nat) (s : State) : (freeBuffer k unit buf s).fuses = s.fuses := by
  simp only [freeBuffer]
  (repeat' split) <;> simp only [dropBuffers_fuses, refuseFree_fuses]

@[simp] theorem handOff_fuses (k unit buf owner : Nat) (s : State) : (handOff k unit buf owner s).fuses = s.fuses := by
  simp only [handOff]
  (repeat' split) <;> simp only [onPool_fuses, refuseFree_fuses]

@[simp] theorem serveWaiting_fuses (k : Nat) (s : State) : (serveWaiting k s).fuses = s.fuses := by
  simp only [serveWaiting]
  (repeat' split) <;> simp only [serveRequest_fuses, onPool_fuses]

@[simp] theorem poolSaturation_fuses (k : Nat) (s : State) : (poolSaturation k s).fuses = s.fuses := by
  unfold poolSaturation
  split <;> simp only [ite_fuses, raiseP_fuses, onPool_fuses, ite_self]

@[simp] theorem sweepPool_fuses (s : State) (c : PoolCfg) : (sweepPool s c).fuses = s.fuses := by
  simp only [sweepPool, ite_fuses, raiseP_fuses, foldl_fuses, ite_self, implies_true]

@[simp] theorem reclaim_fuses (part : Nat) (tiles : List Nat) (s : State) : (reclaim part tiles s).fuses = s.fuses := by
  simp only [reclaim, ite_fuses, raiseP_fuses, foldl_fuses, dropBuffers_fuses, implies_true, ite_self]

@[simp] theorem freeSlot_fuses (part slot : Nat) (s : State) : (freeSlot part slot s).fuses = s.fuses := by
  simp only [freeSlot, ite_fuses, dropBuffers_fuses, foldl_fuses, ite_self, implies_true]

@[simp] theorem emptyPools_fuses (part : Nat) (s : State) : (emptyPools part s).fuses = s.fuses := by
  simp only [emptyPools]
  rw [foldl_fuses, foldl_fuses]
  · exact fun s c => onPool_fuses s _ _
  · intro s k
    simp only [ite_fuses, onLink_fuses, ite_self]

@[simp] theorem hostMetaWrite_fuses (n a : Nat) (bs : List Byte) (s : State) : (hostMetaWrite n a bs s).fuses = s.fuses := by
  unfold hostMetaWrite
  refine foldl_fuses _ (fun s b => ?_) _ _
  split <;> simp only [evalPool_fuses, onPool_fuses]

/-! ### Machine/RouteViews -/

@[simp] theorem writeRouteRecords_fuses (j : Job) (s : State) : (writeRouteRecords j s).fuses = s.fuses := by
  simp only [writeRouteRecords]
  refine (foldl_sameFuses _ (fun s q => ?_) _ _).trans (foldl_sameFuses _ (fun s i => ?_) _ _)
  · exact jobStore_sameFuses _ _ _ _
  · split
    · exact jobStore_sameFuses _ _ _ _
    · exact jobStore_sameFuses _ _ _ _
    · rfl

/-! ### Machine/Segments -/

@[simp] theorem writeField_fuses (part : Nat) (g : SegFields) (i e v u : Nat) (s : State) :
    (writeField part g i e v u s).fuses = s.fuses := by
  simp only [writeField]

@[simp] theorem writeParts_fuses (j : Job) (g : SegFields) (slot : Bool) (n : W64) (mask e : Nat) (x : Element) (s : State) :
    (writeParts j g slot n mask e x s).fuses = s.fuses := by
  simp only [writeParts, ite_fuses, writeField_fuses, ite_self]

@[simp] theorem emitCopy_fuses (j : Job) (g : SegFields) (slot : Bool) (n : W64) (s : State) : (emitCopy j g slot n s).fuses = s.fuses := by
  simp only [emitCopy, liftPoison_fuses, foldl_fuses, implies_true]

@[simp] theorem clearAcc_fuses (g : SegFields) (s : State) : (clearAcc g s).fuses = s.fuses := by simp only [clearAcc, liftPoison_fuses]

@[simp] theorem onSeg_fuses (j : Job) (i : Nat) (f : Segment → Segment) (s : State) : (onSeg j i f s).fuses = s.fuses := by
  simp only [onSeg, onJob_fuses]

@[simp] theorem mixUpdate_fuses (j : Job) (sg : Segment) (s : State) : (mixUpdate j sg s).fuses = s.fuses := by
  simp only [mixUpdate, writeParts_fuses, ite_fuses, foldl_fuses, freeWord_fuses, ite_self, implies_true]

@[simp] theorem stopLanes_fuses (j : Job) (s : State) : (stopLanes j s).fuses = s.fuses := by
  simp only [stopLanes, onSeg_fuses, mixUpdate_fuses, foldl_fuses, implies_true]

/-! ### Machine/RunControl -/

@[simp] theorem storeWords_fuses (a : Nat) (ws : List W64) (s : State) : (storeWords a ws s).fuses = s.fuses := by
  simp only [storeWords, store_fuses]

@[simp] theorem keepLastIndex_fuses (j : Job) (s : State) : (keepLastIndex j s).fuses = s.fuses := by simp only [keepLastIndex]

@[simp] theorem writeStats_fuses (j : Job) (left : Nat) (s : State) : (writeStats j left s).fuses = s.fuses := by
  simp only [writeStats, storeWords_fuses, foldl_fuses, writeRouteRecords_fuses, implies_true]

@[simp] theorem publishDigests_fuses (j : Job) (s : State) : (publishDigests j s).fuses = s.fuses := by
  simp only [publishDigests, onPart_fuses]

@[simp] theorem failPartition_fuses (n unit : Nat) (s : State) : (failPartition n unit s).fuses = s.fuses := by
  simp only [failPartition, raiseM_fuses, onPart_fuses]

@[simp] theorem failLost_fuses (n : Nat) (s : State) : (failLost n s).fuses = s.fuses := by
  simp only [failLost]
  (repeat' split) <;> simp only [failPartition_fuses]

@[simp] theorem completeRun_fuses (j : Job) (status : Nat) (s : State) : (completeRun j status s).fuses = s.fuses := by
  unfold completeRun
  split <;> simp only [failLost_fuses, onFab_fuses, onJob_fuses, endCommand_fuses]

@[simp] theorem endArrays_fuses (e : Entry) (gap : Bool) (s : State) : (endArrays e gap s).fuses = s.fuses := by
  simp only [endArrays, idleArrays_fuses]

@[simp] theorem finishMac_fuses (part num t : Nat) (gap : Bool) (s : State) : (finishMac part num t gap s).fuses = s.fuses := by
  simp only [finishMac]
  split
  · rfl
  · split
    · rfl
    · split
      · rfl
      · split <;> simp only [ite_fuses, endArrays_fuses, ite_self] <;> split
        · split
          · rfl
          · split
            · next h => exact epilogueOf_fuses h
            · rfl
        · rfl
        · split
          · rfl
          · split
            · next h => exact epilogueOf_fuses h
            · rfl
        · rfl

@[simp] theorem chargeOpenStall_fuses (j : Job) (s : State) (x : JobTile) : (chargeOpenStall j s x).fuses = s.fuses := by
  simp only [chargeOpenStall, ite_fuses, onTile_fuses, freeWord_fuses, ite_self]

@[simp] theorem finishUnits_fuses (j : Job) (status : Nat) (s : State) : (finishUnits j status s).fuses = s.fuses := by
  simp only [finishUnits, finishMac_fuses, foldl_fuses, chargeOpenStall_fuses, implies_true]

@[simp] theorem stopRun_fuses (j : Job) (status : Nat) (s : State) : (stopRun j status s).fuses = s.fuses := by
  simp only [stopRun]
  (repeat' split) <;> simp only [completeRun_fuses, onJob_fuses, dropChunks_fuses, stopLanes_fuses, finishUnits_fuses, writeStats_fuses,
    publishDigests_fuses, reclaim_fuses]

@[simp] theorem stopAt_fuses (j : Job) (t : Nat) (st : Stop) (s : State) : (stopAt j t st s).fuses = s.fuses := by
  simp only [stopAt, stopRun_fuses, ite_fuses, raiseJ_fuses, memoryError_fuses, ite_self]

@[simp] theorem unloadJob_fuses (j : Job) (s : State) : (unloadJob j s).fuses = s.fuses := by
  simp only [unloadJob, keepLastIndex_fuses, freeSlot_fuses]

@[simp] theorem abortStarts_fuses (j : Job) (s : State) : (abortStarts j s).fuses = s.fuses := by
  simp only [abortStarts, endCommand_fuses, foldl_fuses, stopRun_fuses, implies_true]

@[simp] theorem dropJobs_fuses (f : Job → Bool) (s : State) : (dropJobs f s).fuses = s.fuses := by
  refine foldl_fuses _ (fun s j => ?_) _ _
  dsimp only
  split <;> simp only [unloadJob_fuses, abortStarts_fuses]

@[simp] theorem endJobsClockLost_fuses (s : State) : (endJobsClockLost s).fuses = s.fuses := by
  simp only [endJobsClockLost, stopRun_fuses, foldl_fuses, implies_true]

@[simp] theorem chargeClockChange_fuses (cycles : Nat) (s : State) : (chargeClockChange cycles s).fuses = s.fuses := by
  simp only [chargeClockChange]

@[simp] theorem dropJobsOfQp_fuses (port q : Nat) (s : State) : (dropJobsOfQp port q s).fuses = s.fuses := by
  simp only [dropJobsOfQp, onQp_fuses, dropJobs_fuses]

@[simp] theorem dropJobsOfPort_fuses (port : Nat) (s : State) : (dropJobsOfPort port s).fuses = s.fuses := by
  simp only [dropJobsOfPort, dropJobs_fuses]

@[simp] theorem stopPartition_fuses (n : Nat) (s : State) : (stopPartition n s).fuses = s.fuses := by
  simp only [stopPartition, stopRun_fuses, foldl_fuses, implies_true]

@[simp] theorem zeroStores_fuses (n : Nat) (s : State) : (zeroStores n s).fuses = s.fuses := by
  unfold zeroStores
  split <;> rfl

@[simp] theorem clearPartition_fuses (n : Nat) (scrub : Bool) (s : State) : (clearPartition n scrub s).fuses = s.fuses := by
  simp only [clearPartition, stopArrays_fuses, keepLastIndex_fuses, foldl_fuses, emptyPools_fuses, zeroStores_fuses, ite_fuses,
    implies_true, ite_self]

/-! ### Machine/Clocks -/

@[simp] theorem judgeClkmon_fuses (s : State) : (judgeClkmon s).fuses = s.fuses := by simp only [judgeClkmon]

@[simp] theorem changeDivider_fuses (op pause : Nat) (s : State) : (changeDivider op pause s).fuses = s.fuses := by
  simp only [changeDivider, judgeClkmon_fuses, stopSpinners_fuses, chargeClockChange_fuses]

@[simp] theorem opChanged_fuses (s : State) : (opChanged s).fuses = s.fuses := by
  unfold opChanged
  split <;> simp only [raiseM_fuses]

@[simp] theorem startOpStep_fuses (pause : Nat) (s : State) : (startOpStep pause s).fuses = s.fuses := by
  unfold startOpStep
  split <;> simp only [changeDivider_fuses, ite_fuses, ite_self]

@[simp] theorem opTarget_fuses (index pause : Nat) (s : State) : (opTarget index pause s).fuses = s.fuses := by
  simp only [opTarget, ite_fuses, startOpStep_fuses, ite_self]

@[simp] theorem opReached_fuses (pause : Nat) (s : State) : (opReached pause s).fuses = s.fuses := by
  unfold opReached
  split <;> simp only [startOpStep_fuses, opChanged_fuses]

@[simp] theorem opSettled_fuses (pause : Nat) (s : State) : (opSettled pause s).fuses = s.fuses := by
  unfold opSettled
  split <;> simp only [changeDivider_fuses, startOpStep_fuses, opChanged_fuses]

@[simp] theorem opTimeout_fuses (s : State) : (opTimeout s).fuses = s.fuses := by
  unfold opTimeout
  split <;> simp only [raiseM_fuses]

@[simp] theorem toCoasting_fuses (s : State) : (toCoasting s).fuses = s.fuses := by
  simp only [toCoasting, ite_fuses, raiseM_fuses, ite_self]

@[simp] theorem clockLossEntry_fuses (s : State) : (clockLossEntry s).fuses = s.fuses := by
  simp only [clockLossEntry, ite_fuses, raiseM_fuses, toCoasting_fuses, linksClockLost_fuses, stopArrays_fuses, endJobsClockLost_fuses,
    ite_self]

@[simp] theorem startSwitch_fuses (dest : RefState) (fromLoss : Bool) (s : State) : (startSwitch dest fromLoss s).fuses = s.fuses := by
  simp only [startSwitch]

@[simp] theorem refAct_fuses (s : State) : (refAct s).fuses = s.fuses := by
  simp only [refAct, refAct.lossThen]
  (repeat' split) <;> simp only [startSwitch_fuses, clockLossEntry_fuses]

@[simp] theorem refDisqualified_fuses (r : RefId) (s : State) : (refDisqualified r s).fuses = s.fuses := by
  simp only [refDisqualified, refAct_fuses]

@[simp] theorem refLos_fuses (r : RefId) (s : State) : (refLos r s).fuses = s.fuses := by simp only [refLos, refDisqualified_fuses]

@[simp] theorem refWindow_fuses (inRangeA inRangeB : Bool) (s : State) : (refWindow inRangeA inRangeB s).fuses = s.fuses := by
  simp only [refWindow, ite_fuses, refAct_fuses, ite_self]

@[simp] theorem refaDwell_fuses (s : State) : (refaDwell s).fuses = s.fuses := by
  simp only [refaDwell, ite_fuses, startSwitch_fuses, ite_self]

@[simp] theorem tellReset_fuses (n : Nat) (s : State) : (tellReset n s).fuses = s.fuses := by
  unfold tellReset
  split <;> simp only [ite_fuses, reportFm_fuses, abandonRequests_fuses, onPart_fuses, ite_self]

@[simp] theorem clockLossExit_fuses (ref : Nat) (s : State) : (clockLossExit ref s).fuses = s.fuses := by
  simp only [clockLossExit, startOpStep_fuses, raiseM_fuses, ite_fuses, linksClockBack_fuses, tellReset_fuses, foldl_fuses, implies_true,
    ite_self]

@[simp] theorem switchEnd_fuses (s : State) : (switchEnd s).fuses = s.fuses := by
  unfold switchEnd
  split <;> simp only [raiseM_fuses, refAct_fuses, ite_fuses, clockLossExit_fuses, clockLossEntry_fuses, ite_self]

@[simp] theorem slew_fuses (limit : Nat) (offset : Int) (s : State) : (slew limit offset s).fuses = s.fuses := by
  simp only [slew, freeWord_fuses]

@[simp] theorem steer_fuses (offset : Int) (s : State) : (steer offset s).fuses = s.fuses := by
  simp only [steer]
  split <;> simp only [slew_fuses, ite_fuses, ite_self]

@[simp] theorem exchange_fuses (x : Exchange) (bound : Int) (batch refSeat : Nat) (s : State) :
    (exchange x bound batch refSeat s).fuses = s.fuses := by
  simp only [exchange]
  split <;> simp only [ite_fuses, steer_fuses, ite_self]

@[simp] theorem syncLoss_fuses (s : State) : (syncLoss s).fuses = s.fuses := by simp only [syncLoss, ite_fuses, toCoasting_fuses, ite_self]

@[simp] theorem coastingLimit_fuses (s : State) : (coastingLimit s).fuses = s.fuses := by
  simp only [coastingLimit, ite_fuses, raiseM_fuses, ite_self]

@[simp] theorem syncinEdge_fuses (at8 : W64) (s : State) : (syncinEdge at8 s).fuses = s.fuses := by
  simp only [syncinEdge, exchange_fuses, ite_fuses, ite_self]

@[simp] theorem syncinAbsent_fuses (s : State) : (syncinAbsent s).fuses = s.fuses := by
  simp only [syncinAbsent, ite_fuses, toCoasting_fuses, ite_self]

@[simp] theorem resync_fuses (s : State) : (resync s).fuses = s.fuses := by simp only [resync, ite_fuses, ite_self]

/-! ### Machine/Sequencer -/

@[simp] theorem issueTo_fuses (u : UnitId) (left : Nat) (waits : List (Nat × Nat)) (j : Job) (x : JobTile) (w : W128) (s : State)
    (cross : List Nat) :
    (issueTo u left waits j x w s cross).fuses = s.fuses := by
  simp only [issueTo, onTile_fuses]

@[simp] theorem issueHere_fuses (waits : List (Nat × Nat)) (j : Job) (x : JobTile) (w : W128) (s : State) :
    (issueHere waits j x w s).fuses = s.fuses := by
  simp only [issueHere, onTile_fuses]

@[simp] theorem whenIssued_fuses (t : Nat) (c : Ctx) (cls op : Nat) (s : State) (f : Job → JobTile → W128 → State)
    (hf : ∀ j x w, (f j x w).fuses = s.fuses) : (whenIssued t c cls op s f).fuses = s.fuses := by
  unfold whenIssued
  split
  · exact hf _ _ _
  · rfl

@[simp] theorem noteWaiting_fuses (t : Nat) (c : Ctx) (w : W128) (s : State) : (noteWaiting t c w s).fuses = s.fuses := by
  simp only [noteWaiting]

@[simp] theorem leaveLine_fuses (t : Nat) (c : Ctx) (s : State) : (leaveLine t c s).fuses = s.fuses := by simp only [leaveLine]

@[simp] theorem whenRequested_fuses (t : Nat) (c : Ctx) (cls op : Nat) (s : State) (f : Job → JobTile → W128 → State → State)
    (hf : ∀ j x w s, (f j x w s).fuses = s.fuses) : (whenRequested t c cls op s f).fuses = s.fuses := by
  unfold whenRequested
  (repeat' split) <;> simp only [hf, leaveLine_fuses, noteWaiting_fuses]

@[simp] theorem settleTile_fuses (j : Job) (t : Nat) (s : State) : (settleTile j t s).fuses = s.fuses := by
  simp only [settleTile, onJob_fuses]

@[simp] theorem completeOldest_fuses (t : Nat) (c : Ctx) (u : UnitId) (s : State) : (completeOldest t c u s).fuses = s.fuses := by
  simp only [completeOldest]
  (repeat' split) <;> simp only [settleTile_fuses, onTile_fuses]

@[simp] theorem curtain_fuses (t : Nat) (c : Ctx) (waits : List (Nat × Nat)) (s : State) : (curtain t c waits s).fuses = s.fuses := by
  unfold curtain
  refine whenIssued_fuses _ _ _ _ _ _ fun j x w => ?_
  dsimp only
  split <;> simp only [ite_fuses, raiseJ_fuses, onPart_fuses, onTile_fuses, issueHere_fuses, ite_self]

@[simp] theorem barrier_fuses (t : Nat) (c : Ctx) (waits : List (Nat × Nat)) (s : State) : (barrier t c waits s).fuses = s.fuses := by
  simp only [barrier, onTile_fuses, issueHere_fuses, whenIssued_fuses, implies_true]

@[simp] theorem fence_fuses (t : Nat) (c : Ctx) (waits : List (Nat × Nat)) (s : State) : (fence t c waits s).fuses = s.fuses := by
  simp only [fence, issueHere_fuses, whenIssued_fuses, implies_true]

@[simp] theorem waitString_fuses (t : Nat) (c : Ctx) (waits : List (Nat × Nat)) (s : State) : (waitString t c waits s).fuses = s.fuses := by
  simp only [waitString, issueHere_fuses, whenIssued_fuses, implies_true]

@[simp] theorem ctrlNop_fuses (t : Nat) (c : Ctx) (waits : List (Nat × Nat)) (s : State) : (ctrlNop t c waits s).fuses = s.fuses := by
  simp only [ctrlNop, issueHere_fuses, whenIssued_fuses, implies_true]

@[simp] theorem loop_fuses (t : Nat) (c : Ctx) (waits : List (Nat × Nat)) (s : State) : (loop t c waits s).fuses = s.fuses := by
  simp only [loop, onTile_fuses, issueHere_fuses, whenIssued_fuses, implies_true]

@[simp] theorem jump_fuses (t : Nat) (c : Ctx) (waits : List (Nat × Nat)) (s : State) : (jump t c waits s).fuses = s.fuses := by
  simp only [jump, onTile_fuses, issueHere_fuses, whenIssued_fuses, implies_true]

@[simp] theorem branch_fuses (t : Nat) (c : Ctx) (waits : List (Nat × Nat)) (s : State) : (branch t c waits s).fuses = s.fuses := by
  simp only [branch, stopSpinning_fuses, onTile_fuses, whenIssued_fuses, implies_true]

@[simp] theorem branchDrainEnd_fuses (t : Nat) (c : Ctx) (cycles : Nat) (s : State) : (branchDrainEnd t c cycles s).fuses = s.fuses := by
  simp only [branchDrainEnd]
  (repeat' split) <;> simp only [stopAt_fuses, onTile_fuses, issueHere_fuses, countSpill_fuses]

@[simp] theorem setx_fuses (t : Nat) (c : Ctx) (waits : List (Nat × Nat)) (s : State) : (setx t c waits s).fuses = s.fuses := by
  simp only [setx, onTile_fuses, issueHere_fuses, whenIssued_fuses, implies_true]

@[simp] theorem addx_fuses (t : Nat) (c : Ctx) (waits : List (Nat × Nat)) (s : State) : (addx t c waits s).fuses = s.fuses := by
  simp only [addx, onTile_fuses, issueHere_fuses, whenIssued_fuses, implies_true]

@[simp] theorem time_fuses (t : Nat) (c : Ctx) (waits : List (Nat × Nat)) (s : State) : (time t c waits s).fuses = s.fuses := by
  refine whenIssued_fuses _ _ _ _ _ _ fun j x w => ?_
  dsimp only
  split <;> simp only [stopAt_fuses, issueTo_fuses, prepareWrites_fuses, finishWrites_fuses]

@[simp] theorem endList_fuses (t : Nat) (c : Ctx) (waits : List (Nat × Nat)) (s : State) : (endList t c waits s).fuses = s.fuses := by
  simp only [endList, settleTile_fuses, onTile_fuses, issueHere_fuses, whenIssued_fuses, implies_true]

@[simp] theorem refillDone_fuses (t : Nat) (c : Ctx) (cycles : Nat) (s : State) : (refillDone t c cycles s).fuses = s.fuses := by
  unfold refillDone
  split <;> simp only [ite_fuses, onTile_fuses, ite_self]

@[simp] theorem sendLocal_fuses (t : Nat) (waits : List (Nat × Nat)) (j : Job) (x : JobTile) (w : W128) (h : Channel) (s : State) :
    (sendLocal t waits j x w h s).fuses = s.fuses := by
  simp only [sendLocal]
  (repeat' split) <;> simp only [stopAt_fuses, onChannel_fuses, issueTo_fuses, prepareWrites_fuses, countSpill_fuses, finishWrites_fuses]

@[simp] theorem recv_fuses (ret : Job → Channel → State → State) (hret : ∀ j h s, (ret j h s).fuses = s.fuses) (t : Nat) (c : Ctx)
    (waits : List (Nat × Nat)) (s : State) : (recv ret t c waits s).fuses = s.fuses := by
  refine whenIssued_fuses _ _ _ _ _ _ fun j x w => ?_
  (repeat' split) <;> simp only [hret, ite_fuses, onChannel_fuses, onTile_fuses, issueTo_fuses, ite_self]

@[simp] theorem stuckRun_fuses (part num : Nat) (s : State) : (stuckRun part num s).fuses = s.fuses := by
  simp only [stuckRun]
  (repeat' split) <;> simp only [raiseJ_fuses, onJob_fuses]

@[simp] theorem tileSaturation_fuses (t : Nat) (c : Ctx) (s : State) : (tileSaturation t c s).fuses = s.fuses := by
  simp only [tileSaturation]
  (repeat' split) <;> simp only [raiseJ_fuses, onJob_fuses, onTile_fuses]

/-! ### Machine/Arrays -/

@[simp] theorem grantCredit_fuses (t len : Nat) (s : State) : (grantCredit t len s).fuses = s.fuses := by
  simp only [grantCredit, ite_fuses, ite_self]

@[simp] theorem startOp_fuses (t : Nat) (c : Ctx) (pos core : Nat) (s : State) : (startOp t c pos core s).fuses = s.fuses := by
  simp only [startOp]
  (repeat' split) <;> simp only [stopAt_fuses, grantCredit_fuses, startArrays_fuses, countSpill_fuses, onTile_fuses]

@[simp] theorem startOn_fuses (t pos : Nat) (s : State) : (startOn t pos s).fuses = s.fuses := by
  unfold startOn
  split <;> simp only [startOp_fuses]

@[simp] theorem arbitrate_fuses (g n : Nat) (s : State) : (arbitrate g n s).fuses = s.fuses := by
  induction n generalizing s with
  | zero => rfl
  | succ n ih =>
    simp only [arbitrate]
    (repeat' split) <;> simp only [ih, startOp_fuses]

@[simp] theorem startWith_fuses (gradeF : Bool) (t : Nat) (s : State) : (startWith gradeF t s).fuses = s.fuses := by
  simp only [startWith, ite_fuses, startOn_fuses, arbitrate_fuses, ite_self]

@[simp] theorem startOps_fuses (t : Nat) (s : State) : (startOps t s).fuses = s.fuses := by simp only [startOps, startWith_fuses]

@[simp] theorem mac_fuses (t : Nat) (c : Ctx) (waits : List (Nat × Nat)) (s : State) : (mac t c waits s).fuses = s.fuses := by
  simp only [mac, startOps_fuses, issueTo_fuses, whenIssued_fuses, implies_true]

@[simp] theorem epilogue_fuses (j : Job) (x : JobTile) (e : Entry) (a : AccSet) (s : State) : (epilogue j x e a s).fuses = s.fuses := by
  unfold epilogue
  split
  · split
    · rfl
    · split
      · next h => exact epilogueOf_fuses h
      · simp only [stopAt_fuses]
  · rfl

@[simp] theorem operationEnd_fuses (t : Nat) (c : Ctx) (spun rotation operand drain bank limiter : Nat) (s : State) :
    (operationEnd t c spun rotation operand drain bank limiter s).fuses = s.fuses := by
  simp only [operationEnd]
  (repeat' split) <;> simp only [startOps_fuses, epilogue_fuses, onTile_fuses, freeWord_fuses, endArrays_fuses]

@[simp] theorem spinnerExpiry_fuses (core i : Nat) (s : State) : (spinnerExpiry core i s).fuses = s.fuses := by
  simp only [spinnerExpiry]
  (repeat' split) <;> simp only [onTile_fuses]

@[simp] theorem staggerGrant_fuses (g cycles : Nat) (s : State) : (staggerGrant g cycles s).fuses = s.fuses := by
  simp only [staggerGrant]
  (repeat' split) <;> simp only [onTile_fuses]

/-! ### Machine/Fetch -/

@[simp] theorem copyLocal_fuses (t : Nat) (waits : List (Nat × Nat)) (j : Job) (x : JobTile) (w : W128) (s : State) :
    (copyLocal t waits j x w s).fuses = s.fuses := by
  simp only [copyLocal]
  split <;> simp only [stopAt_fuses, issueTo_fuses, prepareWrites_fuses, countSpill_fuses, ite_fuses, finishWrites_fuses, ite_self]

@[simp] theorem mcast_fuses (t : Nat) (c : Ctx) (waits : List (Nat × Nat)) (s : State) : (mcast t c waits s).fuses = s.fuses := by
  refine whenIssued_fuses _ _ _ _ _ _ fun j x w => ?_
  dsimp only
  (repeat' split) <;> simp only [stopAt_fuses, issueTo_fuses, prepareWrites_fuses, countSpill_fuses, finishWrites_fuses]

@[simp] theorem batchOpen_fuses (t : Nat) (c : Ctx) (waits : List (Nat × Nat)) (s : State) : (batchOpen t c waits s).fuses = s.fuses := by
  simp only [batchOpen, onTile_fuses, issueTo_fuses, whenIssued_fuses, implies_true]

@[simp] theorem batchEnd_fuses (t : Nat) (c : Ctx) (waits : List (Nat × Nat)) (s : State) : (batchEnd t c waits s).fuses = s.fuses := by
  simp only [batchEnd, startOps_fuses, onTile_fuses, issueTo_fuses, whenIssued_fuses, implies_true]

@[simp] theorem gather_fuses (t : Nat) (c : Ctx) (waits : List (Nat × Nat)) (s : State) : (gather t c waits s).fuses = s.fuses := by
  simp only [gather, issueTo_fuses, whenIssued_fuses, implies_true]

@[simp] theorem gatherRow_fuses (t : Nat) (j : Job) (x : JobTile) (e : Entry) (i : Nat) (s : State) :
    (gatherRow t j x e i s).fuses = s.fuses := by
  simp only [gatherRow]
  (repeat' split) <;> simp only [stopAt_fuses, onTile_fuses, countSpill_fuses]

@[simp] theorem fillDeadline_fuses (t : Nat) (c : Ctx) (i : Nat) (s : State) : (fillDeadline t c i s).fuses = s.fuses := by
  simp only [fillDeadline]
  (repeat' split) <;> simp only [startOps_fuses, onTile_fuses]

/-! ### Machine/Remote -/

@[simp] theorem serveRequest'_fuses (n : Nat) (p : Packet) (count : Nat) (s : State) : (serveRequest' n p count s).1.fuses = s.fuses := by
  simp only [serveRequest']
  (repeat' split) <;> simp only [raiseP_fuses, store_fuses]

@[simp] theorem protocolError_fuses (k : Nat) (p : Packet) (s : State) : (protocolError k p s).fuses = s.fuses := by
  simp only [protocolError, raiseM_fuses, onLink_fuses]

@[simp] theorem forwardPacket_fuses (k : Nat) (p : Packet) (s : State) : (forwardPacket k p s).fuses = s.fuses := by
  simp only [forwardPacket]
  split <;> simp only [crossbar_fuses, noteForward_fuses, ite_fuses, putPacket_fuses, dropPacket_fuses, ite_self]

@[simp] theorem requestArrives_fuses (k op : Nat) (p : Packet) (count : Nat) (s : State) :
    (requestArrives k op p count s).fuses = s.fuses := by
  simp only [requestArrives]
  (repeat' split) <;> simp only [forwardPacket_fuses, putPacket_fuses, protocolError_fuses, serveRequest'_fuses]

@[simp] theorem answerStops_fuses (part num tile member st addr : Nat) (s : State) :
    (answerStops part num tile member st addr s).fuses = s.fuses := by
  unfold answerStops
  split <;> simp only [ite_fuses, stopRun_fuses, reportFm_fuses, stopAt_fuses, ite_self]

@[simp] theorem entryAnswered_fuses (part num tile id : Nat) (s : State) : (entryAnswered part num tile id s).fuses = s.fuses := by
  simp only [entryAnswered, onJob_fuses]

@[simp] theorem answered_fuses (r : FabReq) (data : List Byte) (s : State) : (answered r data s).fuses = s.fuses := by
  unfold answered
  split <;> simp only [finishWrites_fuses, entryAnswered_fuses, onJob_fuses, onFab_fuses]

@[simp] theorem answerArrives_fuses (k : Option Nat) (p : Packet) (s : State) : (answerArrives k p s).fuses = s.fuses := by
  simp only [answerArrives]
  (repeat' split) <;> simp only [onLink_fuses, answered_fuses, onFab_fuses, answerStops_fuses]

@[simp] theorem copyAnswers_fuses (k : Nat) (p : Packet) (s : State) : (copyAnswers k p s).fuses = s.fuses := by
  unfold copyAnswers
  split <;> simp only [ite_fuses, answerArrives_fuses, forwardPacket_fuses, foldl_fuses, onFab_fuses, ite_self, implies_true]

@[simp] theorem issueRequest_fuses (j : Job) (tile id : Nat) (g : RegionMap) (q : NewReq) (s : State) :
    (issueRequest j tile id g q s).fuses = s.fuses := by
  simp only [issueRequest]
  split
  · simp only [answerArrives_fuses, serveRequest'_fuses, onFab_fuses]
  · split
    · next h => simp only [routePacket_fuses h, onFab_fuses]
    · simp only [answerStops_fuses, onFab_fuses]

@[simp] theorem pumpCopies_fuses (s : State) : (pumpCopies s).fuses = s.fuses := by
  unfold pumpCopies
  refine foldl_fuses _ (fun s b => ?_) _ _
  split <;> simp only [issueRequest_fuses]

@[simp] theorem issueRequests_fuses (j : Job) (x : JobTile) (w : W128) (waits : List (Nat × Nat)) (cross : List Nat) (g : RegionMap)
    (qs : List NewReq) (s : State) :
    (issueRequests j x w waits cross g qs s).fuses = s.fuses := by
  simp only [issueRequests, pumpCopies_fuses, issueRequest_fuses, foldl_fuses, onFab_fuses, onTile_fuses, implies_true]

@[simp] theorem copyRemote_fuses (t : Nat) (waits : List (Nat × Nat)) (j : Job) (x : JobTile) (w : W128) (s : State) :
    (copyRemote t waits j x w s).fuses = s.fuses := by
  simp only [copyRemote]
  (repeat' split) <;> simp only [stopAt_fuses, issueRequests_fuses, prepareWrites_fuses, countSpill_fuses]

@[simp] theorem copyRegions_fuses (t : Nat) (waits : List (Nat × Nat)) (j : Job) (x : JobTile) (w : W128) (s : State) :
    (copyRegions t waits j x w s).fuses = s.fuses := by
  simp only [copyRegions]
  (repeat' split) <;> simp only [stopAt_fuses, issueRequests_fuses]

@[simp] theorem copy_fuses (t : Nat) (c : Ctx) (waits : List (Nat × Nat)) (s : State) : (copy t c waits s).fuses = s.fuses := by
  simp only [copy, ite_fuses, copyLocal_fuses, copyRegions_fuses, copyRemote_fuses, whenIssued_fuses, ite_self, implies_true]

@[simp] theorem atomic_fuses (t : Nat) (c : Ctx) (waits : List (Nat × Nat)) (s : State) : (atomic t c waits s).fuses = s.fuses := by
  refine whenIssued_fuses _ _ _ _ _ _ fun j x w => ?_
  dsimp only
  (repeat' split) <;> simp only [stopAt_fuses, issueTo_fuses, prepareWrites_fuses, countSpill_fuses, finishWrites_fuses,
    issueRequests_fuses]

theorem sendChannel_fuses {n seat vl op key flow addr : Nat} {first last : Bool} {tag : Nat} {data : List Byte} {s t : State}
    (h : sendChannel n seat vl op key flow addr first last tag data s = some t) : t.fuses = s.fuses := by
  simp only [sendChannel] at h
  split at h
  · exact routePacket_fuses h
  · cases h
    simp only [dmtSend_fuses]

@[simp] theorem sendRemote_fuses (t : Nat) (waits : List (Nat × Nat)) (j : Job) (x : JobTile) (w : W128) (h : Channel) (s : State) :
    (sendRemote t waits j x w h s).fuses = s.fuses := by
  simp only [sendRemote]
  split
  · simp only [stopAt_fuses]
  · simp only [ite_fuses]
    rw [foldl_fuses]
    · simp only [stopAt_fuses, dmtSend_fuses, onChannel_fuses, issueTo_fuses, countSpill_fuses, ite_self]
    · intro s i
      split
      · next h => simp only [sendChannel_fuses h, onFab_fuses]
      · simp only [answerStops_fuses, onFab_fuses]

@[simp] theorem sendChan_fuses (t : Nat) (c : Ctx) (waits : List (Nat × Nat)) (s : State) : (sendChan t c waits s).fuses = s.fuses := by
  refine whenIssued_fuses _ _ _ _ _ _ fun j x w => ?_
  (repeat' split) <;> simp only [sendLocal_fuses, sendRemote_fuses]

@[simp] theorem creditBack_fuses (j : Job) (h : Channel) (s : State) : (creditBack j h s).fuses = s.fuses := by
  unfold creditBack
  split
  · next seat _ =>
    cases hs : sendChannel j.part seat 1 0x85 (channelKey h) (16 * h.srcTile + h.srcIndex) 0 true true 0 [] s with
    | none => rfl
    | some t => exact sendChannel_fuses hs
  · rfl

@[simp] theorem channelWrite_fuses (j : Job) (h : Channel) (a : Nat) (data : List Byte) (last : Bool) (s : State) :
    (channelWrite j h a data last s).fuses = s.fuses := by
  simp only [channelWrite, prepareWrites_fuses, ite_fuses, onChannel_fuses, finishWrites_fuses, ite_self]

@[simp] theorem chanWriteArrives_fuses (k : Nat) (p : Packet) (s : State) : (chanWriteArrives k p s).fuses = s.fuses := by
  simp only [chanWriteArrives]
  (repeat' split) <;> simp only [forwardPacket_fuses, putPacket_fuses, protocolError_fuses, channelWrite_fuses]

@[simp] theorem chanCredit_fuses (n seat srcTile srcIndex : Nat) (s : State) : (chanCredit n seat srcTile srcIndex s).fuses = s.fuses := by
  unfold chanCredit
  split <;> simp only [onChannel_fuses]

@[simp] theorem responseArrives_fuses (k op : Nat) (p : Packet) (f : State → State) (hf : ∀ s, (f s).fuses = s.fuses) (s : State) :
    (responseArrives k op p f s).fuses = s.fuses := by
  simp only [responseArrives]
  (repeat' split) <;> simp only [hf, forwardPacket_fuses, protocolError_fuses, pumpCopies_fuses, copyAnswers_fuses]

@[simp] theorem teardown_fuses (n num member : Nat) (s : State) : (teardown n num member s).fuses = s.fuses := by
  simp only [teardown, reportFm_fuses, abandonRequests_fuses, stopRun_fuses, foldl_fuses, raiseM_fuses, freeWord_fuses, implies_true]

/-! ### Machine/Serden -/

@[simp] theorem writeResult_fuses (j : Job) (i : Nat) (s : State) : (writeResult j i s).fuses = s.fuses := by
  simp only [writeResult]
  (repeat' split) <;> simp only [storeWords_fuses, stopAt_fuses]

@[simp] theorem failSegment_fuses (j : Job) (i lane : Nat) (s : State) : (failSegment j i lane s).fuses = s.fuses := by
  simp only [failSegment, raiseM_fuses, onSeg_fuses, freeWord_fuses]

@[simp] theorem updateSegment_fuses (j : Job) (sg : Segment) (s : State) : (updateSegment j sg s).fuses = s.fuses := by
  simp only [updateSegment]
  split
  · simp only [failSegment_fuses, mixUpdate_fuses]
  · simp only [apply_ite Prod.fst, ite_fuses, onSeg_fuses, writeResult_fuses, writeParts_fuses, foldl_fst_fuses, liftPoison_fuses,
    raiseJ_fuses, clearAcc_fuses, implies_true, ite_self]

@[simp] theorem segmentDone_fuses (part num i : Nat) (failed : Option Nat) (s : State) :
    (segmentDone part num i failed s).fuses = s.fuses := by
  simp only [segmentDone]
  (repeat' split) <;> simp only [failSegment_fuses, mixUpdate_fuses, updateSegment_fuses]

@[simp] theorem accClearDone_fuses (part num i : Nat) (s : State) : (accClearDone part num i s).fuses = s.fuses := by
  simp only [accClearDone]
  (repeat' split) <;> simp only [onSeg_fuses, clearAcc_fuses]

@[simp] theorem landAdd_fuses (s : State) (w : AddWrite) : (landAdd s w).fuses = s.fuses := by
  simp only [landAdd, ite_fuses, discardWrite_fuses, memoryError_fuses, ite_self]

@[simp] theorem addWrite_fuses (ch : Nat) (s : State) : (addWrite ch s).fuses = s.fuses := by
  simp only [addWrite]
  split <;> simp only [ite_fuses, feedAdds_fuses, landAdd_fuses, ite_self]

@[simp] theorem refuseCommand_fuses (j : Job) (i upd : Nat) (s : State) : (refuseCommand j i upd s).fuses = s.fuses := by
  simp only [refuseCommand, raiseJ_fuses, freeWord_fuses]

@[simp] theorem wakeSerden_fuses (part : Nat) (s : State) : (wakeSerden part s).fuses = s.fuses := by simp only [wakeSerden]

@[simp] theorem segCommand_fuses (part num i : Nat) (accepts : Segment → Bool) (act : Job → Segment → State → State)
    (hact : ∀ j g s, (act j g s).fuses = s.fuses) (s : State) : (segCommand part num i accepts act s).fuses = s.fuses := by
  unfold segCommand
  (repeat' split) <;> simp only [hact, wakeSerden_fuses, refuseCommand_fuses]

@[simp] theorem commitAt_fuses (part num : Nat) (count : W64) (kind : Nat) (s : State) :
    (commitAt part num count kind s).fuses = s.fuses := by
  simp only [commitAt, onJob_fuses, wakeSerden_fuses]

@[simp] theorem startUpdate_fuses (part num i : Nat) (s : State) : (startUpdate part num i s).fuses = s.fuses := by
  simp only [startUpdate, onSeg_fuses, segCommand_fuses, implies_true]

@[simp] theorem redo_fuses (part num i : Nat) (s : State) : (redo part num i s).fuses = s.fuses := by
  simp only [redo, onSeg_fuses, segCommand_fuses, implies_true]

@[simp] theorem restoreBegin_fuses (part num i : Nat) (s : State) : (restoreBegin part num i s).fuses = s.fuses := by
  simp only [restoreBegin, onSeg_fuses, segCommand_fuses, implies_true]

@[simp] theorem restoreEnd_fuses (part num i : Nat) (s : State) : (restoreEnd part num i s).fuses = s.fuses := by
  simp only [restoreEnd, writeResult_fuses, onSeg_fuses, clearAcc_fuses, emitCopy_fuses, segCommand_fuses, implies_true]

@[simp] theorem digestSlot_fuses (part num i : Nat) (slot : Bool) (s : State) : (digestSlot part num i slot s).fuses = s.fuses := by
  unfold digestSlot
  exact segCommand_fuses _ _ _ _ _ (fun _ _ _ => send_fuses _ _) _

@[simp] theorem reemit_fuses (part num i : Nat) (s : State) : (reemit part num i s).fuses = s.fuses := by
  simp only [reemit, onSeg_fuses, emitCopy_fuses, segCommand_fuses, implies_true]

@[simp] theorem serdenGate_fuses (e : Nat) (s : State) : (serdenGate e s).fuses = s.fuses := by simp only [serdenGate, ite_fuses, ite_self]

@[simp] theorem runDeferred_fuses (j : Job) (s : State) : (runDeferred j s).fuses = s.fuses := by
  simp only [runDeferred, ite_fuses, onJob_fuses, ite_self]

@[simp] theorem applyOutcome_fuses (j : Job) (kind : Nat) (s : State) : (applyOutcome j kind s).fuses = s.fuses := by
  simp only [applyOutcome, ite_fuses, runDeferred_fuses, writeResult_fuses, onSeg_fuses, foldl_fuses, wakeSerden_fuses, emitCopy_fuses,
    mixUpdate_fuses, ite_self, implies_true]

/-! ### Machine/CollViews -/

@[simp] theorem sendColl_fuses (j : Job) (g rank ctype round cdesc ring chunk : Nat) (data : List Byte) (s : State) :
    (sendColl j g rank ctype round cdesc ring chunk data s).fuses = s.fuses := by
  simp only [sendColl, ite_fuses, sendToSeat_fuses, pumpChunks_fuses, onFab_fuses, ite_self]

theorem sendColl_sameFuses (j : Job) (g rank ctype round cdesc ring chunk : Nat) (data : List Byte) (s : State) :
    SameFuses s (sendColl j g rank ctype round cdesc ring chunk data s) := sendColl_fuses _ _ _ _ _ _ _ _ _ _

@[simp] theorem onColl_fuses (j : Job) (f : CollRun → CollRun) (s : State) : (onColl j f s).fuses = s.fuses := by
  simp only [onColl, onJob_fuses]

@[simp] theorem collLate_fuses (j : Job) (die ctype rank : Nat) (s : State) : (collLate j die ctype rank s).fuses = s.fuses := by
  simp only [collLate, ite_fuses, onPart_fuses, raiseJ_fuses, onColl_fuses, ite_self]

/-! ### Machine/Orders -/

@[simp] theorem finishOrder_fuses (mid status : Nat) (s : State) : (finishOrder mid status s).fuses = s.fuses := by
  simp only [finishOrder, ite_fuses, msix_fuses, onSlot_fuses, send_fuses, ite_self]

@[simp] theorem startReset_fuses (n : Nat) (scrub : Bool) (waiters : List Nat) (s : State) :
    (startReset n scrub waiters s).fuses = s.fuses := by
  simp only [startReset, ite_fuses, stopPartition_fuses, onPart_fuses, tellReset_fuses, ite_self]

@[simp] theorem resetPartition_fuses (n : Nat) (scrub : Bool) (waiters : List Nat) (s : State) :
    (resetPartition n scrub waiters s).fuses = s.fuses := by
  unfold resetPartition
  split <;> simp only [startReset_fuses, onPart_fuses]

@[simp] theorem applyKind_fuses (k : Nat) (done : List Order) (s : State) : (applyKind k done s).fuses = s.fuses := by
  simp only [applyKind]
  (repeat' split) <;> simp only [raiseM_fuses, resync_fuses, foldl_fuses, orderLink_fuses, resetPartition_fuses, implies_true]

@[simp] theorem resolveSlate_fuses (s : State) : (resolveSlate s).fuses = s.fuses := by
  simp only [resolveSlate]
  split <;> simp only [applyKind_fuses, ite_fuses, finishOrder_fuses, foldl_fuses, ite_self, implies_true]

@[simp] theorem enterOrder_fuses (mid : Nat) (w : W64) (last : Bool) (s : State) : (enterOrder mid w last s).fuses = s.fuses := by
  simp only [enterOrder, onSlot_fuses, ite_fuses, send_fuses, resolveSlate_fuses, hostAccessError_fuses, ite_self]

/-! ### Machine/Vector -/

@[simp] theorem vec_fuses (op t : Nat) (c : Ctx) (waits : List (Nat × Nat)) (s : State) : (vec op t c waits s).fuses = s.fuses := by
  refine whenIssued_fuses _ _ _ _ _ _ fun j x w => ?_
  dsimp only
  (repeat' split) <;> simp only [stopAt_fuses, freeWord_fuses, onTile_fuses, issueTo_fuses, prepareWrites_fuses, countSpill_fuses,
    finishWrites_fuses]

@[simp] theorem topk_fuses (t : Nat) (c : Ctx) (waits : List (Nat × Nat)) (s : State) : (topk t c waits s).fuses = s.fuses := by
  refine whenIssued_fuses _ _ _ _ _ _ fun j x w => ?_
  dsimp only
  (repeat' split) <;> simp only [stopAt_fuses, onTile_fuses, issueTo_fuses, prepareWrites_fuses, countSpill_fuses, finishWrites_fuses]

/-! ### Machine/Routing -/

@[simp] theorem onRoute_fuses (j : Job) (f : RouteRun → RouteRun) (s : State) : (onRoute j f s).fuses = s.fuses := by
  simp only [onRoute, onJob_fuses]

@[simp] theorem onQUse_fuses (j : Job) (q : Nat) (grad : Bool) (micro : Nat) (f : QUse → QUse) (s : State) :
    (onQUse j q grad micro f s).fuses = s.fuses := by
  simp only [onQUse, onRoute_fuses]

@[simp] theorem onTUse_fuses (j : Job) (d micro : Nat) (f : TUse → TUse) (s : State) : (onTUse j d micro f s).fuses = s.fuses := by
  simp only [onTUse, onRoute_fuses]

@[simp] theorem onQRec_fuses (j : Job) (q : Nat) (f : QueueRec → QueueRec) (s : State) : (onQRec j q f s).fuses = s.fuses := by
  simp only [onQRec, onRoute_fuses]

@[simp] theorem onTRec_fuses (j : Job) (d : Nat) (f : TokenRec → TokenRec) (s : State) : (onTRec j d f s).fuses = s.fuses := by
  simp only [onTRec, onRoute_fuses]

@[simp] theorem protocolEvent_fuses (j : Job) (die mtype src : Nat) (s : State) : (protocolEvent j die mtype src s).fuses = s.fuses := by
  simp only [protocolEvent, raiseJ_fuses]

@[simp] theorem lateMessage_fuses (j : Job) (mtype src : Nat) (s : State) : (lateMessage j mtype src s).fuses = s.fuses := by
  simp only [lateMessage, ite_fuses, onPart_fuses, protocolEvent_fuses, onRoute_fuses, ite_self]

@[simp] theorem toMember_fuses (n : Nat) (m : List W64) (d : Nat) (h : List W64) (data : List Byte) (here : State → State)
    (hhere : ∀ s, (here s).fuses = s.fuses) (s : State) : (toMember n m d h data here s).fuses = s.fuses := by
  unfold toMember
  split <;> simp only [hhere, sendMessage_fuses]

@[simp] theorem emptySlots_fuses (j : Job) (q base n : Nat) (s : State) : (emptySlots j q base n s).fuses = s.fuses := by
  simp only [emptySlots, ite_fuses, jobStore_fuses, ite_self]

@[simp] theorem slotRow_fuses (j : Job) (q : Nat) (grad : Bool) (micro src jc token slot : Nat) (row : List Byte) (s : State) :
    (slotRow j q grad micro src jc token slot row s).fuses = s.fuses := by
  simp only [slotRow]
  (repeat' split) <;> simp only [lateMessage_fuses, protocolEvent_fuses, onPart_fuses, onQUse_fuses, jobStore_fuses]

theorem jacksReads_fuses {j : Job} {rs : List (Nat × Nat)} {s t : State} (h : jacksReads j rs s = some t) : t.fuses = s.fuses := by
  simp only [jacksReads, Option.map_eq_some_iff] at h
  obtain ⟨a, -, rfl⟩ := h
  simp only [stopAt_fuses]

@[simp] theorem jacksReads_getD_fuses (j : Job) (rs : List (Nat × Nat)) (s t : State) (ht : t.fuses = s.fuses) :
    ((jacksReads j rs s).getD t).fuses = s.fuses := by
  cases h : jacksReads j rs s with
  | none => exact ht
  | some u => exact jacksReads_fuses h

@[simp] theorem deliverGrant_fuses (j : Job) (mi micro src : Nat) (vals : List (Nat × Nat)) (s : State) :
    (deliverGrant j mi micro src vals s).fuses = s.fuses := by
  simp only [deliverGrant]
  split
  · simp only [lateMessage_fuses]
  · split
    · simp only [lateMessage_fuses]
    · split
      · simp only [lateMessage_fuses]
      · split
        · next h => exact jacksReads_fuses h
        · simp only [ite_fuses, onTRec_fuses, ite_self]
          rw [foldl_fuses]
          · simp only [onTUse_fuses]
          · intro s p
            split <;> simp only [onTRec_fuses, slotRow_fuses, toMember_fuses, jobStore_fuses, implies_true]

@[simp] theorem grantQueue_fuses (j : Job) (mi micro q routed : Nat) (s : State) : (grantQueue j mi micro q routed s).fuses = s.fuses := by
  simp only [grantQueue]
  (repeat' split) <;> simp only [raiseJ_fuses, onRoute_fuses, onQUse_fuses, onJob_fuses, onQRec_fuses, stopAt_fuses, emptySlots_fuses,
    jobStore_fuses]

@[simp] theorem tryGrants_fuses (j : Job) (mi micro : Nat) (s : State) : (tryGrants j mi micro s).fuses = s.fuses := by
  simp only [tryGrants, ite_fuses, deliverGrant_fuses, toMember_fuses, foldl_fuses, grantQueue_fuses, onRoute_fuses, implies_true, ite_self]

@[simp] theorem deliverCount_fuses (j : Job) (mi micro src : Nat) (counts : List Nat) (s : State) :
    (deliverCount j mi micro src counts s).fuses = s.fuses := by
  simp only [deliverCount, ite_fuses, lateMessage_fuses, tryGrants_fuses, onRoute_fuses, ite_self]

@[simp] theorem badIndexEvent_fuses (j : Job) (tile layer index : Nat) (s : State) :
    (badIndexEvent j tile layer index s).fuses = s.fuses := by
  simp only [badIndexEvent, ite_fuses, raiseJ_fuses, onRoute_fuses, ite_self]

@[simp] theorem countPhase_fuses (j : Job) (di micro : Nat) (s : State) : (countPhase j di micro s).fuses = s.fuses := by
  simp only [countPhase]
  split
  · next h => exact jacksReads_fuses h
  · simp only [apply_ite Prod.fst, deliverCount_fuses, toMember_fuses, foldl_fuses, onTUse_fuses, ite_fuses, badIndexEvent_fuses,
    onTRec_fuses, jobStore_fuses, foldl_fst_fuses, implies_true, ite_self]

@[simp] theorem sendGradRows_fuses (j : Job) (di micro row rows : Nat) (members : List Nat) (s : State) :
    (sendGradRows j di micro row rows members s).fuses = s.fuses := by
  simp only [sendGradRows]
  split
  · next h => exact jacksReads_fuses h
  · simp only [slotRow_fuses, toMember_fuses, foldl_fuses, implies_true]

@[simp] theorem deliverReady_fuses (j : Job) (mi micro src : Nat) (s : State) : (deliverReady j mi micro src s).fuses = s.fuses := by
  simp only [deliverReady]
  split <;> simp only [ite_fuses, sendGradRows_fuses, foldl_fuses, onTUse_fuses, lateMessage_fuses, implies_true, ite_self]

@[simp] theorem tryReady_fuses (j : Job) (mi micro : Nat) (s : State) : (tryReady j mi micro s).fuses = s.fuses := by
  simp only [tryReady, ite_fuses, deliverReady_fuses, toMember_fuses, foldl_fuses, onRoute_fuses, implies_true, ite_self]

@[simp] theorem deliverGradRequest_fuses (j : Job) (mi micro src : Nat) (s : State) :
    (deliverGradRequest j mi micro src s).fuses = s.fuses := by
  simp only [deliverGradRequest, ite_fuses, lateMessage_fuses, tryReady_fuses, onRoute_fuses, ite_self]

@[simp] theorem tokenRow_fuses (j : Job) (mi micro : Nat) (ret : Bool) (src r jc : Nat) (row : List Byte) (s : State) :
    (tokenRow j mi micro ret src r jc row s).fuses = s.fuses := by
  simp only [tokenRow]
  split <;> simp only [ite_fuses, lateMessage_fuses, onTUse_fuses, jobStore_fuses, ite_self]

@[simp] theorem acquire_fuses (j : Job) (q : Nat) (grad : Bool) (micro : Nat) (s : State) :
    (acquire j q grad micro s).fuses = s.fuses := by
  simp only [acquire]
  split
  · rfl
  · split
    · rfl
    · split
      · split
        · next h => simp only [jacksReads_fuses h, onQRec_fuses]
        · simp only [tryReady_fuses, emptySlots_fuses, onQUse_fuses, onQRec_fuses]
      · simp only [tryGrants_fuses, onQUse_fuses, onQRec_fuses]

@[simp] theorem openUse_fuses (j : Job) (r : RReq) (q : Nat) (grad : Bool) (micro : Nat) (s : State) :
    (openUse j r q grad micro s).fuses = s.fuses := by
  simp only [openUse]
  (repeat' split) <;> simp only [acquire_fuses, onRoute_fuses, onTRec_fuses]

@[simp] theorem release_fuses (j : Job) (die q : Nat) (grad : Bool) (micro : Nat) (s : State) :
    (release j die q grad micro s).fuses = s.fuses := by
  simp only [release]
  split <;> simp only [onQUse_fuses, raiseJ_fuses, freeWord_fuses]

@[simp] theorem onReq_fuses (j : Job) (id : Nat) (f : RReq → RReq) (s : State) : (onReq j id f s).fuses = s.fuses := by
  simp only [onReq, onRoute_fuses]

@[simp] theorem reqDone_fuses (j : Job) (r : RReq) (s : State) : (reqDone j r s).fuses = s.fuses := by
  simp only [reqDone, onTile_fuses, onRoute_fuses]

@[simp] theorem reqWaits_fuses (j : Job) (r : RReq) (why : Nat) (s : State) : (reqWaits j r why s).fuses = s.fuses := by
  simp only [reqWaits]
  (repeat' split) <;> simp only [onTRec_fuses, onReq_fuses]

@[simp] theorem admitSend_fuses (j : Job) (r : RReq) (s : State) : (admitSend j r s).fuses = s.fuses := by
  simp only [admitSend]
  (repeat' split) <;> simp only [reqWaits_fuses, stopAt_fuses, onReq_fuses, onTUse_fuses, onRoute_fuses]

@[simp] theorem startGradSend_fuses (j : Job) (r : RReq) (s : State) : (startGradSend j r s).fuses = s.fuses := by
  simp only [startGradSend]
  split
  · rfl
  · split
    · next h =>
      split at h
      · exact jacksReads_fuses h
      · cases h
    · simp only [deliverGradRequest_fuses, toMember_fuses, foldl_fuses, onTUse_fuses, sendGradRows_fuses, implies_true]

@[simp] theorem sendBack_fuses (j : Job) (r : RReq) (u : QUse) (s : State) : (sendBack j r u s).fuses = s.fuses := by
  simp only [sendBack]
  split
  · next h => exact jacksReads_fuses h
  · simp only [tokenRow_fuses, toMember_fuses, foldl_fuses, implies_true]

@[simp] theorem tokenReceive_fuses (j : Job) (r : RReq) (s : State) : (tokenReceive j r s).fuses = s.fuses := by
  simp only [tokenReceive]
  split
  · rfl
  · split
    · rfl
    · split
      · next h => exact jacksReads_fuses h
      · simp only [ite_fuses, onRoute_fuses, reqDone_fuses, onTUse_fuses, jobStore_fuses, foldl_fuses, onTRec_fuses, implies_true, ite_self]

@[simp] theorem endFeed_fuses (j : Job) (r : RReq) (count : Nat) (mark : Bool) (s : State) :
    (endFeed j r count mark s).fuses = s.fuses := by
  simp only [endFeed, reqDone_fuses, ite_fuses, onTile_fuses, ite_self]

@[simp] theorem progress_fuses (id : Nat) (j : Job) (s : State) : (progress id j s).fuses = s.fuses := by
  simp only [progress]
  (repeat' split) <;> simp only [countPhase_fuses, admitSend_fuses, reqDone_fuses, startGradSend_fuses, tokenReceive_fuses, sendBack_fuses,
    openUse_fuses, onReq_fuses, endFeed_fuses, jacksReads_getD_fuses]

@[simp] theorem settleRoutes_fuses (n : Nat) (j : Job) (s : State) : (settleRoutes n j s).fuses = s.fuses := by
  induction n generalizing s with
  | zero => rfl
  | succ n ih => simp only [settleRoutes, ih, progress_fuses, foldl_fuses, implies_true]

@[simp] theorem settleJob_fuses (j : Job) (s : State) : (settleJob j s).fuses = s.fuses := by simp only [settleJob, settleRoutes_fuses]

@[simp] theorem feedRow_fuses (t : Nat) (c : Ctx) (s : State) : (feedRow t c s).fuses = s.fuses := by
  simp only [feedRow]
  split
  · rfl
  · split
    · rfl
    · split
      · rfl
      · split
        · rfl
        · split
          · next h => exact jacksReads_fuses h
          · simp only [startOps_fuses, settleJob_fuses, onReq_fuses, onTile_fuses]

@[simp] theorem rowArrival_fuses (t : Nat) (c : Ctx) (u : UnitId) (s : State) : (rowArrival t c u s).fuses = s.fuses := by
  simp only [rowArrival]
  (repeat' split) <;> simp only [startOps_fuses, gatherRow_fuses, feedRow_fuses]

@[simp] theorem route_fuses (op side kind : Nat) (t : Nat) (c : Ctx) (waits : List (Nat × Nat)) (s : State) :
    (route op side kind t c waits s).fuses = s.fuses := by
  simp only [route, ite_fuses, settleJob_fuses, onRoute_fuses, onTile_fuses, whenRequested_fuses, ite_self, implies_true]

@[simp] theorem routeRelease_fuses (op : Nat) (t : Nat) (c : Ctx) (waits : List (Nat × Nat)) (s : State) :
    (routeRelease op t c waits s).fuses = s.fuses := by
  simp only [routeRelease, ite_fuses, settleJob_fuses, release_fuses, issueTo_fuses, whenRequested_fuses, ite_self, implies_true]

@[simp] theorem frameAcquired_fuses (part num q : Nat) (grad : Bool) (micro : Nat) (s : State) :
    (frameAcquired part num q grad micro s).fuses = s.fuses := by
  unfold frameAcquired
  split <;> simp only [settleJob_fuses, acquire_fuses]

@[simp] theorem indexCopy_fuses (mode t : Nat) (c : Ctx) (waits : List (Nat × Nat)) (s : State) :
    (indexCopy mode t c waits s).fuses = s.fuses := by
  refine whenRequested_fuses _ _ _ _ _ _ fun j x w s => ?_
  dsimp only
  split
  · rfl
  · split
    · exact stopAt_fuses _ _ _ _
    · split
      · exact stopAt_fuses _ _ _ _
      · rw [ite_fuses]
        refine ite_eq_left_iff.mpr fun _ => ?_
        split <;> simp only [badIndexEvent_fuses, onRoute_fuses, ite_fuses, finishWrites_fuses, issueTo_fuses, prepareWrites_fuses,
          countSpill_fuses, ite_self]

@[simp] theorem heard_fuses (j : Job) (layer micro : Nat) (s : State) : (heard j layer micro s).fuses = s.fuses := by
  simp only [heard, onRoute_fuses]

@[simp] theorem jacksMessage_fuses (link : Nat) (h0 : W64) (f : Job → Nat → Nat → Nat → State → State)
    (hf : ∀ j mi micro src s, (f j mi micro src s).fuses = s.fuses) (s : State) : (jacksMessage link h0 f s).fuses = s.fuses := by
  simp only [jacksMessage]
  (repeat' split) <;> simp only [hf, onPart_fuses, settleJob_fuses, heard_fuses, lateMessage_fuses]

/-! ### Machine/FabricLinks -/

@[simp] theorem proposeSwitch_fuses (k : Nat) (s : State) : (proposeSwitch k s).fuses = s.fuses := by
  simp only [proposeSwitch, ite_fuses, sendAgentOn_fuses, onLink_fuses, freeWord_fuses, ite_self]

@[simp] theorem stageDone_fuses (k pair : Nat) (s : State) : (stageDone k pair s).fuses = s.fuses := by
  simp only [stageDone, ite_fuses, attemptFails_fuses, proposeSwitch_fuses, nextStage_fuses, onLink_fuses, ite_self]

@[simp] theorem identityFlit_fuses (k seat peer mode : Nat) (narrow forward : Bool) (pair : Nat) (s : State) :
    (identityFlit k seat peer mode narrow forward pair s).fuses = s.fuses := by
  simp only [identityFlit, ite_fuses, reportFm_fuses, raiseM_fuses, onLink_fuses, ite_self]

@[simp] theorem ethernetUp_fuses (k : Nat) (s : State) : (ethernetUp k s).fuses = s.fuses := by
  simp only [ethernetUp, ite_fuses, rebindFlows_fuses, onLink_fuses, ite_self]

@[simp] theorem ethernetDown_fuses (k : Nat) (s : State) : (ethernetDown k s).fuses = s.fuses := by
  simp only [ethernetDown, ite_fuses, startTraining_fuses, rebindFlows_fuses, leaveFlows_fuses, ite_self]

@[simp] theorem resendAll_fuses (k : Nat) (s : State) : (resendAll k s).fuses = s.fuses := by
  simp only [resendAll, sendFlit_fuses, foldl_fuses, onLink_fuses, implies_true]

@[simp] theorem badFlit_fuses (k : Nat) (s : State) : (badFlit k s).fuses = s.fuses := by
  simp only [badFlit, ite_fuses, failLink_fuses, onLink_fuses, sendIdle_fuses, ite_self]

@[simp] theorem takeHeader_fuses (k : Nat) (w0 w1 : W64) (s : State) : (takeHeader k w0 w1 s).fuses = s.fuses := by
  simp only [takeHeader, ite_fuses, failLink_fuses, onLink_fuses, resendAll_fuses, ite_self]

@[simp] theorem packetLeaves_fuses (k : Nat) (s : State) (p : Packet) : (packetLeaves k s p).fuses = s.fuses := by
  simp only [packetLeaves, ite_fuses, protocolError_fuses, returnVl3_fuses, onLink_fuses, forwardPacket_fuses, ite_self]

@[simp] theorem takeData_fuses (k seq : Nat) (slots : List W64) (s : State) : (takeData k seq slots s).fuses = s.fuses := by
  simp only [takeData, ite_fuses, sendIdle_fuses, packetLeaves_fuses, foldl_fuses, onLink_fuses, implies_true, ite_self]

@[simp] theorem flitReceive_fuses (k : Nat) (words : List W64) (s : State) : (flitReceive k words s).fuses = s.fuses := by
  simp only [flitReceive, ite_fuses, takeHeader_fuses, pumpChunks_fuses, drainAll_fuses, takeData_fuses, badFlit_fuses, ite_self]

@[simp] theorem nakRepeat_fuses (k : Nat) (s : State) : (nakRepeat k s).fuses = s.fuses := by
  simp only [nakRepeat, ite_fuses, sendIdle_fuses, ite_self]

@[simp] theorem heartbeat_fuses (k seat : Nat) (reach : W64) (s : State) : (heartbeat k seat reach s).fuses = s.fuses := by
  simp only [heartbeat, ite_fuses, startTraining_fuses, foldl_fuses, onLink_fuses, ite_self, implies_true]

@[simp] theorem heartbeatTimer_fuses (s : State) : (heartbeatTimer s).fuses = s.fuses := by
  simp only [heartbeatTimer]
  rw [foldl_fuses]
  · simp only [ite_fuses, putPacket_fuses, foldl_fuses, ite_self, implies_true]
  · intro s d
    (repeat' split) <;> simp only [dmtSend_fuses]

@[simp] theorem peerDead_fuses (seat : Nat) (s : State) : (peerDead seat s).fuses = s.fuses := by
  simp only [peerDead]
  split <;> simp only [reportFm_fuses, raiseM_fuses, failLink_fuses, foldl_fuses, implies_true]

@[simp] theorem syncInterval_fuses (t1 : W64) (refs : List Nat) (s : State) : (syncInterval t1 refs s).fuses = s.fuses := by
  simp only [syncInterval]
  (repeat' split) <;> simp only [putPacket_fuses, dmtSend_fuses, raiseM_fuses]

@[simp] theorem syncReq_fuses (k seat : Nat) (t1 t2 t3 : W64) (s : State) : (syncReq k seat t1 t2 t3 s).fuses = s.fuses := by
  simp only [syncReq]
  (repeat' split) <;> simp only [putPacket_fuses, dmtSend_fuses]

@[simp] theorem syncResp_fuses (k seat : Nat) (t1 t2 t3 t4 : W64) (s : State) : (syncResp k seat t1 t2 t3 t4 s).fuses = s.fuses := by
  simp only [syncResp, ite_fuses, exchange_fuses, ite_self]

@[simp] theorem laneLoss_fuses (k lane cause : Nat) (s : State) : (laneLoss k lane cause s).fuses = s.fuses := by
  simp only [laneLoss, ite_fuses, onLink_fuses, failLink_fuses, ite_self]

@[simp] theorem narrowingDone_fuses (k : Nat) (s : State) : (narrowingDone k s).fuses = s.fuses := by
  simp only [narrowingDone, ite_fuses, drainAll_fuses, onLink_fuses, raiseM_fuses, resendAll_fuses, ite_self]

@[simp] theorem narrowingTimeout_fuses (k : Nat) (s : State) : (narrowingTimeout k s).fuses = s.fuses := by
  simp only [narrowingTimeout, ite_fuses, onLink_fuses, failLink_fuses, ite_self]

@[simp] theorem ackTimeout_fuses (k : Nat) (s : State) : (ackTimeout k s).fuses = s.fuses := by
  simp only [ackTimeout, ite_fuses, failLink_fuses, ite_self]

@[simp] theorem handover_fuses (k seq : Nat) (s : State) : (handover k seq s).fuses = s.fuses := by
  simp only [handover, ite_fuses, failLink_fuses, afterDown_fuses, resend_fuses, foldl_fuses, ite_self, implies_true]

@[simp] theorem handoverTimeout_fuses (k : Nat) (s : State) : (handoverTimeout k s).fuses = s.fuses := by
  simp only [handoverTimeout, ite_fuses, abandonRetry_fuses, ite_self]

@[simp] theorem switchPropose_fuses (k : Nat) (count : W64) (s : State) : (switchPropose k count s).fuses = s.fuses := by
  simp only [switchPropose, ite_fuses, sendAgentOn_fuses, onLink_fuses, ite_self]

@[simp] theorem switchAgree_fuses (k : Nat) (count : W64) (s : State) : (switchAgree k count s).fuses = s.fuses := by
  simp only [switchAgree, ite_fuses, onLink_fuses, ite_self]

@[simp] theorem routeSwitch_fuses (s : State) : (routeSwitch s).fuses = s.fuses := by
  simp only [routeSwitch]
  (repeat' split) <;> simp only [pumpChunks_fuses, drainAll_fuses, foldl_fuses, raiseM_fuses, onLink_fuses, flipTables_fuses, implies_true]

@[simp] theorem linkSaturation_fuses (k v : Nat) (s : State) : (linkSaturation k v s).fuses = s.fuses := by
  simp only [linkSaturation]
  (repeat' split) <;> simp only [raiseP_fuses, onLink_fuses]

@[simp] theorem onRx_fuses (part seat cls flow : Nat) (h : RxFlow → RxFlow) (s : State) :
    (onRx part seat cls flow h s).fuses = s.fuses := by
  simp only [onRx, onFab_fuses]

@[simp] theorem sendAck_fuses (k : Nat) (f : RxFlow) (s : State) : (sendAck k f s).fuses = s.fuses := by
  simp only [sendAck, send_fuses, onRx_fuses]

@[simp] theorem deliverSeg_fuses (f : RxFlow) (g : Seg) (s : State) : (deliverSeg f g s).fuses = s.fuses := by
  simp only [deliverSeg]
  (repeat' split) <;> simp only [channelWrite_fuses, chanCredit_fuses]

@[simp] theorem deliverHeld_fuses (part seat cls flow n : Nat) (s : State) : (deliverHeld part seat cls flow n s).fuses = s.fuses := by
  induction n generalizing s with
  | zero => rfl
  | succ n ih =>
    simp only [deliverHeld]
    (repeat' split) <;> simp only [ih, deliverSeg_fuses, onRx_fuses]

@[simp] theorem dmtData_fuses (k : Nat) (d0 d1 h0 h1 : W64) (data : List Byte) (ce : Bool) (s : State) :
    (dmtData k d0 d1 h0 h1 data ce s).fuses = s.fuses := by
  simp only [dmtData]
  split
  · rfl
  · split
    · simp only [onLink_fuses]
    · split
      · simp only [ite_fuses, onFab_fuses, ite_self]
      · split
        · split <;> (try split) <;> simp only [ite_fuses, onLink_fuses, send_fuses, onRx_fuses, onFab_fuses, ite_self]
        · split <;> simp only [ite_fuses, sendAck_fuses, deliverHeld_fuses, onRx_fuses, ite_self] <;>
            split <;> simp only [ite_fuses, send_fuses, onRx_fuses, onFab_fuses, ite_self]

@[simp] theorem dmtAck_fuses (k : Nat) (d0 d1 sack d3 : W64) (s : State) : (dmtAck k d0 d1 sack d3 s).fuses = s.fuses := by
  unfold dmtAck
  split
  · rfl
  · dsimp only
    split
    · rfl
    · simp only [pumpChunks_fuses, pumpFlow_fuses]
      rw [foldl_fuses]
      · simp only [onTx_fuses]
      · exact fun s g => sendSeg_fuses _ _ _ _

@[simp] theorem dmtCnp_fuses (part seat cls flow : Nat) (s : State) : (dmtCnp part seat cls flow s).fuses = s.fuses := by
  simp only [dmtCnp, onTx_fuses]

@[simp] theorem dmtRecovery_fuses (part seat cls flow : Nat) (s : State) : (dmtRecovery part seat cls flow s).fuses = s.fuses := by
  simp only [dmtRecovery, onTx_fuses]

@[simp] theorem dmtRto_fuses (part seat cls flow : Nat) (s : State) : (dmtRto part seat cls flow s).fuses = s.fuses := by
  unfold dmtRto
  split <;> simp only [sendSeg_fuses, foldl_fuses, onTx_fuses, implies_true]

@[simp] theorem dmtAckTimer_fuses (k seat cls flow : Nat) (s : State) : (dmtAckTimer k seat cls flow s).fuses = s.fuses := by
  simp only [dmtAckTimer]
  (repeat' split) <;> simp only [sendAck_fuses]

@[simp] theorem controlFrame_fuses (k kind : Nat) (s : State) : (controlFrame k kind s).fuses = s.fuses := by
  simp only [controlFrame, ite_fuses, send_fuses, onFab_fuses, onLink_fuses, ite_self]

@[simp] theorem fabricManager_fuses (k src : Nat) (m : FmMsg) (s : State) : (fabricManager k src m s).fuses = s.fuses := by
  simp only [fabricManager]
  (repeat' split) <;> simp only [onLink_fuses, enterOrder_fuses, onFab_fuses, pumpAll_fuses]

/-! ### Machine/Reduce -/

@[simp] theorem onRun_fuses (j : Job) (id : Nat) (f : CRun → CRun) (s : State) : (onRun j id f s).fuses = s.fuses := by
  simp only [onRun, onColl_fuses]

@[simp] theorem moveUnit_fuses (j : Job) (id pass chunk : Nat) (s : State) : (moveUnit j id pass chunk s).fuses = s.fuses := by
  simp only [moveUnit]
  (repeat' split) <;> simp only [sendColl_fuses, foldl_fuses, onRun_fuses, implies_true]

@[simp] theorem sendAtomics_fuses (j : Job) (r : CRun) (chunk : Nat) (es : List Nat) (s : State) :
    (sendAtomics j r chunk es s).fuses = s.fuses := by
  simp only [sendAtomics]
  split <;> simp only [stopAt_fuses, issueRequest_fuses, foldl_fuses, onRun_fuses, implies_true]

@[simp] theorem openValues_fuses (j : Job) (id chunk : Nat) (s : State) : (openValues j id chunk s).fuses = s.fuses := by
  simp only [openValues]
  (repeat' split) <;> simp only [onColl_fuses, stopAt_fuses, sendAtomics_fuses, onRun_fuses]

@[simp] theorem sendDone_fuses (j : Job) (id : Nat) (s : State) : (sendDone j id s).fuses = s.fuses := by
  unfold sendDone
  split <;> simp only [ite_fuses, sendColl_fuses, foldl_fuses, onRun_fuses, implies_true, ite_self]

@[simp] theorem readScratch_fuses (j : Job) (id : Nat) (s : State) : (readScratch j id s).fuses = s.fuses := by
  simp only [readScratch]
  split
  · rfl
  · split
    · split
      · rfl
      · refine foldl_fuses _ (fun s i => ?_) _ _
        (repeat' split) <;> simp only [stopAt_fuses, onRun_fuses, sendColl_fuses]
    · rfl

@[simp] theorem landBlocks_fuses (j : Job) (bs : List (Nat × Nat × Nat)) (vals : List Nat) (s : State) :
    (landBlocks j bs vals s).fuses = s.fuses := by
  simp only [landBlocks, store_fuses, foldl_fuses, implies_true]

@[simp] theorem startLanes_fuses (j : Job) (g : Nat) (s : State) : (startLanes j g s).fuses = s.fuses := by
  unfold startLanes
  split <;> simp only [ite_fuses, wakeSerden_fuses, onSeg_fuses, ite_self]

@[simp] theorem landSegments_fuses (j : Job) (r : CRun) (s : State) : (landSegments j r s).fuses = s.fuses := by
  simp only [landSegments, ite_fuses, startLanes_fuses, onColl_fuses, foldl_fuses, ite_self, implies_true]

@[simp] theorem normArrives_fuses (j : Job) (s : State) : (normArrives j s).fuses = s.fuses := by
  simp only [normArrives, ite_fuses, runDeferred_fuses, onJob_fuses, ite_self]

@[simp] theorem countsArrive_fuses (j : Job) (s : State) : (countsArrive j s).fuses = s.fuses := by
  simp only [countsArrive, ite_fuses, startLanes_fuses, foldl_fuses, runDeferred_fuses, implies_true, ite_self]

@[simp] theorem landChunk_fuses (j : Job) (id chunk : Nat) (s : State) : (landChunk j id chunk s).fuses = s.fuses := by
  simp only [landChunk]
  (repeat' split) <;> simp only [landBlocks_fuses, onRun_fuses, onColl_fuses, normArrives_fuses, store_fuses, countsArrive_fuses,
    engineStore_fuses]

@[simp] theorem collDone_fuses (j : Job) (r : CRun) (s : State) : (collDone j r s).fuses = s.fuses := by
  simp only [collDone, onTile_fuses, onColl_fuses]

@[simp] theorem permuteRound_fuses (j : Job) (id k : Nat) (s : State) : (permuteRound j id k s).fuses = s.fuses := by
  simp only [permuteRound]
  split
  · rfl
  · split
    · rfl
    · split
      · exact stopAt_fuses _ _ _ _
      · simp only [onRun_fuses]
        refine SameFuses.trans (countSpill_fuses _ _ _ _ _)
          (((foldl_sameFuses _ (fun s p => ?_) _ _).trans (foldl_sameFuses _ (fun s p => ?_) _ _)).trans
            (foldl_sameFuses _ (fun s x => ?_) _ _))
        · exact engineStore_sameFuses _ _ _ _ _
        · refine ite_sameFuses _ ?_ ?_
          · exact engineStore_sameFuses _ _ _ _ _
          · exact foldl_sameFuses _ (fun s i => sendColl_sameFuses _ _ _ _ _ _ _ _ _ _) _ _
        · exact engineStore_sameFuses _ _ _ _ _

@[simp] theorem permuteData_fuses (j : Job) (r : CRun) (chunk : Nat) (data : List Byte) (s : State) :
    (permuteData j r chunk data s).fuses = s.fuses := by
  simp only [permuteData]
  split <;> simp only [ite_fuses, onRun_fuses, engineStore_fuses, ite_self]

@[simp] theorem startData_fuses (j : Job) (r : CRun) (s : State) : (startData j r s).fuses = s.fuses := by
  simp only [startData, ite_fuses, sendColl_fuses, foldl_fuses, onRun_fuses, engineStore_fuses, countSpill_fuses, implies_true, ite_self]

@[simp] theorem collData_fuses (j : Job) (r : CRun) (ring chunk : Nat) (data : List Byte) (s : State) :
    (collData j r ring chunk data s).fuses = s.fuses := by
  simp only [collData, ite_fuses, sendColl_fuses, foldl_fuses, onRun_fuses, engineStore_fuses, implies_true, ite_self]

@[simp] theorem drainAdds_fuses (j : Job) (g : Nat) (s : State) : (drainAdds j g s).fuses = s.fuses := by
  unfold drainAdds
  split <;> simp only [ite_fuses, feedAdds_fuses, landAdd_fuses, foldl_fuses, implies_true, ite_self]

@[simp] theorem holdSegment_fuses (j : Job) (g : Nat) (s : State) : (holdSegment j g s).fuses = s.fuses := by
  unfold holdSegment
  split <;> simp only [ite_fuses, onSeg_fuses, drainAdds_fuses, clearAcc_fuses, ite_self]

@[simp] theorem holdRange_fuses (j : Job) (r : CRun) (s : State) : (holdRange j r s).fuses = s.fuses := by
  simp only [holdRange, ite_fuses, holdSegment_fuses, foldl_fuses, implies_true, ite_self]

@[simp] theorem startRun_fuses (j : Job) (r : CRun) (s : State) : (startRun j r s).fuses = s.fuses := by
  simp only [startRun]
  (repeat' split) <;> simp only [stopAt_fuses, onRun_fuses, startData_fuses, stopRun_fuses, permuteRound_fuses, countSpill_fuses,
    store_fuses]

@[simp] theorem moveRun_fuses (j : Job) (id : Nat) (s : State) : (moveRun j id s).fuses = s.fuses := by
  simp only [moveRun]
  (repeat' split) <;> simp only [landSegments_fuses, landChunk_fuses, foldl_fuses, moveUnit_fuses, readScratch_fuses, sendDone_fuses,
    openValues_fuses, implies_true]

@[simp] theorem runMessage_fuses (j : Job) (r : CRun) (m : CMsg) (s : State) : (runMessage j r m s).fuses = s.fuses := by
  simp only [runMessage]
  split
  · simp only [onRun_fuses]
  · split
    · simp only [collData_fuses, onRun_fuses]
    · split
      · simp only [permuteData_fuses, onRun_fuses]
      · split
        · simp only [onRun_fuses]
        · simp only [ite_fuses, onRun_fuses, foldl_fuses, sendColl_fuses, implies_true, ite_self]

@[simp] theorem replayEarly_fuses (j : Job) (r : CRun) (s : State) : (replayEarly j r s).fuses = s.fuses := by
  unfold replayEarly
  refine foldl_fuses _ (fun s b => ?_) _ _
  split <;> simp only [runMessage_fuses]

@[simp] theorem settleRun_fuses (id : Nat) (j : Job) (s : State) : (settleRun id j s).fuses = s.fuses := by
  simp only [settleRun]
  (repeat' split) <;> simp only [collDone_fuses, moveRun_fuses, replayEarly_fuses, startRun_fuses]

@[simp] theorem settleRuns_fuses (n : Nat) (j : Job) (s : State) : (settleRuns n j s).fuses = s.fuses := by
  induction n generalizing s with
  | zero => rfl
  | succ n ih => simp only [settleRuns, ih, settleRun_fuses, foldl_fuses, implies_true]

@[simp] theorem settleColl_fuses (j : Job) (s : State) : (settleColl j s).fuses = s.fuses := by simp only [settleColl, settleRuns_fuses]

/-! ### Machine/Agents -/

@[simp] theorem onAdvice_fuses (j : Job) (mi : Nat) (f : Advice → Advice) (s : State) : (onAdvice j mi f s).fuses = s.fuses := by
  simp only [onAdvice, onJob_fuses]

@[simp] theorem computeAdvice_fuses (j : Job) (mi : Nat) (s : State) : (computeAdvice j mi s).fuses = s.fuses := by
  simp only [computeAdvice, ite_fuses, raiseJ_fuses, reportFm_fuses, onAdvice_fuses, ite_self]

@[simp] theorem exchangeAdvice_fuses (j : Job) (mi : Nat) (s : State) : (exchangeAdvice j mi s).fuses = s.fuses := by
  simp only [exchangeAdvice, computeAdvice_fuses, ite_fuses, sendAgent_fuses, foldl_fuses, onAdvice_fuses, implies_true, ite_self]

@[simp] theorem adviceCommit_fuses (j : Job) (s : State) : (adviceCommit j s).fuses = s.fuses := by
  simp only [adviceCommit, ite_fuses, exchangeAdvice_fuses, onAdvice_fuses, foldl_fuses, ite_self, implies_true]

@[simp] theorem adviceSkip_fuses (j : Job) (s : State) : (adviceSkip j s).fuses = s.fuses := by simp only [adviceSkip, onJob_fuses]

@[simp] theorem adviceArrives_fuses (k : Nat) (words : List W64) (s : State) : (adviceArrives k words s).fuses = s.fuses := by
  simp only [adviceArrives]
  (repeat' split) <;> simp only [computeAdvice_fuses, onAdvice_fuses]

/-! ### Machine/PowerUp -/

@[simp] theorem startWake_fuses (s : State) : (startWake s).fuses = s.fuses := by simp only [startWake]

@[simp] theorem failAttempt_fuses (step attempt cause : Nat) (rail : Option Nat) (s : State) :
    (failAttempt step attempt cause rail s).fuses = s.fuses := by
  simp only [failAttempt]

@[simp] theorem releaseSecurityCore_fuses (s : State) : (releaseSecurityCore s).fuses = s.fuses := by
  simp only [releaseSecurityCore, volatileReset_fuses]

@[simp] theorem powerDown_fuses (s : State) : (powerDown s).fuses = s.fuses := by
  simp only [powerDown, volatileReset_fuses, writeBackup_fuses]

@[simp] theorem warmReset_fuses (s : State) : (warmReset s).fuses = s.fuses := by
  simp only [warmReset, releaseSecurityCore_fuses, writeBackup_fuses]

@[simp] theorem feedApplied_fuses (feed mv straps : Nat) (s : State) : (feedApplied feed mv straps s).fuses = s.fuses := by
  simp only [feedApplied]
  split <;> simp only [ite_fuses, ite_self]

@[simp] theorem pwrEnAssert_fuses (downRunning : Bool) (s : State) : (pwrEnAssert downRunning s).fuses = s.fuses := by
  simp only [pwrEnAssert]
  (repeat' split) <;> simp only [startWake_fuses]

@[simp] theorem pwrEnDeassert_fuses (s : State) : (pwrEnDeassert s).fuses = s.fuses := by
  simp only [pwrEnDeassert]
  (repeat' split) <;> simp only [powerDown_fuses]

@[simp] theorem wakeReady_fuses (s : State) : (wakeReady s).fuses = s.fuses := by
  simp only [wakeReady]
  (repeat' split) <;> simp only [releaseSecurityCore_fuses]

@[simp] theorem wakeTimeout_fuses (rail : Nat) (s : State) : (wakeTimeout rail s).fuses = s.fuses := by
  unfold wakeTimeout
  split <;> simp only [failAttempt_fuses]

@[simp] theorem wakeRailFault_fuses (rail : Nat) (s : State) : (wakeRailFault rail s).fuses = s.fuses := by
  unfold wakeRailFault
  split <;> simp only [ite_fuses, failAttempt_fuses, ite_self]

@[simp] theorem wakeRetry_fuses (s : State) : (wakeRetry s).fuses = s.fuses := by
  unfold wakeRetry
  split <;> rfl

@[simp] theorem railFaultRunning_fuses (rail : Nat) (s : State) : (railFaultRunning rail s).fuses = s.fuses := by
  unfold railFaultRunning
  split <;> simp only [powerDown_fuses]

@[simp] theorem powerLoss_fuses (mv0 mv1 mv2 : Nat) (s : State) : (powerLoss mv0 mv1 mv2 s).fuses = s.fuses := by
  simp only [powerLoss, ite_fuses, powerDown_fuses, logEvent_fuses, onSelector_fuses, ite_self]

@[simp] theorem supplyToCell_fuses (mv0 mv1 mv2 : Nat) (s : State) : (supplyToCell mv0 mv1 mv2 s).fuses = s.fuses := by
  simp only [supplyToCell, onSelector_fuses, ite_fuses, ite_self]

@[simp] theorem supplyQualified_fuses (s : State) : (supplyQualified s).fuses = s.fuses := by simp only [supplyQualified, onSelector_fuses]

@[simp] theorem aonLost_fuses (s : State) : (aonLost s).fuses = s.fuses := by simp only [aonLost]

@[simp] theorem supplyDone_fuses (s : State) : (supplyDone s).fuses = s.fuses := by
  simp only [supplyDone, ite_fuses, aonLost_fuses, onSelector_fuses, ite_self]

@[simp] theorem cellLevel_fuses (level : CellLevel) (s : State) : (cellLevel level s).fuses = s.fuses := by
  simp only [cellLevel, ite_fuses, raiseM_fuses, ite_self]

@[simp] theorem thermalTrip_fuses (sensor : Nat) (s : State) : (thermalTrip sensor s).fuses = s.fuses := by
  unfold thermalTrip
  split <;> simp only [powerDown_fuses, logEvent_fuses]

@[simp] theorem thermtripRelease_fuses (s : State) : (thermtripRelease s).fuses = s.fuses := by
  simp only [thermtripRelease, ite_fuses, ite_self]

@[simp] theorem wakeAfterPowerDown_fuses (s : State) : (wakeAfterPowerDown s).fuses = s.fuses := by
  simp only [wakeAfterPowerDown]
  (repeat' split) <;> simp only [startWake_fuses]

@[simp] theorem retentionDip_fuses (toZero : Bool) (s : State) : (retentionDip toZero s).fuses = s.fuses := by
  simp only [retentionDip, ite_fuses, aonLost_fuses, ite_self]

@[simp] theorem moduleResetNow_fuses (s : State) : (moduleResetNow s).fuses = s.fuses := by
  unfold moduleResetNow
  split <;> simp only [warmReset_fuses, logEvent_fuses, freeWord_fuses]

/-! ### Machine/Boot -/

@[simp] theorem bootStep1_fuses (s : State) : (bootStep1 s).fuses = s.fuses := by simp only [bootStep1, ite_fuses, raiseM_fuses, ite_self]

@[simp] theorem rollback_fuses (cause : Nat) (s : State) : (rollback cause s).fuses = s.fuses := by
  simp only [rollback, setStage_fuses, writeHeader_fuses, raiseM_fuses]

@[simp] theorem trialBoot_fuses (s : State) : (trialBoot s).fuses = s.fuses := by simp only [trialBoot, writeJournal_fuses]

@[simp] theorem measure_fuses (fw bp : Digest) (s : State) : (measure fw bp s).fuses = s.fuses := by simp only [measure]

@[simp] theorem lockBlueprint_fuses (bp : Blueprint) (slot : Bool) (state : Nat) (s : State) :
    (lockBlueprint bp slot state s).fuses = s.fuses := by
  simp only [lockBlueprint, judgeClkmon_fuses, ite_fuses, refDisqualified_fuses, ite_self]

@[simp] theorem firmwareStart_fuses (s : State) : (firmwareStart s).fuses = s.fuses := by
  simp only [firmwareStart, ite_fuses, raiseM_fuses, setStage_fuses, ite_self]

@[simp] theorem enterShelf_fuses (h : Header) (s : State) : (enterShelf h s).fuses = s.fuses := by
  simp only [enterShelf, firmwareStart_fuses]

@[simp] theorem bootBlueprint_fuses (h : Header) (fwDigest : Digest) (s : State) : (bootBlueprint h fwDigest s).fuses = s.fuses := by
  simp only [bootBlueprint]
  (repeat' split) <;> simp only [measure_fuses, lockBlueprint_fuses, raiseM_fuses, rollback_fuses, enterShelf_fuses]

/-! ### Machine/Sparing -/

@[simp] theorem onSpare_fuses (c : Nat) (f : Spare → Spare) (s : State) : (onSpare c f s).fuses = s.fuses := rfl

@[simp] theorem onRunningTile_fuses (t : Nat) (f : JobTile → JobTile) (s : State) : (onRunningTile t f s).fuses = s.fuses := by
  simp only [onRunningTile]

@[simp] theorem holdTile_fuses (t : Nat) (s : State) : (holdTile t s).fuses = s.fuses := by simp only [holdTile, onRunningTile_fuses]

@[simp] theorem resumeTile_fuses (t : Nat) (s : State) : (resumeTile t s).fuses = s.fuses := by
  simp only [resumeTile, ite_fuses, startOps_fuses, onRunningTile_fuses, ite_self]

@[simp] theorem moveOps_fuses (t core : Nat) (s : State) : (moveOps t core s).fuses = s.fuses := by
  simp only [moveOps, ite_fuses, startArrays_fuses, stopArrays_fuses, onRunningTile_fuses, ite_self]

@[simp] theorem resume_fuses (t : Option Nat) (s : State) : (resume t s).fuses = s.fuses := by
  unfold resume
  split <;> simp only [resumeTile_fuses]

@[simp] theorem holdAtStart_fuses (j : Job) (s : State) : (holdAtStart j s).fuses = s.fuses := by
  simp only [holdAtStart, ite_fuses, onTile_fuses, foldl_fuses, ite_self, implies_true]

@[simp] theorem takeOut_fuses (u : TestUnit) (s : State) : (takeOut u s).fuses = s.fuses := by
  simp only [takeOut, ite_fuses, onFaults_fuses, ite_self]

@[simp] theorem coreOut_fuses (c : Nat) (s : State) : (coreOut c s).fuses = s.fuses := by
  simp only [coreOut, ite_fuses, onSpare_fuses, takeOut_fuses, onFaults_fuses, ite_self]

@[simp] theorem clearSlice_fuses (c : Nat) (s : State) : (clearSlice c s).fuses = s.fuses := by simp only [clearSlice, ite_fuses, ite_self]

@[simp] theorem enterSpare_fuses (sp pos : Nat) (tile : Option Nat) (kind : SwapKind) (s : State) :
    (enterSpare sp pos tile kind s).fuses = s.fuses := by
  simp only [enterSpare, clearSlice_fuses, onFaults_fuses, onSpare_fuses]

@[simp] theorem noSpareLeft_fuses (pos : Nat) (tile : Option Nat) (kind : SwapKind) (s : State) :
    (noSpareLeft pos tile kind s).fuses = s.fuses := by
  simp only [noSpareLeft]
  (repeat' split) <;> simp only [resume_fuses, onFaults_fuses, raiseM_fuses, moveOps_fuses, failLost_fuses]

@[simp] theorem beginSwap_fuses (pos : Nat) (tile : Option Nat) (kind : SwapKind) (s : State) :
    (beginSwap pos tile kind s).fuses = s.fuses := by
  unfold beginSwap
  split <;> simp only [enterSpare_fuses, noSpareLeft_fuses]

@[simp] theorem startDeferred_fuses (n : Nat) (s : State) : (startDeferred n s).fuses = s.fuses := by
  simp only [startDeferred, holdTile_fuses, enterSpare_fuses, coreOut_fuses, foldl_fuses, implies_true]

/-! ### Machine/StepCommit -/

@[simp] theorem onVote_fuses (j : Job) (f : VoteRun → VoteRun) (s : State) : (onVote j f s).fuses = s.fuses := by
  simp only [onVote, onColl_fuses]

@[simp] theorem sendVote_fuses (j : Job) (rank ctype round : Nat) (words : List W64) (s : State) :
    (sendVote j rank ctype round words s).fuses = s.fuses := by
  simp only [sendVote, sendColl_fuses]

@[simp] theorem holdDecision_fuses (j : Job) (d : Decision) (s : State) : (holdDecision j d s).fuses = s.fuses := by
  simp only [holdDecision, sendVote_fuses, foldl_fuses, commitAt_fuses, onColl_fuses, implies_true]

@[simp] theorem makeDecision_fuses (j : Job) (d : Decision) (s : State) : (makeDecision j d s).fuses = s.fuses := by
  simp only [makeDecision, ite_fuses, sendVote_fuses, holdDecision_fuses, ite_self]

@[simp] theorem tryDecide_fuses (j : Job) (s : State) : (tryDecide j s).fuses = s.fuses := by
  simp only [tryDecide]
  split <;> simp only [ite_fuses, makeDecision_fuses, sendVote_fuses, onVote_fuses, ite_self]

@[simp] theorem tryCombine_fuses (j : Job) (s : State) : (tryCombine j s).fuses = s.fuses := by
  simp only [tryCombine]
  split <;> simp only [ite_fuses, tryDecide_fuses, onVote_fuses, sendVote_fuses, ite_self]

@[simp] theorem contribute_fuses (j : Job) (r : VoteRec) (s : State) : (contribute j r s).fuses = s.fuses := by
  simp only [contribute, tryCombine_fuses, onVote_fuses]

@[simp] theorem settleVotes_fuses (j : Job) (s : State) : (settleVotes j s).fuses = s.fuses := by
  simp only [settleVotes, ite_fuses, collDone_fuses, contribute_fuses, foldl_fuses, ite_self, implies_true]

@[simp] theorem sendAbout_fuses (j : Job) (seg rank ctype chunk : Nat) (data : List Byte) (s : State) :
    (sendAbout j seg rank ctype chunk data s).fuses = s.fuses := by
  simp only [sendAbout, sendColl_fuses]

@[simp] theorem failRepair_fuses (j : Job) (r : Repair) (s : State) : (failRepair j r s).fuses = s.fuses := by
  simp only [failRepair]
  split <;> simp only [stopRun_fuses, raiseM_fuses, freeWord_fuses, onColl_fuses]

@[simp] theorem beginRepair_fuses (n : Nat) (j : Job) (s : State) : (beginRepair n j s).fuses = s.fuses := by
  induction n generalizing j s with
  | zero => rfl
  | succ n ih =>
    simp only [beginRepair]
    split
    · rfl
    · simp only [ih, ite_fuses, onColl_fuses, failRepair_fuses, sendAbout_fuses, restoreBegin_fuses, ite_self]

@[simp] theorem pumpRepairs_fuses (j : Job) (s : State) : (pumpRepairs j s).fuses = s.fuses := by simp only [pumpRepairs, beginRepair_fuses]

@[simp] theorem addRepair_fuses (j : Job) (r : Repair) (s : State) : (addRepair j r s).fuses = s.fuses := by
  simp only [addRepair, onColl_fuses]

@[simp] theorem cleanRange_fuses (r : Nat × Nat) (s : State) : (cleanRange r s).fuses = s.fuses := by simp only [cleanRange]

@[simp] theorem finishRepair_fuses (j : Job) (r : Repair) (s : State) : (finishRepair j r s).fuses = s.fuses := by
  simp only [finishRepair]
  split <;> simp only [ite_fuses, cleanRange_fuses, onColl_fuses, restoreEnd_fuses, onSeg_fuses, foldl_fuses, implies_true, ite_self]

@[simp] theorem repairData_fuses (j : Job) (r : Repair) (chunk : Nat) (data : List Byte) (s : State) :
    (repairData j r chunk data s).fuses = s.fuses := by
  unfold repairData
  split <;> simp only [ite_fuses, finishRepair_fuses, onColl_fuses, ite_self]

@[simp] theorem serveAsks_fuses (j : Job) (s : State) : (serveAsks j s).fuses = s.fuses := by
  simp only [serveAsks]
  rw [foldl_fuses]
  · simp only [onColl_fuses]
  · intro s a
    (repeat' split) <;> simp only [sendAbout_fuses, stopAt_fuses, foldl_fuses, implies_true]

@[simp] theorem writeCommitRecord_fuses (j : Job) (a : Applied) (s : State) : (writeCommitRecord j a s).fuses = s.fuses := by
  simp only [writeCommitRecord, ite_fuses, storeWords_fuses, onColl_fuses, ite_self]

@[simp] theorem tryRetry_fuses (j : Job) (s : State) : (tryRetry j s).fuses = s.fuses := by
  simp only [tryRetry]
  (repeat' split) <;> simp only [contribute_fuses, startUpdate_fuses, foldl_fuses, onColl_fuses, writeCommitRecord_fuses, implies_true]

@[simp] theorem roundRepairs_fuses (j : Job) (s : State) : (roundRepairs j s).fuses = s.fuses := by
  simp only [roundRepairs, pumpRepairs_fuses, ite_fuses, addRepair_fuses, foldl_fuses, ite_self, implies_true]

@[simp] theorem applyStep_fuses (part num : Nat) (s : State) : (applyStep part num s).fuses = s.fuses := by
  simp only [applyStep]
  split
  · rfl
  · split
    · rfl
    · split
      · rfl
      · split
        · simp only [startDeferred_fuses, ite_fuses, adviceCommit_fuses, adviceSkip_fuses, onJob_fuses, applyOutcome_fuses, ite_self]
        · simp only [ite_fuses, roundRepairs_fuses, stopRun_fuses, raiseM_fuses, onColl_fuses, writeCommitRecord_fuses, raiseJ_fuses,
            startDeferred_fuses, adviceCommit_fuses, adviceSkip_fuses, onJob_fuses, applyOutcome_fuses, ite_self]

@[simp] theorem stepRepairs_fuses (j : Job) (s : State) : (stepRepairs j s).fuses = s.fuses := by
  simp only [stepRepairs, pumpRepairs_fuses, ite_fuses, addRepair_fuses, foldl_fuses, ite_self, implies_true]

@[simp] theorem sendDigests_fuses (j : Job) (s : State) : (sendDigests j s).fuses = s.fuses := by
  simp only [sendDigests, ite_fuses, sendAbout_fuses, foldl_fuses, ite_self, implies_true]

@[simp] theorem releaseStep_fuses (part num : Nat) (s : State) : (releaseStep part num s).fuses = s.fuses := by
  simp only [releaseStep]
  (repeat' split) <;> simp only [sendDigests_fuses, onJob_fuses, onColl_fuses, writeCommitRecord_fuses, stepRepairs_fuses]

@[simp] theorem digestMismatch_fuses (j : Job) (seg rank : Nat) (s : State) : (digestMismatch j seg rank s).fuses = s.fuses := by
  simp only [digestMismatch, reportFm_fuses, raiseM_fuses]

@[simp] theorem digestMessage_fuses (j : Job) (m : CMsg) (s : State) : (digestMessage j m s).fuses = s.fuses := by
  simp only [digestMessage]
  (repeat' split) <;> simp only [serveAsks_fuses, onColl_fuses, digestMismatch_fuses, sendAbout_fuses, failRepair_fuses]

@[simp] theorem voteMessage_fuses (j : Job) (m : CMsg) (s : State) : (voteMessage j m s).fuses = s.fuses := by
  simp only [voteMessage, ite_fuses, collLate_fuses, tryDecide_fuses, onVote_fuses, tryCombine_fuses, onColl_fuses, ite_self]

@[simp] theorem decisionMessage_fuses (j : Job) (m : CMsg) (s : State) : (decisionMessage j m s).fuses = s.fuses := by
  simp only [decisionMessage, ite_fuses, collLate_fuses, onColl_fuses, sendVote_fuses, onVote_fuses, applyStep_fuses, holdDecision_fuses,
    ite_self]

@[simp] theorem ackMessage_fuses (j : Job) (m : CMsg) (s : State) : (ackMessage j m s).fuses = s.fuses := by
  unfold ackMessage
  split <;> simp only [ite_fuses, makeDecision_fuses, collLate_fuses, ite_self]

@[simp] theorem queryMessage_fuses (j : Job) (m : CMsg) (s : State) : (queryMessage j m s).fuses = s.fuses := by
  simp only [queryMessage]
  (repeat' split) <;> simp only [sendVote_fuses, onColl_fuses]

@[simp] theorem takeStepMessage_fuses (j : Job) (m : CMsg) (s : State) : (takeStepMessage j m s).fuses = s.fuses := by
  simp only [takeStepMessage]
  (repeat' split) <;> simp only [voteMessage_fuses, decisionMessage_fuses, ackMessage_fuses, queryMessage_fuses, onColl_fuses,
    digestMessage_fuses, serveAsks_fuses, runMessage_fuses, repairData_fuses]

@[simp] theorem takeEarly_fuses (j : Job) (s : State) : (takeEarly j s).fuses = s.fuses := by
  simp only [takeEarly, takeStepMessage_fuses, foldl_fuses, onColl_fuses, implies_true]

@[simp] theorem settleStep_fuses (j : Job) (s : State) : (settleStep j s).fuses = s.fuses := by
  simp only [settleStep, tryRetry_fuses, pumpRepairs_fuses, serveAsks_fuses, takeEarly_fuses, settleColl_fuses, settleVotes_fuses]

@[simp] theorem collMessage_fuses (ctype link : Nat) (h0 h1 : W64) (data : List Byte) (s : State) :
    (collMessage ctype link h0 h1 data s).fuses = s.fuses := by
  simp only [collMessage]
  (repeat' split) <;> simp only [onPart_fuses, settleStep_fuses, collLate_fuses, queryMessage_fuses, onColl_fuses, takeStepMessage_fuses]

@[simp] theorem voteTimeout_fuses (part num : Nat) (s : State) : (voteTimeout part num s).fuses = s.fuses := by
  unfold voteTimeout
  split <;> simp only [ite_fuses, settleStep_fuses, tryCombine_fuses, onVote_fuses, ite_self]

@[simp] theorem queryTimeout_fuses (part num : Nat) (s : State) : (queryTimeout part num s).fuses = s.fuses := by
  unfold queryTimeout
  split <;> simp only [ite_fuses, onVote_fuses, sendVote_fuses, ite_self]

@[simp] theorem permuteRoundEnd_fuses (part num cd : Nat) (s : State) : (permuteRoundEnd part num cd s).fuses = s.fuses := by
  simp only [permuteRoundEnd]
  (repeat' split) <;> simp only [settleStep_fuses, permuteRound_fuses, onRun_fuses]

@[simp] theorem coll_fuses (op t : Nat) (c : Ctx) (waits : List (Nat × Nat)) (s : State) : (coll op t c waits s).fuses = s.fuses := by
  simp only [coll, settleStep_fuses, holdRange_fuses, onColl_fuses, onTile_fuses, whenRequested_fuses, implies_true]

@[simp] theorem settleParts_fuses (link : Nat) (s : State) : (settleParts link s).fuses = s.fuses := by
  unfold settleParts
  split <;> simp only [settleStep_fuses, foldl_fuses, implies_true]

@[simp] theorem decideAll_fuses (s : State) : (decideAll s).fuses = s.fuses := by
  simp only [decideAll, settleStep_fuses, tryDecide_fuses, foldl_fuses, implies_true]

@[simp] theorem applyDue_fuses (before s : State) : (applyDue before s).fuses = s.fuses := by
  unfold applyDue
  split
  · rfl
  · refine foldl_fuses _ (fun s j => ?_) _ _
    (repeat' split) <;> simp only [settleStep_fuses, applyStep_fuses]

/-! ### Machine/Power -/

@[simp] theorem powerSample_fuses (watts : Nat) (s : State) : (powerSample watts s).fuses = s.fuses := by
  simp only [powerSample, ite_fuses, raiseM_fuses, ite_self]

@[simp] theorem applyShares_fuses (s : State) : (applyShares s).fuses = s.fuses := by simp only [applyShares]

@[simp] theorem writeShares_fuses (gov serden : List Nat) (s : State) : (writeShares gov serden s).fuses = s.fuses := by
  simp only [writeShares, applyShares_fuses]

@[simp] theorem governorTick_fuses (fixedMw : Nat) (seen : List PhaseSeen) (s : State) : (governorTick fixedMw seen s).fuses = s.fuses := by
  simp only [governorTick, writeShares_fuses, ite_fuses, ite_self]

@[simp] theorem planStep_fuses (n : Nat) (s : State) : (planStep n s).fuses = s.fuses := by simp only [planStep, ite_fuses, ite_self]

@[simp] theorem shareWatchdog_fuses (s : State) : (shareWatchdog s).fuses = s.fuses := by simp only [shareWatchdog, raiseM_fuses]

@[simp] theorem moveOp_fuses (index pause : Nat) (s : State) : (moveOp index pause s).fuses = s.fuses := by
  simp only [moveOp, opTarget_fuses, ite_fuses, ite_self]

@[simp] theorem opDecision_fuses (predicted pause : Nat) (s : State) : (opDecision predicted pause s).fuses = s.fuses := by
  simp only [opDecision, ite_fuses, moveOp_fuses, ite_self]

@[simp] theorem droop_fuses (c belowMv cycles : Nat) (s : State) : (droop c belowMv cycles s).fuses = s.fuses := by
  simp only [droop, ite_fuses, raiseM_fuses, ite_self]

@[simp] theorem stackUpdate_fuses (s : State) (i : Nat) : (stackUpdate s i).fuses = s.fuses := by
  simp only [stackUpdate, ite_fuses, raiseM_fuses, ite_self]

@[simp] theorem thermalUpdate_fuses (readings : List Nat) (pause : Nat) (s : State) : (thermalUpdate readings pause s).fuses = s.fuses := by
  simp only [thermalUpdate, applyShares_fuses, ite_fuses, opTarget_fuses, stackUpdate_fuses, foldl_fuses, raiseM_fuses, implies_true,
    ite_self]

@[simp] theorem hotThrottle_fuses (pause : Nat) (s : State) : (hotThrottle pause s).fuses = s.fuses := by
  simp only [hotThrottle, ite_fuses, moveOp_fuses, ite_self]

/-! ### Machine/Runs -/

@[simp] theorem endWith_fuses (port q seq status : Nat) (s : State) : (endWith port q seq status s).fuses = s.fuses := by
  simp only [endWith, endCommand_fuses]

@[simp] theorem jobRefused_fuses (n num unit stage typ index : Nat) (s : State) :
    (jobRefused n num unit stage typ index s).fuses = s.fuses := by
  simp only [jobRefused, raiseP_fuses]

@[simp] theorem resetAudits_fuses (n : Nat) (s : State) : (resetAudits n s).fuses = s.fuses := by
  unfold resetAudits
  rw [foldl_fuses]
  exact fun s c => onPool_fuses s _ _

@[simp] theorem setUpRun_fuses (j : Job) (r : Run) (table : Option OptTable) (segs : List (List W64)) (s : State) :
    (setUpRun j r table segs s).fuses = s.fuses := by
  simp only [setUpRun, resetAudits_fuses, onJob_fuses]

@[simp] theorem askRegion_fuses (j : Job) (s : State) (p : Nat × Nat) : (askRegion j s p).fuses = s.fuses := by
  simp only [askRegion]
  (repeat' split) <;> simp only [onJob_fuses, onFab_fuses, sendAgent_fuses]

@[simp] theorem sendDeclaration_fuses (n seat : Nat) (words : List W64) (s : State) : (sendDeclaration n seat words s).fuses = s.fuses := by
  simp only [sendDeclaration, ite_fuses, sendAgent_fuses, dmtSend_fuses, ite_self]

@[simp] theorem declare_fuses (j : Job) (s : State) : (declare j s).fuses = s.fuses := by
  simp only [declare, ite_fuses]
  split
  · rw [foldl_fuses]
    · simp only [sendDeclaration_fuses, foldl_fuses, implies_true]
    · intro s h
      split <;> simp only [sendDeclaration_fuses]
  · simp only [sendDeclaration_fuses, foldl_fuses, implies_true]
    rw [foldl_fuses]
    · simp only [sendDeclaration_fuses, foldl_fuses, implies_true]
    · intro s h
      split <;> simp only [sendDeclaration_fuses]

@[simp] theorem clearHeld_fuses (j : Job) (s : State) : (clearHeld j s).fuses = s.fuses := by
  simp only [clearHeld, ite_fuses, onColl_fuses, onSeg_fuses, emitCopy_fuses, foldl_fuses, clearAcc_fuses, implies_true, ite_self]

@[simp] theorem startRepairs_fuses (j : Job) (s : State) : (startRepairs j s).fuses = s.fuses := by
  simp only [startRepairs, ite_fuses, pumpRepairs_fuses, addRepair_fuses, foldl_fuses, onColl_fuses, stepRepairs_fuses, implies_true,
    ite_self]

@[simp] theorem beginRun_fuses (j : Job) (count : W64) (late : Bool) (s : State) : (beginRun j count late s).fuses = s.fuses := by
  simp only [beginRun]
  (repeat' split) <;> simp only [planStep_fuses, holdAtStart_fuses, raiseJ_fuses, onPart_fuses, foldl_fuses, onColl_fuses,
    writeCommitRecord_fuses, onJob_fuses, implies_true]

theorem learnCount_fuses {j : Job} {r : Run} {s t : State} {c : W64} (h : learnCount j r s = some (c, t)) : t.fuses = s.fuses := by
  simp only [learnCount, freeWord] at h
  (repeat' split at h) <;> cases h <;> simp only [onJob_fuses]

@[simp] theorem tryBegin_fuses (j : Job) (s : State) : (tryBegin j s).fuses = s.fuses := by
  simp only [tryBegin]
  split
  · rfl
  · split
    · rfl
    · split
      · simp only [completeRun_fuses]
      · split
        · rfl
        · split
          · rfl
          · next h => simp only [learnCount_fuses h, ite_fuses, beginRun_fuses, onJob_fuses, ite_self]

@[simp] theorem tryBeginAll_fuses (s : State) : (tryBeginAll s).fuses = s.fuses := by
  simp only [tryBeginAll, tryBegin_fuses, foldl_fuses, implies_true]

@[simp] theorem resolveFailed_fuses (j : Job) (p : Nat × Nat) (s : State) : (resolveFailed j p s).fuses = s.fuses := by
  simp only [resolveFailed, raiseJ_fuses]

@[simp] theorem launch_fuses (j : Job) (r : Run) (table : Option OptTable) (segs : List (List W64)) (s : State) :
    (launch j r table segs s).fuses = s.fuses := by
  simp only [launch, tryBegin_fuses, startRepairs_fuses, declare_fuses, askRegion_fuses, foldl_fuses, onJob_fuses, clearHeld_fuses,
    setUpRun_fuses, ite_fuses, onFab_fuses, restartFlows_fuses, implies_true, ite_self]

@[simp] theorem runStart_fuses (port q seq : Nat) (s : State) : (runStart port q seq s).fuses = s.fuses := by
  simp only [runStart]
  (repeat' split) <;> simp only [endWith_fuses, startDeferred_fuses, jobRefused_fuses, resolveFailed_fuses, launch_fuses]

@[simp] theorem resolveArrives_fuses (k member key : Nat) (s : State) : (resolveArrives k member key s).fuses = s.fuses := by
  simp only [resolveArrives]
  (repeat' split) <;> simp only [sendAgent_fuses]

@[simp] theorem resolveReply_fuses (k member key base size perm : Nat) (s : State) :
    (resolveReply k member key base size perm s).fuses = s.fuses := by
  simp only [resolveReply]
  split
  · rfl
  · rw [foldl_fuses]
    · simp only [onFab_fuses]
    · intro s q
      split <;> simp only [tryBegin_fuses, onJob_fuses]

@[simp] theorem resolveTimeout_fuses (part num : Nat) (s : State) : (resolveTimeout part num s).fuses = s.fuses := by
  unfold resolveTimeout
  split <;> simp only [ite_fuses, completeRun_fuses, resolveFailed_fuses, ite_self]

@[simp] theorem declareArrives_fuses (k : Nat) (d : Declared) (s : State) : (declareArrives k d s).fuses = s.fuses := by
  simp only [declareArrives]
  (repeat' split) <;> simp only [tryBegin_fuses, sendDeclaration_fuses, foldl_fuses, onJob_fuses, implies_true]

@[simp] theorem curtainReached_fuses (count : W64) (s : State) : (curtainReached count s).fuses = s.fuses := by
  simp only [curtainReached, ite_fuses, planStep_fuses, foldl_fuses, tryBeginAll_fuses, ite_self, implies_true]

@[simp] theorem repairMessage_fuses (ctype link : Nat) (h0 h1 : W64) (data : List Byte) (s : State) :
    (repairMessage ctype link h0 h1 data s).fuses = s.fuses := by
  simp only [repairMessage, tryBeginAll_fuses, collMessage_fuses]

@[simp] theorem updateDone_fuses (part num i : Nat) (failed : Option Nat) (s : State) :
    (updateDone part num i failed s).fuses = s.fuses := by
  simp only [updateDone]
  split <;> simp only [ite_fuses, tryBegin_fuses, segmentDone_fuses, stepRepairs_fuses, ite_self]

/-! ### Machine/DeadTargets -/

@[simp] theorem deadTargetCheck_fuses (s : State) : (deadTargetCheck s).fuses = s.fuses := by
  simp only [deadTargetCheck, teardown_fuses, foldl_fuses, implies_true]

@[simp] theorem report_fuses (k : Nat) (m : Relay) (s : State) : (report k m s).fuses = s.fuses := by
  unfold report
  split <;> simp only [reportFm_fuses, tryBeginAll_fuses, fabricManager_fuses]

/-! ### Machine/Mailboxes -/

@[simp] theorem mailAccessError_fuses (mid c offset : Nat) (s : State) : (mailAccessError mid c offset s).fuses = s.fuses := by
  simp only [mailAccessError]
  (repeat' split) <;> simp only [hostAccessError_fuses, raiseP_fuses, raiseM_fuses]

@[simp] theorem mbSend_fuses (mid c len : Nat) (s : State) : (mbSend mid c len s).fuses = s.fuses := by
  simp only [mbSend, ite_fuses, postMessage_fuses, onChan_fuses, mailAccessError_fuses, ite_self]

@[simp] theorem mbData_fuses (mid c off : Nat) (data : List Byte) (s : State) : (mbData mid c off data s).fuses = s.fuses := by
  simp only [mbData, ite_fuses, send_fuses, onChan_fuses, mailAccessError_fuses, ite_self]

@[simp] theorem pumpReplies_fuses (c : Nat) (s : State) : (pumpReplies c s).fuses = s.fuses := by
  unfold pumpReplies
  split <;> simp only [ite_fuses, postMessage_fuses, onChan_fuses, ite_self]

@[simp] theorem takeMessage_fuses (c : Nat) (s : State) : (takeMessage c s).fuses = s.fuses := by
  simp only [takeMessage]
  (repeat' split) <;> simp only [pumpReplies_fuses, msix_fuses, onChan_fuses]

@[simp] theorem mbTake_fuses (mid c : Nat) (s : State) : (mbTake mid c s).fuses = s.fuses := by
  simp only [mbTake, ite_fuses, takeMessage_fuses, send_fuses, ite_self]

/-! ### Machine/HostControl -/

@[simp] theorem answer_fuses (c : Nat) (m : ControlMsg) (status : Nat) (body : List W64) (s : State) :
    (answer c m status body s).fuses = s.fuses := by
  unfold answer
  split <;> simp only [reply_fuses]

@[simp] theorem control_fuses (c type : Nat) (needsSubmit : Bool) (err : ControlMsg → State → List W64)
    (act : ControlMsg → State → State) (hact : ∀ m s, (act m s).fuses = s.fuses) (s : State) :
    (control c type needsSubmit err act s).fuses = s.fuses := by
  simp only [control]
  (repeat' split) <;> simp only [hact, answer_fuses, takeMessage_fuses]

@[simp] theorem controlMalformed_fuses (c : Nat) (s : State) : (controlMalformed c s).fuses = s.fuses := by
  unfold controlMalformed
  split <;> simp only [ite_fuses, hostAccessError_fuses, takeMessage_fuses, answer_fuses, ite_self]

@[simp] theorem qpCreate_fuses (c : Nat) (m : ControlMsg) (s : State) : (qpCreate c m s).fuses = s.fuses := by
  simp only [qpCreate, ite_fuses, answer_fuses, onPort_fuses, ite_self]

@[simp] theorem qpDelete_fuses (c : Nat) (m : ControlMsg) (s : State) : (qpDelete c m s).fuses = s.fuses := by
  simp only [qpDelete]
  split <;> simp only [answer_fuses, dropJobsOfQp_fuses, onQp_fuses]

@[simp] theorem qpDrained_fuses (port q : Nat) (s : State) : (qpDrained port q s).fuses = s.fuses := by
  simp only [qpDrained]
  (repeat' split) <;> simp only [reply_fuses, onPort_fuses]

@[simp] theorem ringSet_fuses (c : Nat) (m : ControlMsg) (s : State) : (ringSet c m s).fuses = s.fuses := by
  unfold ringSet
  split <;> simp only [answer_fuses, ite_fuses, onPart_fuses, ite_self]

@[simp] theorem ringRelease_fuses (c : Nat) (m : ControlMsg) (s : State) : (ringRelease c m s).fuses = s.fuses := by
  unfold ringRelease
  split <;> simp only [answer_fuses, ite_fuses, onPart_fuses, ite_self]

@[simp] theorem bar2Window_fuses (c : Nat) (m : ControlMsg) (s : State) : (bar2Window c m s).fuses = s.fuses := by
  simp only [bar2Window, answer_fuses, onPort_fuses]

/-! ### Machine/HostCommands -/

@[simp] theorem takeBuffer_fuses (slot : Nat) (s : State) (b : Nat × Nat) : (takeBuffer slot s b).fuses = s.fuses := by
  simp only [takeBuffer, evalPool_fuses, onPool_fuses]

@[simp] theorem copyPackage_fuses (n len : Nat) (p : List W64) (s : State) : (copyPackage n len p s).2.fuses = s.fuses := by
  simp only [copyPackage, freeWord]
  split <;> simp only [store_fuses]

@[simp] theorem loadJob_fuses (port q seq : Nat) (package : List W64) (failed : Bool) (s : State) :
    (loadJob port q seq package failed s).fuses = s.fuses := by
  simp only [loadJob]
  (repeat' split) <;> simp only [endWith_fuses, jobRefused_fuses, copyPackage_fuses, takeBuffer_fuses, foldl_fuses, implies_true]

@[simp] theorem startJob_fuses (port q seq : Nat) (s : State) : (startJob port q seq s).fuses = s.fuses := by
  simp only [startJob]
  (repeat' split) <;> simp only [endWith_fuses, onCommand_fuses]

@[simp] theorem abortJob_fuses (port q seq : Nat) (s : State) : (abortJob port q seq s).fuses = s.fuses := by
  simp only [abortJob]
  (repeat' split) <;> simp only [endWith_fuses, startOps_fuses, foldl_fuses, abortStarts_fuses, implies_true]

@[simp] theorem unloadCommand_fuses (port q seq : Nat) (s : State) : (unloadCommand port q seq s).fuses = s.fuses := by
  simp only [unloadCommand]
  (repeat' split) <;> simp only [endWith_fuses, unloadJob_fuses]

@[simp] theorem copyEnds_fuses (port q seq status b : Nat) (s : State) : (copyEnds port q seq status b s).fuses = s.fuses := by
  simp only [copyEnds, endCommand_fuses]

@[simp] theorem copyTail_fuses (b len : Nat) (s : State) : (copyTail b len s).2.fuses = s.fuses := by
  simp only [copyTail, freeWord]
  split <;> rfl

@[simp] theorem copyIn_fuses (port q seq : Nat) (data : List Byte) (s : State) : (copyIn port q seq data s).fuses = s.fuses := by
  unfold copyIn
  split <;> simp only [ite_fuses, copyEnds_fuses, store_fuses, copyTail_fuses, ite_self]

@[simp] theorem copyOut_fuses (port q seq : Nat) (sent : Option Nat) (s : State) : (copyOut port q seq sent s).fuses = s.fuses := by
  simp only [copyOut]
  (repeat' split) <;> simp only [copyEnds_fuses, send_fuses, memoryError_fuses]

@[simp] theorem runEnd_fuses (part num : Nat) (s : State) : (runEnd part num s).fuses = s.fuses := by
  unfold runEnd
  split <;> simp only [ite_fuses, startDeferred_fuses, onJob_fuses, completeRun_fuses, publishDigests_fuses, writeStats_fuses,
    reclaim_fuses, raiseJ_fuses, foldl_fuses, implies_true, ite_self]

@[simp] theorem spillArea_fuses (c : Nat) (m : ControlMsg) (s : State) : (spillArea c m s).fuses = s.fuses := by
  unfold spillArea
  split <;> simp only [answer_fuses, ite_fuses, onPart_fuses, ite_self]

@[simp] theorem bar2Access_fuses (port : Nat) (cxl : Bool) (off : Nat) (op : HostMemOp) (s : State) :
    (bar2Access port cxl off op s).fuses = s.fuses := by
  simp only [bar2Access]
  (repeat' split) <;> simp only [send_fuses, hostMetaWrite_fuses, store_fuses, foldl_fst_fuses, memoryError_fuses, implies_true]

/-! ### Machine/Faults -/

@[simp] theorem stopRuns_fuses (js : List Job) (s : State) : (stopRuns js s).fuses = s.fuses := by
  unfold stopRuns
  refine foldl_fuses _ (fun s b => ?_) _ _
  split <;> simp only [stopRun_fuses]

@[simp] theorem raiseU_fuses (u : TestUnit) (code : Nat) (w3 : W64) (s : State) (w2 : W64) : (raiseU u code w3 s w2).fuses = s.fuses := by
  simp only [raiseU, raiseAll_fuses]

@[simp] theorem checkReplay_fuses (u : TestUnit) (t : Nat) (committed : Bool) (s : State) :
    (checkReplay u t committed s).fuses = s.fuses := by
  unfold checkReplay
  refine foldl_fuses _ (fun s b => ?_) _ _
  (repeat' split) <;> simp only [stopRuns_fuses, raiseU_fuses]

@[simp] theorem addTest_fuses (u : TestUnit) (tile : Option Nat) (s : State) : (addTest u tile s).fuses = s.fuses := by
  simp only [addTest, ite_fuses, onFaults_fuses, ite_self]

@[simp] theorem countCorrected_fuses (u : TestUnit) (s : State) : (countCorrected u s).fuses = s.fuses := by
  simp only [countCorrected]
  (repeat' split) <;> simp only [onLink_fuses, onFaults_fuses, addTest_fuses]

@[simp] theorem failUpdates_fuses (c : Nat) (s : State) : (failUpdates c s).fuses = s.fuses := by
  simp only [failUpdates, failSegment_fuses, foldl_fuses, implies_true]

@[simp] theorem detected_fuses (u : TestUnit) (tile : Nat) (committed : Bool) (s : State) :
    (detected u tile committed s).fuses = s.fuses := by
  simp only [detected]
  (repeat' split) <;> simp only [addTest_fuses, failUpdates_fuses, laneLoss_fuses, checkReplay_fuses, holdTile_fuses]

@[simp] theorem errorDetected_fuses (u : TestUnit) (cls : ErrClass) (tile : Nat) (s : State) :
    (errorDetected u cls tile s).fuses = s.fuses := by
  simp only [errorDetected]
  (repeat' split) <;> simp only [countCorrected_fuses, raiseU_fuses, freeWord_fuses, detected_fuses, stopRuns_fuses, addTest_fuses,
    memoryError_fuses]

@[simp] theorem scrubAccess_fuses (line : Nat) (f : Scrubbed) (s : State) : (scrubAccess line f s).fuses = s.fuses := by
  simp only [scrubAccess]
  (repeat' split) <;> simp only [errorDetected_fuses]

@[simp] theorem raiseLasting_fuses (u : TestUnit) (bucket : Bool) (action : Nat) (s : State) :
    (raiseLasting u bucket action s).fuses = s.fuses := by
  simp only [raiseLasting, archiveLog_fuses, raiseU_fuses, onFaults_fuses]

@[simp] theorem markSuspect_fuses (u : TestUnit) (s : State) : (markSuspect u s).fuses = s.fuses := by
  simp only [markSuspect, onFaults_fuses]

@[simp] theorem spareRow_fuses (c p b r : Nat) (s : State) : (spareRow c p b r s).fuses = s.fuses := by
  simp only [spareRow, ite_fuses, raiseU_fuses, onFaults_fuses, takeOut_fuses, ite_self]

@[simp] theorem bankCopied_fuses (c p b : Nat) (s : State) : (bankCopied c p b s).fuses = s.fuses := by
  simp only [bankCopied, ite_fuses, raiseU_fuses, onFaults_fuses, ite_self]

@[simp] theorem swapCore_fuses (c : Nat) (tile : Option Nat) (kind : SwapKind) (s : State) : (swapCore c tile kind s).fuses = s.fuses := by
  unfold swapCore
  split <;> simp only [beginSwap_fuses, coreOut_fuses]

@[simp] theorem engineOut_fuses (u : TestUnit) (s : State) : (engineOut u s).fuses = s.fuses := by
  simp only [engineOut, ite_fuses, failPartition_fuses, foldl_fuses, stopRuns_fuses, takeOut_fuses, ite_self, implies_true]

@[simp] theorem lastingByTest_fuses (u : TestUnit) (tile : Option Nat) (s : State) : (lastingByTest u tile s).fuses = s.fuses := by
  simp only [lastingByTest]
  (repeat' split) <;> simp only [spareRow_fuses, raiseLasting_fuses, onFaults_fuses, takeOut_fuses, engineOut_fuses, laneLoss_fuses,
    swapCore_fuses]

@[simp] theorem lastingByBucket_fuses (u : TestUnit) (s : State) : (lastingByBucket u s).fuses = s.fuses := by
  simp only [lastingByBucket]
  (repeat' split) <;> simp only [spareRow_fuses, raiseLasting_fuses, onSpare_fuses, markSuspect_fuses]

@[simp] theorem transient_fuses (u : TestUnit) (s : State) : (transient u s).fuses = s.fuses := by
  simp only [transient, ite_fuses, lastingByBucket_fuses, onFaults_fuses, raiseU_fuses, ite_self]

@[simp] theorem spareState_fuses (u : TestUnit) (st : Nat) (s : State) : (spareState u st s).fuses = s.fuses := by
  unfold spareState
  split <;> simp only [ite_fuses, onSpare_fuses, ite_self]

@[simp] theorem retestDone_fuses (u : TestUnit) (passed : Bool) (s : State) : (retestDone u passed s).fuses = s.fuses := by
  simp only [retestDone]
  (repeat' split) <;> simp only [onFaults_fuses, lastingByTest_fuses, proposeSwitch_fuses, onLink_fuses, spareState_fuses]

@[simp] theorem afterTest_fuses (u : TestUnit) (s : State) : (afterTest u s).fuses = s.fuses := by
  unfold afterTest
  split <;> simp only [ite_fuses, startOps_fuses, foldl_fuses, settleJob_fuses, settleStep_fuses, implies_true, ite_self]

@[simp] theorem selfTestComplete_fuses (u : TestUnit) (passed : Bool) (s : State) : (selfTestComplete u passed s).fuses = s.fuses := by
  simp only [selfTestComplete]
  (repeat' split) <;> simp only [afterTest_fuses, retestDone_fuses, onFaults_fuses, resume_fuses, lastingByTest_fuses, spareState_fuses,
    transient_fuses, proposeSwitch_fuses, onLink_fuses]

@[simp] theorem loseWords_fuses (pos : Nat) (tile : Option Nat) (lost : List Nat) (s : State) :
    (loseWords pos tile lost s).fuses = s.fuses := by
  simp only [loseWords, ite_fuses, stopRuns_fuses, raiseM_fuses, foldl_fuses, implies_true, ite_self]

@[simp] theorem spareTakes_fuses (w : Swap) (heldUs : Nat) (lost : List Nat) (s : State) :
    (spareTakes w heldUs lost s).fuses = s.fuses := by
  simp only [spareTakes]
  (repeat' split) <;> simp only [resume_fuses, raiseP_fuses, moveOps_fuses, raiseM_fuses, loseWords_fuses, onFaults_fuses, onSpare_fuses]

@[simp] theorem spareFailed_fuses (w : Swap) (s : State) : (spareFailed w s).fuses = s.fuses := by
  simp only [spareFailed, beginSwap_fuses, addTest_fuses, onSpare_fuses, onFaults_fuses]

@[simp] theorem spareTakesPosition_fuses (pos heldUs : Nat) (lost : List Nat) (spareFails : Bool) (s : State) :
    (spareTakesPosition pos heldUs lost spareFails s).fuses = s.fuses := by
  unfold spareTakesPosition
  split <;> simp only [ite_fuses, spareFailed_fuses, spareTakes_fuses, ite_self]

@[simp] theorem unitRetest_fuses (s : State) : (unitRetest s).fuses = s.fuses := by
  simp only [unitRetest, onFaults_fuses, ite_fuses, spareState_fuses, foldl_fuses, ite_self, implies_true]

@[simp] theorem unitRejoin_fuses (u : TestUnit) (s : State) : (unitRejoin u s).fuses = s.fuses := by
  simp only [unitRejoin]
  (repeat' split) <;> simp only [raiseU_fuses, onFaults_fuses, onSpare_fuses]

/-! ### Machine/Update -/

@[simp] theorem mgmtReply_fuses (ep code : Nat) (data : List W64) (s : State) : (mgmtReply ep code data s).fuses = s.fuses := by
  simp only [mgmtReply, send_fuses]

@[simp] theorem whenAnswered_fuses (ep : Nat) (s : State) (f : State → State) (hf : ∀ s, (f s).fuses = s.fuses) :
    (whenAnswered ep s f).fuses = s.fuses := by
  unfold whenAnswered
  split <;> simp only [hf, mgmtReply_fuses]

@[simp] theorem cancelSession_fuses (s : State) : (cancelSession s).fuses = s.fuses := by
  unfold cancelSession
  split <;> simp only [raiseM_fuses, setStage_fuses]

@[simp] theorem requestUpdate_fuses (ep : Nat) (fw bp : Bool) (maxTransfer : Nat) (s : State) :
    (requestUpdate ep fw bp maxTransfer s).fuses = s.fuses := by
  simp only [requestUpdate, writeJournal_fuses, ite_fuses, mgmtReply_fuses, raiseM_fuses, whenAnswered_fuses, ite_self, implies_true]

@[simp] theorem passComponent_fuses (ep comp stamp : Nat) (s : State) : (passComponent ep comp stamp s).fuses = s.fuses := by
  refine whenAnswered_fuses _ _ _ fun s => ?_
  split <;> simp only [mgmtReply_fuses, ite_fuses, onSession_fuses, ite_self]

@[simp] theorem eraseTarget_fuses (bp : Bool) (s : State) : (eraseTarget bp s).fuses = s.fuses := rfl

@[simp] theorem updateComponent_fuses (ep comp stamp size : Nat) (s : State) : (updateComponent ep comp stamp size s).fuses = s.fuses := by
  refine whenAnswered_fuses _ _ _ fun s => ?_
  split <;> simp only [mgmtReply_fuses, ite_fuses, onSession_fuses, eraseTarget_fuses, setStage_fuses, ite_self]

@[simp] theorem writeTarget_fuses (bp : Bool) (ws : List W64) (s : State) : (writeTarget bp ws s).fuses = s.fuses := rfl

@[simp] theorem firmwareData_fuses (ep : Nat) (data : List W64) (s : State) : (firmwareData ep data s).fuses = s.fuses := by
  simp only [firmwareData]
  (repeat' split) <;> simp only [onSession_fuses, writeTarget_fuses, writeJournal_fuses]

@[simp] theorem imageVerify_fuses (ep comp : Nat) (s : State) : (imageVerify ep comp s).fuses = s.fuses := by
  simp only [imageVerify]
  (repeat' split) <;> simp only [raiseM_fuses, setStage_fuses, onSession_fuses]

@[simp] theorem activate_fuses (ep : Nat) (s : State) : (activate ep s).fuses = s.fuses := by
  refine whenAnswered_fuses _ _ _ fun s => ?_
  split
  · simp only [mgmtReply_fuses]
  · simp only [ite_fuses, mgmtReply_fuses, raiseM_fuses, setStage_fuses, writeHeader_fuses, ite_self]

@[simp] theorem orderOwnReset_fuses (s : State) : (orderOwnReset s).fuses = s.fuses := by simp only [orderOwnReset]

@[simp] theorem rollbackUpdate_fuses (ep : Nat) (s : State) : (rollbackUpdate ep s).fuses = s.fuses := by
  simp only [rollbackUpdate, ite_fuses, mgmtReply_fuses, orderOwnReset_fuses, rollback_fuses, ite_self]

@[simp] theorem trialCheck_fuses (s : State) : (trialCheck s).fuses = s.fuses := by
  simp only [trialCheck, ite_fuses, raiseM_fuses, orderOwnReset_fuses, rollback_fuses, ite_self]

/-! ### Machine/Ports -/

@[simp] theorem portEntersReset_fuses (port : Nat) (s : State) : (portEntersReset port s).fuses = s.fuses := by
  simp only [portEntersReset]
  split <;> simp only [onPort_fuses, dropJobsOfPort_fuses, ite_fuses, cancelSession_fuses, onPart_fuses, ite_self]

@[simp] theorem lastPortReset_fuses (port : Nat) (s : State) : (lastPortReset port s).fuses = s.fuses := by
  unfold lastPortReset
  split <;> simp only [ite_fuses, resetPartition_fuses, ite_self]

@[simp] theorem perstAssert_fuses (port : Nat) (s : State) : (perstAssert port s).fuses = s.fuses := by
  simp only [perstAssert, ite_fuses, onPort_fuses, lastPortReset_fuses, portEntersReset_fuses, ite_self]

@[simp] theorem perstRelease_fuses (port : Nat) (s : State) : (perstRelease port s).fuses = s.fuses := by
  simp only [perstRelease, onPort_fuses]

@[simp] theorem d3Entry_fuses (port : Nat) (s : State) : (d3Entry port s).fuses = s.fuses := by
  simp only [d3Entry, ite_fuses, lastPortReset_fuses, onPort_fuses, portEntersReset_fuses, ite_self]

@[simp] theorem pcieWrite_fuses (port : Nat) (w : PcieWrite) (s : State) : (pcieWrite port w s).fuses = s.fuses := by
  simp only [pcieWrite]
  (repeat' split) <;> simp only [send_fuses, onPort_fuses, d3Entry_fuses]

@[simp] theorem linkUpHost_fuses (port rate width : Nat) (flit cxl : Bool) (s : State) :
    (linkUpHost port rate width flit cxl s).fuses = s.fuses := by
  simp only [linkUpHost, ite_fuses, raiseM_fuses, sendAll_fuses, onPort_fuses, ite_self]

@[simp] theorem doeDiscovery_fuses (port index : Nat) (s : State) : (doeDiscovery port index s).fuses = s.fuses := by
  simp only [doeDiscovery, ite_fuses, send_fuses, ite_self]

@[simp] theorem resetQueue_fuses (port q : Nat) (entries : List (List W64)) (s : State) :
    (resetQueue port q entries s).fuses = s.fuses := by
  simp only [resetQueue, onQp_fuses, endCommand_fuses, foldl_fuses, implies_true]

@[simp] theorem clearPartMail_fuses (n : Nat) (s : State) : (clearPartMail n s).fuses = s.fuses := by simp only [clearPartMail]

@[simp] theorem partitionResetDone_fuses (n : Nat) (visible : List (Nat × Nat × List W64)) (s : State) :
    (partitionResetDone n visible s).fuses = s.fuses := by
  simp only [partitionResetDone]
  (repeat' split) <;> simp only [startReset_fuses, finishOrder_fuses, foldl_fuses, raiseM_fuses, onPart_fuses, clearPartMail_fuses,
    clearPartition_fuses, resetQueue_fuses, implies_true]

/-! ### Machine/Management -/

@[simp] theorem whenFirmware_fuses (ep : Nat) (s : State) (f : State → State) (hf : ∀ s, (f s).fuses = s.fuses) :
    (whenFirmware ep s f).fuses = s.fuses := by
  unfold whenFirmware
  (repeat' split) <;> simp only [hf, mgmtReply_fuses]

@[simp] theorem i3cAddress_fuses (a : Nat) (s : State) : (i3cAddress a s).fuses = s.fuses := by simp only [i3cAddress, pumpMgmt_fuses]

@[simp] theorem setEid_fuses (ep eid : Nat) (s : State) : (setEid ep eid s).fuses = s.fuses := by
  simp only [setEid, ite_fuses, mgmtReply_fuses, ite_self]

@[simp] theorem getEid_fuses (ep : Nat) (s : State) : (getEid ep s).fuses = s.fuses := by
  simp only [getEid, ite_fuses, mgmtReply_fuses, ite_self]

@[simp] theorem getUuid_fuses (ep : Nat) (s : State) : (getUuid ep s).fuses = s.fuses := by
  simp only [getUuid, ite_fuses, mgmtReply_fuses, ite_self]

@[simp] theorem getVersions_fuses (ep type : Nat) (s : State) : (getVersions ep type s).fuses = s.fuses := by
  simp only [getVersions, ite_fuses, mgmtReply_fuses, freeWord_fuses, ite_self]

@[simp] theorem getTypes_fuses (ep : Nat) (s : State) : (getTypes ep s).fuses = s.fuses := by
  simp only [getTypes, ite_fuses, mgmtReply_fuses, ite_self]

@[simp] theorem pldmBase_fuses (ep : Nat) (r : PldmBase) (s : State) : (pldmBase ep r s).fuses = s.fuses := by
  unfold pldmBase
  split <;> simp only [ite_fuses, mgmtReply_fuses, whenFirmware_fuses, freeWord_fuses, ite_self, implies_true]

@[simp] theorem getRegister_fuses (o : Nat) (s : State) : (getRegister o s).fuses = s.fuses := by
  simp only [getRegister, ite_fuses, mgmtReply_fuses, ite_self]

@[simp] theorem getSensor_fuses (ep id : Nat) (analogue : Int) (s : State) : (getSensor ep id analogue s).fuses = s.fuses := by
  simp only [getSensor, ite_fuses, getRegister_fuses, mgmtReply_fuses, ite_self]

@[simp] theorem setReceiver_fuses (ep rx : Nat) (s : State) : (setReceiver ep rx s).fuses = s.fuses := by
  simp only [setReceiver, pumpMgmt_fuses, mgmtReply_fuses, onEvents_fuses, whenFirmware_fuses, implies_true]

@[simp] theorem delivered_fuses (s : State) : (delivered s).fuses = s.fuses := by
  simp only [delivered, ite_fuses, raiseM_fuses, onEvents_fuses, pumpMgmt_fuses, ite_self]

@[simp] theorem eventAck_fuses (ep : Nat) (s : State) : (eventAck ep s).fuses = s.fuses := by
  simp only [eventAck, ite_fuses, delivered_fuses, ite_self]

@[simp] theorem pollEvent_fuses (ep : Nat) (s : State) : (pollEvent ep s).fuses = s.fuses := by
  refine whenFirmware_fuses _ _ _ fun s => ?_
  (repeat' split) <;> simp only [mgmtReply_fuses, delivered_fuses]

@[simp] theorem resendEvent_fuses (s : State) : (resendEvent s).fuses = s.fuses := by
  unfold resendEvent
  split <;> simp only [ite_fuses, send_fuses, ite_self]

@[simp] theorem refreshMirror_fuses (mv ma : Int) (s : State) : (refreshMirror mv ma s).fuses = s.fuses := by
  simp only [refreshMirror, ite_fuses, ite_self]

@[simp] theorem spdmReply_fuses (ep : Nat) (ws : List W64) (s : State) : (spdmReply ep ws s).fuses = s.fuses := by
  simp only [spdmReply, send_fuses]

@[simp] theorem spdmConnect_fuses (ep : Nat) (r : SpdmReq) (s : State) : (spdmConnect ep r s).fuses = s.fuses := by
  unfold spdmConnect
  split <;> simp only [spdmReply_fuses, onSpdm_fuses, ite_fuses, freeWord_fuses, ite_self]

@[simp] theorem spdmAttest_fuses (ep : Nat) (r : SpdmReq) (s : State) : (spdmAttest ep r s).fuses = s.fuses := by
  simp only [spdmAttest]
  (repeat' split) <;> simp only [spdmReply_fuses]

@[simp] theorem spdmSession_fuses (ep : Nat) (doe : Bool) (r : SpdmReq) (s : State) : (spdmSession ep doe r s).fuses = s.fuses := by
  simp only [spdmSession]
  (repeat' split) <;> simp only [spdmReply_fuses, onSpdm_fuses, onPort_fuses]

@[simp] theorem spdmRequest_fuses (ep : Nat) (doe : Bool) (r : SpdmReq) (s : State) : (spdmRequest ep doe r s).fuses = s.fuses := by
  simp only [spdmRequest]
  (repeat' split) <;> simp only [spdmConnect_fuses, spdmReply_fuses, spdmAttest_fuses, spdmSession_fuses]

/-! ### Machine/Registers -/

@[simp] theorem dropLatch_fuses (mid o : Nat) (s : State) : (dropLatch mid o s).fuses = s.fuses := by simp only [dropLatch]

@[simp] theorem writeReg_fuses (port o size : Nat) (v : W64) (s : State) : (writeReg port o size v s).fuses = s.fuses := by
  simp only [writeReg, ite_fuses, sqTail_fuses, cqHead_fuses, tryBeginAll_fuses, enterOrder_fuses, mbSend_fuses, mbData_fuses,
    hostAccessError_fuses, eventHead_fuses, ite_self]

@[simp] theorem registerWrite_fuses (port o size : Nat) (v : W64) (s : State) : (registerWrite port o size v s).fuses = s.fuses := by
  simp only [registerWrite, ite_fuses, send_fuses, hostAccessError_fuses, dropLatch_fuses, writeReg_fuses, ite_self]

@[simp] theorem lowHalf_fuses (port o : Nat) (s : State) : (lowHalf port o s).fuses = s.fuses := by
  simp only [lowHalf, send_fuses, dropLatch_fuses, ite_fuses, takeMessage_fuses, ite_self]

@[simp] theorem highHalf_fuses (port o : Nat) (s : State) : (highHalf port o s).fuses = s.fuses := by
  simp only [highHalf, send_fuses, dropLatch_fuses]

@[simp] theorem halfRead_fuses (port o : Nat) (s : State) : (halfRead port o s).fuses = s.fuses := by
  simp only [halfRead, ite_fuses, send_fuses, lowHalf_fuses, highHalf_fuses, ite_self]

/-! ### Machine/Start -/

@[simp] theorem rebuildBuckets_fuses (s : State) : (rebuildBuckets s).fuses = s.fuses := by simp only [rebuildBuckets, onFaults_fuses]

@[simp] theorem failAll_fuses (ps : List Nat) (unit : Nat) (s : State) : (failAll ps unit s).fuses = s.fuses := by
  simp only [failAll, ite_fuses, failPartition_fuses, foldl_fuses, ite_self, implies_true]

@[simp] theorem startCore_fuses (c : Nat) (kind : SwapKind) (s : State) : (startCore c kind s).fuses = s.fuses := by
  simp only [startCore]
  split <;> simp only [spareTakes_fuses, lastingByTest_fuses]

@[simp] theorem startFailure_fuses (s : State) (u : StartUnit) : (startFailure s u).fuses = s.fuses := by
  simp only [startFailure]
  (repeat' split) <;> simp only [startCore_fuses, failAll_fuses, takeOut_fuses, raiseLasting_fuses, lastingByTest_fuses, raiseU_fuses,
    onFaults_fuses]

@[simp] theorem endStart_fuses (s : State) : (endStart s).fuses = s.fuses := by simp only [endStart, ite_fuses, ite_self]

@[simp] theorem startupSelfTest_fuses (failing : List StartUnit) (s : State) : (startupSelfTest failing s).fuses = s.fuses := by
  simp only [startupSelfTest, ite_fuses, endStart_fuses, failAll_fuses, foldl_fuses, startFailure_fuses, trainAll_fuses, opTarget_fuses,
    rebuildBuckets_fuses, firmwareStart_fuses, ite_self, implies_true]

@[simp] theorem partitionReady_fuses (n : Nat) (checkPassed : Bool) (s : State) : (partitionReady n checkPassed s).fuses = s.fuses := by
  simp only [partitionReady, ite_fuses, endStart_fuses, onPart_fuses, failPartition_fuses, ite_self]

/-! ### Machine/Tap -/

@[simp] theorem tapBypass_fuses (i : TapInstr) (s : State) : (tapBypass i s).fuses = s.fuses := by
  simp only [tapBypass, send_fuses, tapSelect_fuses]

@[simp] theorem tapCells_fuses (i : TapInstr) (cells : List Bool) (s : State) : (tapCells i cells s).fuses = s.fuses := by
  simp only [tapCells, send_fuses, tapSelect_fuses]

/-! ### The boot ROM and the key slots (R582 to R584, R593 to R596) -/

/-- The boot ROM touches fuses only to finish a confirmation that the journal holds (R595). -/
theorem bootUpdate_fuses (s : State) (h : stageOf s ≠ 6) : (bootUpdate s).fuses = s.fuses := by
  have h6 : ¬ (stageOf s == 6) = true := by simpa using h
  simp only [bootUpdate, if_neg h6, ite_fuses, raiseM_fuses, freeWord_fuses, setStage_fuses, writeHeader_fuses, rollback_fuses,
    trialBoot_fuses, ite_self]

theorem bootRom_fuses (s : State) (h : stageOf (bootStep1 { s with boot := { s.boot with romDone := true } }) ≠ 6) :
    (bootRom s).fuses = s.fuses := by
  have hu : (bootUpdate (bootStep1 { s with boot := { s.boot with romDone := true } })).fuses = s.fuses := by
    rw [bootUpdate_fuses _ h, bootStep1_fuses]
  simp only [bootRom]
  split
  · rfl
  · split <;> simp [hu]

theorem programKey_fuses (ep slot : Nat) (hash : Digest) (s : State) :
    (programKey ep slot hash s).fuses = { s.fuses with ownerKeys := (programKey ep slot hash s).fuses.ownerKeys } := by
  unfold programKey
  (repeat' split) <;> simp

theorem revokeKey_fuses (ep slot : Nat) (s : State) :
    (revokeKey ep slot s).fuses = { s.fuses with ownerKeys := (revokeKey ep slot s).fuses.ownerKeys } := by
  simp only [revokeKey]
  (repeat' split) <;> simp

/-! ### Every command but four leaves the fuses -/

/-- The outcome is a next state with the fuses of `s`. -/
def FusesKept (s : State) (o : Host.Outcome State Fault Refusal) : Prop := ∃ t, o = .next t ∧ t.fuses = s.fuses

theorem fusesKept_next {s t : State} (h : t.fuses = s.fuses) : FusesKept s (.next t) := ⟨t, rfl, h⟩

theorem FusesKept.fuses_eq {s t : State} {o : Host.Outcome State Fault Refusal} (h : FusesKept s o) (ht : o = .next t) :
    t.fuses = s.fuses := by
  obtain ⟨u, rfl, hu⟩ := h
  cases ht
  exact hu

/-- R583, R584, R593: outside the two key commands, the confirmation and the boot ROM no command touches a fuse. The meaning of each command is one
named change of the state, whose law above says that the fuses stay; the cases named here are those whose meaning is a match of its own. -/
theorem exec_fusesKept (c : Instr) (s : State) (hp : ∀ e n d, c ≠ .programKeySlot e n d) (hr : ∀ e n, c ≠ .revokeKeySlot e n)
    (hc : ∀ e, c ≠ .confirmUpdate e) (hb : c ≠ .bootRom) : FusesKept s (exec c s) := by
  cases c with
  | programKeySlot e n d => exact absurd rfl (hp e n d)
  | revokeKeySlot e n => exact absurd rfl (hr e n)
  | confirmUpdate e => exact absurd rfl (hc e)
  | bootRom => exact absurd rfl hb
  | bufferAgeSweep => exact fusesKept_next (by split <;> simp)
  | commitCountReached p n => exact fusesKept_next (by split <;> simp)
  | stepCurtainRelease p n => exact fusesKept_next (by split <;> simp)
  | chanCredit k h0 h1 => exact fusesKept_next (responseArrives_fuses _ _ _ _ (fun s => by split <;> simp) _)
  | cancelUpdateComponent ep => exact fusesKept_next (whenAnswered_fuses _ _ _ fun s => by split <;> simp)
  | cancelUpdate ep => exact fusesKept_next (whenAnswered_fuses _ _ _ fun s => by split <;> simp)
  | _ => exact fusesKept_next (by simp)

/-- The blueprint floor's entries stand still in every command but a confirmation: CONFIRM_UPDATE, and the boot ROM that finds stage 6
(R36, R593, R595). -/
theorem exec_bpFloor (c : Instr) (s t : State) (h : exec c s = .next t) (hc : ∀ e, c ≠ .confirmUpdate e)
    (hb : c = .bootRom → stageOf (bootStep1 { s with boot := { s.boot with romDone := true } }) ≠ 6) :
    t.fuses.bpFloor = s.fuses.bpFloor := by
  by_cases hrom : c = .bootRom
  · subst hrom
    cases h
    rw [bootRom_fuses s (hb rfl)]
  by_cases hp : ∃ e n d, c = .programKeySlot e n d
  · obtain ⟨e, n, d, rfl⟩ := hp
    cases h
    rw [programKey_fuses]
  by_cases hr : ∃ e n, c = .revokeKeySlot e n
  · obtain ⟨e, n, rfl⟩ := hr
    cases h
    rw [revokeKey_fuses]
  · have kept : FusesKept s (exec c s) :=
      exec_fusesKept c s (fun e n d he => hp ⟨e, n, d, he⟩) (fun e n he => hr ⟨e, n, he⟩) hc hrom
    rw [kept.fuses_eq h]

end Sys2Proof.Machine
end

section
/-! SUPPORT. The blueprint floor: what validation does below it, and which steps can raise it. -/
namespace Sys2Proof.Machine

/-! ### The blueprint floor (R36) -/

/-- An image whose SECURITY_VERSION is below the floor is rejected, at stage 3 if not before (R36, R65). -/
theorem validateBlueprint_below_floor (slot : List W64) (keys : List KeySlot) (floor : Nat) (g : Bool)
    (h : fld ((imageOf slot).getD 2 0) 31 0 < floor) : ∃ e, validateBlueprint slot keys floor g = .error e := by
  unfold validateBlueprint
  split
  · next e _ => exact ⟨e, rfl⟩
  · dsimp only
    split
    · next e _ => exact ⟨e, rfl⟩
    · exact ⟨_, if_pos h⟩

/-- Settles O58: validation compares with the floor itself, and every command but a confirmation leaves the floor's entries. -/
theorem blueprintFloor : Obligations.BlueprintFloor := by
  unfold Obligations.BlueprintFloor
  refine ⟨validateBlueprint_below_floor, fun c s t h hne => ?_⟩
  by_cases hc : ∃ e, c = .confirmUpdate e
  · exact .inl hc
  by_cases hb : c = .bootRom ∧ stageOf (bootStep1 { s with boot := { s.boot with romDone := true } }) = 6
  · exact .inr hb
  · have still : t.fuses.bpFloor = s.fuses.bpFloor :=
      exec_bpFloor c s t h (fun e he => hc ⟨e, he⟩) (fun he h6 => hb ⟨he, h6⟩)
    exact absurd (congrArg floorOf still) hne

end Sys2Proof.Machine
end

section
/-! SUPPORT. The refused sends of a mailbox channel (R158): what REFUSED becomes, and the statement that reads it otherwise. -/
namespace Sys2Proof.Machine

/-! ### Refused sends (R158) -/

/-- A send by the channel's sender that finds the channel full, or whose length is not 1 to 256, changes REFUSED alone. -/
theorem mbSend_refused {s : State} {mid c len : Nat} (htx : isSender (chan c s) mid = true)
    (h : (chan c s).full = true ∨ len = 0 ∨ 256 < len) :
    mbSend mid c len s = onChan c (fun m => { m with refused := satInc 0xFF m.refused }) s := by
  have bad : (!(chan c s).full && inRange len 1 256) = false := by
    rcases h with hfull | hzero | hlong
    · simp [hfull]
    · simp [inRange, hzero]
    · simp [inRange, hlong]
  simp only [mbSend, htx, bad, if_true, Bool.false_eq_true, if_false]

/-- REFUSED after a refused send: one more, and 0xFF from every count that is 0xFF or above. -/
theorem refused_mbSend_refused {s : State} {mid c len : Nat} (hc : c < s.mail.length) (htx : isSender (chan c s) mid = true)
    (h : (chan c s).full = true ∨ len = 0 ∨ 256 < len) :
    (chan c (mbSend mid c len s)).refused = satInc 0xFF (chan c s).refused := by
  rw [mbSend_refused htx h, chan_onChan_same c _ s hc]

/-- A module with one channel, from host 0 to puppeteer core 0, whose REFUSED holds 0x100: `Mailbox` keeps the count as a number of any
size, where the register of Table 5.6 has eight bits. -/
def overcountedChannel : State :=
  { State.reset with mail := [{ Mailbox.empty with
      bind := some { channel := 0, sender := 0x10, receiver := 0x20, partition := 0, partitionValid := true, wake := false }
      refused := 0x100 }] }

/-- Refutes O8: it ranges over every state and keeps a REFUSED of 0xFF or above as it is, where a refused send sets it to 0xFF. At
`overcountedChannel`, a send of length 0 takes REFUSED from 0x100 to 0xFF. -/
theorem not_mailboxes : ¬ Obligations.Mailboxes := by
  unfold Obligations.Mailboxes
  rintro ⟨sender, -⟩
  have inside : 0 < overcountedChannel.mail.length := by decide
  have sends : isSender (chan 0 overcountedChannel) 0x10 = true := by decide
  have becomes : (chan 0 (mbSend 0x10 0 0 overcountedChannel)).refused = 0xFF :=
    refused_mbSend_refused inside sends (.inr (.inl rfl))
  obtain ⟨-, refused, -⟩ := sender overcountedChannel 0x10 0 inside sends
  obtain ⟨t, answered, stays, -⟩ := refused 0 (.inr (.inl rfl))
  have ht : mbSend 0x10 0 0 overcountedChannel = t := Host.Outcome.next.inj answered
  rw [← ht, becomes] at stays
  exact absurd stays (by decide)

end Sys2Proof.Machine
end

section
/-! SUPPORT. The dice draw of an element, by the element's group of four and its place in the group. -/
namespace Sys2Proof.Machine

/-! ### Dice draws (R256) -/

/-- Below 2^32 the element index does not wrap, so its group is g and its place in the group is j. -/
theorem draw_of_group_and_place (k : DiceKey) {g j : Nat} (hj : j < 4) (hfit : 4 * g + j < 2 ^ 32) :
    draw k (4 * g + j) = (dice k g >>> (16 * j)) % 2 ^ 16 := by
  have group : (4 * g + j) % 2 ^ 32 / 4 = g := by omega
  have place : (4 * g + j) % 4 = j := by omega
  rw [draw, group, place]

/-- Settles O59: the model takes the 16 bits as a remainder, which is the mask of R256. -/
theorem drawOfAnElement : Obligations.DrawOfAnElement := by
  unfold Obligations.DrawOfAnElement
  intro k g j hj hfit
  calc draw k (4 * g + j)
    _ = (dice k g >>> (16 * j)) % 2 ^ 16 := draw_of_group_and_place k hj hfit
    _ = (dice k g >>> (16 * j)) &&& 0xFFFF := (Nat.and_two_pow_sub_one_eq_mod _ 16).symm

end Sys2Proof.Machine
end

section
/-! SUPPORT. The update of one element, an equation for each optimiser (R361 to R364). -/
namespace Sys2Proof.Machine

/-! ### The sign of Lion (R364) -/

/-- A NaN has the canonical NaN for its sign. -/
theorem f32Sign_of_nan {c : Nat} (h : ofF32 c = .nan) : f32Sign c = 0x7FC00000 := by
  rw [f32Sign, h]
  rfl

/-- Any value but a NaN has +0, -1.0 or +1.0 for its sign. -/
theorem f32Sign_of_ne_nan {c : Nat} (h : ofF32 c ≠ .nan) :
    f32Sign c = if (ofF32 c).isZero then 0 else if (ofF32 c).isNeg then 0xBF800000 else 0x3F800000 := by
  rw [f32Sign]
  split
  case h_1 nan => exact absurd nan h
  case h_2 => rfl

/-- Either zero has +0 for its sign. -/
theorem f32Sign_of_isZero {c : Nat} (h : (ofF32 c).isZero = true) : f32Sign c = 0 := by
  have number : ofF32 c ≠ .nan := fun nan => by simp [nan, Val.isZero] at h
  rw [f32Sign_of_ne_nan number, if_pos h]

/-- A value that is neither a NaN nor a zero has -1.0 or +1.0 for its sign. -/
theorem f32Sign_of_nonzero {c : Nat} (number : ofF32 c ≠ .nan) (nonzero : (ofF32 c).isZero = false) :
    f32Sign c = if (ofF32 c).isNeg then 0xBF800000 else 0x3F800000 := by
  simp [f32Sign_of_ne_nan number, nonzero]

/-! ### One equation per optimiser -/

section
variable {f : SegFields} (k : Scalars) (acc : Nat) (x : Element)

/-- AdamW (R362) writes the master and both moments. -/
theorem updateElement_adamW (h : f.opt = 0) :
    let g := f32Mul acc k.gs
    let m := f32Add (f32Mul f.b1 x.m) (f32Mul k.omb1 g)
    let v := f32Add (f32Mul f.b2 x.v) (f32Mul k.omb2 (f32Mul g g))
    let root := toF32 (ofF32 (f32Mul v k.ibc2)).sqrt
    let u := toF32 ((ofF32 (f32Mul m k.ibc1)).div (ofF32 (f32Add root f.eps)))
    updateElement f k acc x = ⟨f32Sub (f32Mul x.w k.keep) (f32Mul k.lr u), m, v, x.a⟩ := by
  simp only [updateElement, h]

/-- SGD (R363) writes the master and the first moment, b2 being the dampening. -/
theorem updateElement_sgd (h : f.opt = 1) :
    let g := f32Mul acc k.gs
    let m := f32Add (f32Mul f.b1 x.m) (f32Mul k.omb2 g)
    let d := if f.nesterov then f32Add g (f32Mul f.b1 m) else m
    updateElement f k acc x = ⟨f32Sub (f32Mul x.w k.keep) (f32Mul k.lr d), m, x.v, x.a⟩ := by
  simp only [updateElement, h]

/-- Lion (R364) writes the master by a sign alone, and the first moment. -/
theorem updateElement_lion (h : f.opt = 2) :
    let g := f32Mul acc k.gs
    let c := f32Add (f32Mul f.b1 x.m) (f32Mul k.omb1 g)
    updateElement f k acc x =
      ⟨f32Sub (f32Mul x.w k.keep) (f32Mul k.lr (f32Sign c)), f32Add (f32Mul f.b2 x.m) (f32Mul k.omb2 g), x.v, x.a⟩ := by
  simp only [updateElement, h]

end

/-- Settles O60, one optimiser after another; Lion's s is `f32Sign` of its c. -/
theorem optimiserEquations : Obligations.OptimiserEquations := by
  unfold Obligations.OptimiserEquations
  intro f k acc x
  refine ⟨fun adamW => ?_, fun sgd => ?_, fun lion => ?_⟩
  · exact ⟨_, _, _, _, _, rfl, rfl, rfl, rfl, rfl, updateElement_adamW k acc x adamW⟩
  · exact ⟨_, _, rfl, rfl, updateElement_sgd k acc x sgd⟩
  · exact ⟨_, _, rfl, ⟨f32Sign_of_nan, f32Sign_of_isZero, f32Sign_of_nonzero⟩, updateElement_lion k acc x lion⟩

end Sys2Proof.Machine
end
